-- ==== Sys2Proof/Word.lean ====
section
/-! DEFINITION. The word types of the BND1600 and their plainest arithmetic. -/

namespace Sys2Proof

/-- A word of 32 bits (00_scope.md, "Numbers, units and bit order"). -/
abbrev Word := BitVec 32

/-- One byte. -/
abbrev Byte := BitVec 8

/-- A string of bytes, lowest address first (R10). -/
abbrev Bytes := List Byte

/-- A bit that a condition sets. -/
def bit (b : Bool) : Nat := if b then 1 else 0

/-- Addition that stops at `m` (counters that "saturate"). -/
def satAdd (m a b : Nat) : Nat := min m (a + b)

/-- One more, wrapping at `w` bits (counters that "wrap"). -/
def wrapInc (w a : Nat) : Nat := (a + 1) % 2 ^ w

end Sys2Proof
end

