-- ==== Sys2Proof/Config.lean ====
section
/-! DEFINITION. What the spec leaves to one part, to Torvend's tools or to nobody: free values and uninterpreted
functions (no body: nothing can be proved of their values), and the few constants the spec fixes for stepping A. -/

namespace Sys2Proof

/-- A sphere in 0.25 mm (R143): centre and radius. -/
structure Sphere where
  x : Int
  y : Int
  z : Int
  r : Nat
deriving DecidableEq, Repr, Inhabited

/-- A point in metres, each coordinate an FP32 pattern. -/
structure FPoint where
  x : Word
  y : Word
  z : Word
deriving DecidableEq, Repr, Inhabited

/-- A placed sphere: centre in metres (FP32) and radius in 0.25 mm. -/
structure FSphere where
  c : FPoint
  r : Nat
deriving DecidableEq, Repr, Inhabited

/-- The cost network of a planning image (R224, R225): FP8-E4M3 weights, FP32 scales, biases, head and output bias. -/
structure CostNet where
  h1 : Nat
  h2 : Nat
  h3 : Nat
  w1 : List (List Byte)
  w2 : List (List Byte)
  w3 : List (List Byte)
  s1 : List Word
  s2 : List Word
  s3 : List Word
  b1 : List Word
  b2 : List Word
  b3 : List Word
  v  : List Word
  bOut : Word
deriving DecidableEq, Repr, Inhabited

/-- The values the rules take from a planning image (R47, R50, R190, R224, R247, R279, R298, R325, R352, R467, R617,
R715). The image's own layout is Decgon's and no rule gives it. -/
structure PlanImage where
  axes : Nat
  planId : Bytes
  hStep : Nat
  mMax : Nat
  iterPlan : Nat
  vSub : Nat
  vPad : Nat
  npPad : Nat
  retryTime : Nat
  tileMax : Nat
  plannedUs : Nat
  hedgeTable : List (Nat × Nat)
  waves : Nat
  nodesPerWave : Nat
  candMax : Nat
  codeBytes : Nat
  residentBytes : Nat
  code : Bytes
  resident : Bytes
  vmax : List Word
  amax : List Word
  jmax : List Word
  corridor : List Word
  net : CostNet
  kinModel : Bytes
deriving DecidableEq, Repr, Inhabited

/-- A camera record (R104), its REAL32 fields as patterns. -/
structure CamRec where
  rx : Nat
  vc : Nat
  dtConf : Nat
  trMode : Nat
  width : Nat
  height : Nat
  depthUnit : Nat
  rangeMin : Nat
  rangeMax : Nat
  cMin : Nat
  decim : Nat
  rayStride : Nat
  missGuard : Nat
  lossAction : Nat
  expoOffset : Nat
  ageMax : Nat
  streamTimeout : Nat
  fx : Word
  fy : Word
  cx : Word
  cy : Word
  rot : List Word
  trans : List Word
  trPattern : Nat
  coverLo : Nat
  coverSize : Nat
  raw : Bytes
deriving DecidableEq, Repr, Inhabited

/-- A store-region descriptor (R481). -/
structure Region where
  offset : Nat
  size : Nat
  kind : Nat
  ctx : Nat
  mirror : Nat
deriving DecidableEq, Repr, Inhabited

/-- One entry of the IMAGES directory (R640). -/
structure DirEntry where
  handle : Nat
  kind : Nat
  flashOff : Nat
  length : Nat
deriving DecidableEq, Repr, Inhabited

/-- A fixed module slot (R646): bus 0 IC0, 1 IC1, 2 CN0, 3 CN1; context 0-15 or 255. -/
structure FixedSlot where
  bus : Nat
  addr : Nat
  where_ : Nat
  ctx : Nat
deriving DecidableEq, Repr, Inhabited

/-- A CAN controller's bit timing, as its nominal and its data bit rate in kbit/s (R574). -/
structure CanTiming where
  nominal : Nat
  data : Nat
deriving DecidableEq, Repr, Inhabited

/-- The identifiers of a controller's XL block frames (R577). -/
structure XlIds where
  reqId : Nat
  rspId : Nat
  sdt : Nat
  vcid : Nat
deriving DecidableEq, Repr, Inhabited

/-- One CAN controller's settings (R574, R577, R592). -/
structure CanCfg where
  en : Bool
  gen : Nat
  nodeId : Nat
  emcyEn : Bool
  timing : CanTiming
  xl : XlIds
  comm : List (Nat × Nat × Bytes)   -- its communication objects: index, subindex, value
deriving DecidableEq, Repr, Inhabited

/-- The heartbeat period in ms: the value of object 0x1017 of the controller (R575). -/
def CanCfg.heartbeatMs (c : CanCfg) : Nat :=
  match c.comm.find? fun e => e.1 == 0x1017 && e.2.1 == 0 with
  | some e => e.2.2.foldr (fun b a => b.toNat + 256 * a) 0
  | none => 0

/-- One SDIO interface's settings (R591). -/
structure SdCfg where
  en : Bool
  f2En : Bool
  maxMode : Nat
  v18En : Bool
deriving DecidableEq, Repr, Inhabited

/-- One mailbox's settings (R581): 0 host cluster, 1 AON, 2 Port A, 3 Port B. -/
structure MbxCfg where
  sender : Nat
  receiver : Nat
deriving DecidableEq, Repr, Inhabited

/-- The HEDGE section (R601, R604): address, levels, expected members, routes (`lvl2` and `lvl1`: index to port) and
broadcast mask. -/
structure HedgeCfg where
  addr : Nat
  levels : Nat
  expected : List Nat
  lvl2 : List (Nat × Nat)
  lvl1 : List (Nat × Nat)
  bcast : List Nat
deriving DecidableEq, Repr, Inhabited

/-- One link port's settings (R623). -/
structure LinkCfg where
  en : Bool
  spareEn : Bool
deriving DecidableEq, Repr, Inhabited

/-- One PSRAM channel's settings (R659, R682). -/
structure PsrCfg where
  pop : Bool
  lc : Nat
  drive : Nat
  tcem : Nat
deriving DecidableEq, Repr, Inhabited

/-- The contents of the configuration record's sections, once decoded (R634). -/
structure CfgBodies where
  portA : Nat              -- 0 SDA, 1 SDB, 2 CN0, 3 CN1, 255 unbound
  portB : Nat
  edgeBase : Nat
  nodeBase : Nat
  arbWeights : List (Nat × Nat × Nat × Nat)   -- store, PSRAM and link weight, wait limit, by requester
  partitions : List Nat
  cameras : List (Nat × Bytes)
  can : List CanCfg
  canTimeoutMs : Nat
  sdio : List SdCfg
  mailboxes : List MbxCfg
  hedge : HedgeCfg
  links : List LinkCfg
  tagPollMs : Nat
  moduleKeys : List Bytes
  fixedSlots : List FixedSlot
  scanWindows : List (Nat × Nat × Nat)        -- bus, first and last address
  imageBase : Nat
  imageSize : Nat
  images : List DirEntry
  vcoreMin : Nat
  vcoreNom : Nat
  psram : List PsrCfg
  hostHandle : Nat
deriving DecidableEq, Repr, Inhabited

namespace Config

/-- The source of free values: the n-th value of w bits that the spec leaves open (log 5). -/
opaque freeBits (w : Nat) : Nat → BitVec w

/-- How Decgon's planning image encodes its values: the spec gives no layout (log 6). -/
opaque planImage : Bytes → Option PlanImage

/-- Whether the header of a planning, forecast or host-kernel image is well formed (R641): the spec gives no layout. -/
opaque headerOk : Nat → Bytes → Bool

/-- The forward kinematics that the engines and the Fuse unit run: the placed body spheres at a pose (R203, R80). -/
opaque bodySpheres : Bytes → List Word → List FSphere

/-- The engines' forward kinematics of a point given in the flange frame (R203). -/
opaque placeInFlange : Bytes → List Word → Sphere → FPoint

/-- The Verifier's own forward kinematics of the body spheres (R280, R285). -/
opaque vfyBodySpheres : Bytes → List Word → List FSphere

/-- The Verifier's own forward kinematics of a tool sphere (R285). -/
opaque vfyPlaceInFlange : Bytes → List Word → Sphere → FPoint

/-- CAPSULES of an attempt that failed (R716): the spec counts the capsules of the released attempt and states no count where
the attempt was not released. The arguments are the context, the frame, the attempt, its reason, the epoch read and the
capsules of its trajectories (log 104). -/
opaque failedCapsules : List Nat → Nat

/-- The forecast network (R92): image bytes, the four grids oldest first, slice 0-3, cell number; an FP16 logit. -/
opaque forecastLogit : Bytes → List (List (Nat × Nat)) → Nat → Nat → BitVec 16

/-- What a dynamic-grid cell holds for a largest L below 0: the spec gives m as a UINT8 and no code for it (R90). -/
opaque gridNegative : Int → Nat

/-- The pose of HOLD at a context start without a START_NODE to take it from (R293; log 40), by planning image, context, frame,
START_NODE and axis. -/
opaque startPose : Bytes → Nat → Nat → Nat → Nat → Word

/-- Which free place of a pool a new version takes (R73): the spec says a free one and not which. The arguments are the pool
(0 brick slots, 1 nodes, 2 crown pages), the tick and what the version stands for; taken modulo the number of free places
(log 108). -/
opaque freePlace : Nat → Nat → Nat → Nat

/-- Where an area of the world lies in its region (R97, R282), from the region's start: the spec names the areas and gives no
offsets. The arguments are the area (0 SDF plane, 1 brick headers, 2 crown pages, 3 nodes, 4 occupancy plane, 5 static masks,
6 a dynamic grid, 7 to 10 the distance plane of a forecast slice, 11 to 14 its bit plane, 15 a bitmap) and, of an area that there
are several of, the tick that it stands for (log 20). -/
opaque areaBase : Nat → Nat → Nat

/-- How the configuration record's section bodies are encoded, REGIONS and IMAGES apart (R634; log 6). -/
opaque sections : List (Nat × Bytes) → CfgBodies

/-- Whether a section body is well formed by its own layout, REGIONS and IMAGES apart (R634; log 6). -/
opaque sectionOk : Nat → Bytes → Bool

/-- Torvend's root public keys in the boot ROM (R626). -/
opaque rootKey : Nat → Bytes

/-- The device seed that the PUF reconstructs from helper data (R637). -/
opaque pufSeed : Bytes → Bytes

/-- The 16 B that the helper data carries over the seed (R637): the spec gives its layout nowhere. -/
opaque helperDigest : Bytes → Bytes

/-- The helper data that enrolment writes (R632). -/
opaque enrolHelper : Bytes → Bytes

/-- The scene that the golden program copies from the boot ROM into banks 4-15, by CL (R463). -/
opaque goldenScene : Nat → Bytes

/-- The golden-frame program of the boot ROM, which fills 16 KiB of every instruction RAM (R352, R463). -/
opaque goldenProgram : Bytes

/-- The output records of a sound engine's golden frame at a CL (R463, R464): the boot ROM holds their digest. -/
opaque goldenRecords : Nat → Bytes

/-- Where AON allocates a context's resident data in banks 0-3 and its code in the instruction RAM: the spec says that R352
allocates ranges and not which (R343, R351). The arguments are the sizes allocated already, by context, and the context (log 112). -/
opaque residentAt : List (Nat × Nat) → Nat → Nat
opaque codeAt : List (Nat × Nat) → Nat → Nat

/-- A byte of a scratchpad whose contents are undefined (R353, R505): by engine, how often they have become so, and offset. -/
opaque spadByte : Nat → Nat → Nat → Byte

/-- The state byte of a module node's heartbeat, by node and ACLK count: the command does not carry it (log 43). -/
opaque heartbeatState : Nat → Nat → Byte

/-- Whether LIFE_USED's term of an hour at T °C that is no whole number of units is rounded up (R543; log 6). -/
opaque lifeUp : Int → Bool

/-- The output records that a chip sends back for a tile of the top root, by station, input records and a free value: the spec gives
them no layout (R614; log 49). -/
opaque tileOutput : Nat → Bytes → Nat → Bytes

/-- The route of flits from one chip to another passes through a port of a chip: from, to, chip, port. Routes are static, and the record
of a chip holds its own part of them (R601, R602; log 127). -/
opaque routeVia : Nat → Nat → Nat → Nat → Bool

/-- The bytes of function 0 that the SDIO specification leaves to the card: the CIS and the pointers to it (R567; log 82). -/
opaque cisByte : Nat → Byte

/-- The argument of an SDIO command that reaches a channel of the part, by interface and ACLK count (log 43). -/
opaque sdioArg : Nat → Nat → Nat

/-- How many commands wait in an engine's queues while it runs a tile (R364): by engine, tile handle and ACLK count. The spec
says nothing of the commands of a station program (R328). -/
opaque cmdsQueued : Nat → Nat → Nat → Nat

/-- The check bits of the SECDED code over a 64-bit word (R326): the spec names the code and gives no matrix. -/
opaque checkBits : BitVec 64 → Byte

/-- Which of its 4,096 lines an SQU's full line cache gives up (R337), by engine and new line. -/
opaque lineVictim : Nat → Nat → Nat

/-- A word of the boot ROM (R54), by address. -/
opaque romWord : Nat → Word

/-- The software version string of a firmware version (0x100A:00): the spec gives no form. -/
opaque versionText : Nat → Bytes

/-- The part's serial number (0x1018:04). -/
opaque serial : Word

/-- The identification words that a populated PSRAM device gives (R659). -/
opaque psramId : Nat → Word

/-- The silicon stepping: A (R1). -/
def stepping : Nat := 1

/-- The highest compatibility level that stepping A implements (R2). -/
def clMax : Nat := 1

end Config
end Sys2Proof
end

