-- ==== Sys2Proof/Syntax.lean ====
section
/-! DEFINITION. The commands of the BND1600: one constructor for each row of spec/opcode_table.json. The table gives no
operands; each constructor takes what its row's rule leaves to the sender: the unit, the master or port, the value, and
what the world outside the model decides (a pin's level, a defect, a signal's integrity). -/

namespace Sys2Proof

abbrev CtxId := Fin 16
abbrev EngId := Fin 18
abbrev StreamId := Fin 16
abbrev RxId := Fin 4
abbrev CoreId := Fin 5
abbrev ThreadId := Fin 256
abbrev FlowId := Fin 16
abbrev MbxId := Fin 32
abbrev LinkId := Fin 6
abbrev DomainId := Fin 30
abbrev BankId := Fin 16
abbrev ReqId := Fin 32
/-- Shared resources (R398): 0-31 store banks, 32-39 PSRAM channels, 40-45 link transmit sides. -/
abbrev ResId := Fin 46

/-- The two master ports (R550). -/
inductive Port where
  | a
  | b
deriving DecidableEq, Repr, Inhabited

/-- The SDIO interfaces (R567). -/
inductive SdIf where
  | sda
  | sdb
deriving DecidableEq, Repr, Inhabited

/-- The CAN controllers (R574). -/
inductive CanIf where
  | cn0
  | cn1
deriving DecidableEq, Repr, Inhabited

/-- The bus masters that the rules tell apart (R340, R369, R386, R398, R404, R506). -/
inductive Master where
  | engine (n : EngId)
  | host (core : Fin 4)
  | aon
  | io (p : Port)
  | fuse
  | verifier
  | loader
  | recorder
  | maintenance
  | resultWriter
deriving DecidableEq, Repr, Inhabited

/-- A write complete at a port (R554): index, subindex, data. -/
structure ObjWrite where
  index : Nat
  sub : Nat
  data : Bytes
deriving DecidableEq, Repr, Inhabited

/-- How a CSI-2 packet header arrived (R107). -/
inductive HdrEcc where
  | good
  | corrected
  | bad
deriving DecidableEq, Repr, Inhabited

/-- The lanes of a receiver as a packet leaves them (R129): the data lanes in the stop state, the clock lane in high-speed mode. -/
structure LaneState where
  stop : BitVec 4
  clkHs : Bool
deriving DecidableEq, Repr, Inhabited

/-- A CSI-2 long packet: data type, header, payload, whether the payload CRC is right, whether the input buffer of the
receiver overflowed, the lanes after it (R107, R129). -/
structure CsiPacket where
  dt : Nat
  hdr : HdrEcc
  payload : Bytes
  crcOk : Bool
  overrun : Bool
  lanes : LaneState
deriving DecidableEq, Repr, Inhabited

/-- A Frame Start short packet: the camera's own frame number, how the header arrived, the lanes (R106, R107, R129). -/
structure CsiStart where
  frame : Nat
  hdr : HdrEcc
  lanes : LaneState
deriving DecidableEq, Repr, Inhabited

/-- A Frame End short packet: the stream, how the header arrived, the lanes (R106, R107, R129). -/
structure CsiEnd where
  st : StreamId
  hdr : HdrEcc
  lanes : LaneState
deriving DecidableEq, Repr, Inhabited

/-- What can go wrong inside one tile (R169, R210, R218, R234, R261): entries that are unreadable from both copies
(true: node entry, local number), the places, by bits [31:9] of their descriptors (R115), whose tree entry is a world fault
(R61), the offset in the search region at which it is unreadable (R218, R516), an unreadable solver cache, CHECK records that a defective engine
gives wrong (CIDX, CLEAR, CFLAGS; CIDX, EDGE) and costs that it gives wrong (CIDX, cost). A sound part has none. `skipped` and
`early` are the liberties that a RELAXED frame leaves to the engine (R214): the candidates (CIDX) that it skips, and those whose
queries it stops at the first answer below CLEAR_MIN. -/
structure TileDefect where
  entries : List (Bool × Nat)
  world : List Nat
  search : Option Nat
  cache : Bool
  checks : List (Nat × Int × Nat)
  edges : List (Nat × Nat)
  costs : List (Nat × Word)
  skipped : List Nat
  early : List Nat
deriving DecidableEq, Repr, Inhabited

/-- A request at one Arbiter resource at a decision (R400): requester, bytes it moves, device latency doubled (R660),
the SCLK at which it was first presented (R401), whether it writes a mirrored region (R403), the context of the tile that makes
it and the generation tag under which its domain issued it (R508). -/
structure ArbReq where
  req : ReqId
  len : Nat
  longLat : Bool
  since : Nat
  mirror : Bool
  ctx : Option CtxId
  gen : Nat
deriving DecidableEq, Repr, Inhabited

/-- A Moaken flit as it arrives (R594). -/
structure Flit where
  dest : Nat
  src : Nat
  type : Nat
  ctx : Nat
  len : Nat
  gen : Nat
  seq : Nat
  ack : Nat
  payload : Bytes
  crc : Word
deriving DecidableEq, Repr, Inhabited

/-- What an access to a line of the stacked store meets (R20, R526-R529): an error in the copy of die 0 or die 1. -/
inductive LineState where
  | clean
  | corrected
  | bad
deriving DecidableEq, Repr, Inhabited

/-- One line found with an error by a scrub pass: die, bank, row, line and state. -/
structure ScrubHit where
  die : Nat
  bank : Nat
  row : Nat
  line : Nat
  state : LineState
deriving DecidableEq, Repr, Inhabited

/-- One module's answer to a poll (R647). -/
structure PollAnswer where
  bus : Nat
  addr : Nat
  ack : Bool
  ident : Bytes       -- bytes 8-23 and the last 16 B of the record, as read
deriving DecidableEq, Repr, Inhabited

/-- A shared-memory request as the region table judges it (R482, R484): requester, the context and station of the tile that it
held, whether the I/O cluster makes it, the generation tag under which its domain issued it (R508), address, data or length, and
what it meets in the copies of its line. -/
structure StoreReq where
  req : ReqId
  ctx : Option CtxId
  station : Nat
  io : Bool
  gen : Nat
  addr : Nat
  write : Option Bytes
  len : Nat
  die0 : LineState
  die1 : LineState
deriving DecidableEq, Repr, Inhabited

/-- What the part finds about itself at power-up (R475, R476, R628, R659): checkers that fail their start test, engines
whose golden frame fails (0 another digest, 1 no digest in time, 2 a stop), lanes that fail their lane test, and populated
PSRAM channels with their density in MiB (0: no answer). -/
structure BootFinding where
  checkers : List (Fin 16)
  engines : List (EngId × Fin 3)
  lanes : List (EngId × Fin 65)
  psramMiB : List Nat
  flashSize : Nat
deriving DecidableEq, Repr, Inhabited

/-- The causes that AON's regulator transactions report (R674, R676). -/
structure RegulatorPoll where
  ok : Bool
  statusWord : Nat
  vout : Nat
  iout : Nat
  tjLogic : Int
  tjStore0 : Int
  tjStore1 : Int
deriving DecidableEq, Repr, Inhabited

/-- Why a clock monitor trips (R455, R697). -/
inductive ClockFaultKind where
  | xin
  | aclk
  | sclk
deriving DecidableEq, Repr, Inhabited

/-- Why the engines wake from DOZE (R669). -/
inductive WakeCause where
  | wakeLead
  | tileReady
  | access
deriving DecidableEq, Repr, Inhabited

/-- What a master does at an address of the memory map: it writes a word; or it stores, or loads, up to 256 B at a scratchpad, the
stacked store or PSRAM (R345). `bad` is the 64-bit word of the scratchpad whose read by this access, also that of a
read-modify-write, meets an uncorrectable error (R346, R347). A load of four bytes reads a register too. `tagged`: an access with the
context and the generation tag under which its domain issued it (R508); without, it carries the tag in force. `crcError`: a command or
data block to the card of a port's host with a CRC error (R591). -/
inductive Access where
  | word (v : Word)
  | store (bytes : Bytes) (bad : Option Nat)
  | load (len : Nat) (bad : Option Nat)
  | tagged (ctx : Option CtxId) (gen : Nat) (acc : Access)
  | crcError
deriving DecidableEq, Repr, Inhabited

/-- What a snapshot's first wave meets: the context, and the node entries, by local number, unreadable from both copies (R169). -/
structure SnapshotOp where
  ctx : CtxId
  bad : List Nat
deriving DecidableEq, Repr, Inhabited

/-- The bitmap blocks that a verify attempt read with an uncorrectable error (R283): of the verify tick's bitmap, and, where that is
another one, of the snapshot's. -/
structure VerifyErrors where
  verifyTick : List Nat
  snapshot : List Nat
deriving DecidableEq, Repr, Inhabited

/-- The end of a domain's reset: the domain, and for the PSRAM subsystem what its devices answer when they are initialised again
(R505, R659). -/
structure ResetEnd where
  domain : DomainId
  psramMiB : List Nat
deriving DecidableEq, Repr, Inhabited

/-- A mismatch of a store controller and its shadow (R513): the controller, and the engines that have an access to the store in
flight (R524). -/
structure StoreMismatch where
  ctrl : Fin 4
  inFlight : List EngId
deriving DecidableEq, Repr, Inhabited

/-- A hang that a domain's watchdog sees (R512), the ACLK count since which what the state does not hold has stood still, and the
engines that have an access to the store in flight (R524). -/
structure Hang where
  domain : DomainId
  since : Nat
  inFlight : List EngId
deriving DecidableEq, Repr, Inhabited

/-- Where a joint sample comes from (R570, R576): JOINT_IN of an interface, or the payload of RPDO k of a controller. -/
inductive JointVia where
  | jointIn (i : SdIf)
  | rpdo (n : CanIf) (k : Fin 16)
deriving DecidableEq, Repr, Inhabited

structure JointArrival where
  via : JointVia
  data : Bytes
deriving DecidableEq, Repr, Inhabited

/-- How an SDO transfer goes (R574): expedited or segmented, or as a block transfer. -/
inductive SdoVia where
  | segmented (n : CanIf)
  | block (n : CanIf)
deriving DecidableEq, Repr, Inhabited

/-- The fields of an XL block frame by which the part takes it for itself (R577), and whether its OP is none of R578 (R580). -/
structure XlFrom where
  ctrl : CanIf
  prio : Nat
  sdt : Nat
  vcid : Nat
  node : Nat
  badOp : Bool
deriving DecidableEq, Repr, Inhabited

/-- Where bus errors have taken a controller (R592): into bus-off (`none`), or its transmit and receive error counters. -/
structure CanErrors where
  ctrl : CanIf
  counts : Option (Byte × Byte)
deriving DecidableEq, Repr, Inhabited

/-- The sender of a flit: its address, and the member tag that the flit carries (R594, R620). -/
structure MemberRef where
  addr : BitVec 16
  tag : BitVec 4
deriving DecidableEq, Repr, Inhabited

/-- The chip that sends a HELLO, and whether it is its first since a power-on (R605). -/
structure Greeting where
  addr : BitVec 16
  powered : Bool
deriving DecidableEq, Repr, Inhabited

/-- An ADMIT: the member tag, and whether contexts run at the top root, so that a seed follows (R606). -/
structure Admission where
  tag : BitVec 4
  waits : Bool
deriving DecidableEq, Repr, Inhabited

/-- A broadcast entry as a chip receives it, and whether the top root has lost this chip since it admitted it (R621). -/
structure EntryIn where
  entry : Bytes
  lost : Bool
deriving DecidableEq, Repr, Inhabited

/-- A dealt tile: the top root's handle and the input records (R614). -/
structure DealtTile where
  handle : Nat
  inputs : Bytes
deriving DecidableEq, Repr, Inhabited

/-- CMD0: the interface, and whether its CS line is low (R567, R591). -/
structure SdReset where
  port : SdIf
  csLow : Bool
deriving DecidableEq, Repr, Inhabited

/-- The commands, one for each row of spec/opcode_table.json. `wrong` in `imageComplete` lists the pixels of the test line for which a
defective pipeline gives another word, or another number of ray crossings, than it should (R113, R115). In `frameStart` and `aonFrameTimer`, `ecc` lists the
bricks with an uncorrectable occupancy or static-mask error (R77), each by bits [31:9] of the descriptor of R115. -/
inductive Instr where
  | registerWrite (m : Master) (addr : Nat) (a : Access)
  | frameStart (c : CtxId) (ecc : List Nat)
  | syncInEdge
  | syncEdgeTimeout (c : CtxId)
  | aonFrameTimer (ecc : List Nat)
  | checkerTestComplete (fail : Bool)
  | gridTick
  | snapshot (p : SnapshotOp)
  | fusCtrl (m : Master) (v : Word)
  | csiFrameStart (st : StreamId) (p : CsiStart)
  | csiLongPacket (st : StreamId) (p : CsiPacket)
  | csiFrameEnd (p : CsiEnd)
  | imageComplete (st : StreamId) (wrong : List (Fin 64 × Word × Nat))
  | streamTimeout (st : StreamId)
  | extUpdateMessage (i : SdIf) (data : Bytes)
  | fusCsiCtrl (m : Master) (n : RxId) (v : Word)
  | fusStrCtrl (m : Master) (st : StreamId) (v : Word)
  | loaderOperationStart
  | loadComplete
  | deltaIn (p : Port) (c : CtxId) (data : Bytes)
  | deltaValidationComplete
  | deltaCopy (c : CtxId)
  | audit (p : Port) (c : CtxId) (v : Byte)
  | auditComplete
  | takeRead (m : Master) (n : EngId)
  | tileDispatch
  | tileCommit (m : Master) (n : EngId) (handle : Nat) (d : TileDefect)
  | verifyAttempt (c : CtxId)
  | verifyComplete (c : CtxId) (bad : VerifyErrors)
  | release (c : CtxId)
  | deadlineEdge (c : CtxId)
  | syncOutPulseEnd
  | vfyCtrl (m : Master) (v : Word)
  | engineStop (n : EngId) (event : Fin 6) (src : Fin 4) (word : Nat)
  | scratchpadOwnerWrite (m : Master) (n : EngId) (b : BankId) (v : Word)
  | ownershipHandover (n : EngId) (b : BankId)
  | clippingPassRegion (n : EngId) (bad : List (Bool × Fin 32 × BitVec 72))
  | eccWriteback (n : EngId) (src : Fin 4) (word : Nat)
  | creditWindow
  | create (m : CoreId) (c : CoreId) (t : ThreadId)
  | ready (m : CoreId) (c : CoreId) (t : ThreadId)
  | block (m : CoreId) (c : CoreId) (t : ThreadId)
  | delay (m : CoreId) (c : CoreId) (t : ThreadId)
  | wait (m : CoreId) (c : CoreId) (t : ThreadId)
  | setprio (m : CoreId) (c : CoreId) (t : ThreadId)
  | exit (m : CoreId) (c : CoreId) (t : ThreadId)
  | signal (m : CoreId) (c : CoreId)
  | coreTake (m : CoreId) (c : CoreId) (irq : Bool)
  | tdsTick
  | push (f : FlowId) (v : Word)
  | flowTake (f : FlowId)
  | done (f : FlowId) (v : Word)
  | pop (f : FlowId)
  | arbCreditRefill
  | arbDecision (r : ResId) (reqs : List ArbReq)
  | backOffEnd (r : ResId) (q : ReqId)
  | clrStats (m : Master)
  | seed
  | seedComplete
  | mark (p : Port) (v : Word)
  | replayStart (p : Port)
  | replayPause (p : Port)
  | replaySave (p : Port)
  | replayResume (p : Port)
  | replayStop (p : Port)
  | replayEntry
  | throttleStepChange
  | testPulse
  | pinReadback (levelA : Bool) (levelB : Bool)
  | safeReq (p : Port) (c : CtxId)
  | partReq (p : Port)
  | safReqCtx (m : Master) (bits : BitVec 16)
  | safReqPart (m : Master)
  | safeClear (p : Port) (c : CtxId)
  | partClear (p : Port)
  | safClearCtx (m : Master) (bits : BitVec 16)
  | safClearPart (m : Master)
  | aonLockstepMismatch
  | safWdt (m : Master) (key : BitVec 16)
  | watchdog
  | clockFault (k : ClockFaultKind)
  | voltageFault (out : Bool)
  | temperatureFault (tj : Int)
  | rotationOverdue
  | testAgeExpiry
  | goldenDigest (n : EngId) (records : Bytes)
  | goldenTimeout (n : EngId)
  | goldenSlotEnd
  | laneTestComplete (n : EngId) (failing : List (Fin 65))
  | storeAccess (q : StoreReq)
  | sysRstReq (m : Master) (bits : BitVec 30)
  | domainReset (p : Port) (d : Byte)
  | fenceComplete (d : DomainId)
  | domainResetEnd (e : ResetEnd)
  | domainWatchdog (h : Hang)
  | storeLockstep (m : StoreMismatch)
  | scrubRead (hits : List ScrubHit)
  | rowSpareCopyComplete
  | ctxCtrlStart (p : Port) (c : CtxId)
  | ctxCtrlStop (p : Port) (c : CtxId)
  | drainComplete (c : CtxId)
  | teardown (c : CtxId)
  | dumpReq (p : Port)
  | dumpStart
  | sidePathTimeout
  | dumpComplete (psramFailed : Bool)
  | wearRecordWrite (t0 t1 t2 t3 : Int)
  | objectWrite (a : Option ObjWrite) (b : Option ObjWrite)
  | semGrant
  | objectWriteComplete
  | objectRead (p : Port) (index : Nat) (sub : Nat)
  | customerObjectAccess (p : Port) (index : Nat) (sub : Nat) (write : Option Bytes)
    (reply : Option (Word × Bytes))
  | customerServerTimeout (p : Port)
  | odCmdRead (i : SdIf)
  | odCmdWrite (i : SdIf)
  | odCmdCancel (i : SdIf)
  | cmd0 (r : SdReset)
  | cmd3 (i : SdIf)
  | cmd5 (i : SdIf) (v18 : Bool)
  | cmd7 (i : SdIf) (rca : BitVec 16)
  | cmd11 (i : SdIf)
  | cmd15 (i : SdIf) (rca : BitVec 16)
  | cmd19 (i : SdIf)
  | resultOut (i : SdIf)
  | memWrite (i : SdIf) (data : Bytes)
  | memRead (i : SdIf) (len : Nat)
  | jointSample (j : JointArrival)
  | sdoDownload (n : SdoVia) (index : Nat) (sub : Nat) (data : Bytes)
  | sdoUpload (n : SdoVia) (index : Nat) (sub : Nat)
  | usdoDownload (n : CanIf) (index : Nat) (sub : Nat) (data : Bytes)
  | usdoUpload (n : CanIf) (index : Nat) (sub : Nat)
  | xlRead (h : XlFrom) (session : Byte) (index : Nat) (sub : Nat)
  | xlWrite (h : XlFrom) (session : Byte) (index : Nat) (sub : Nat) (total : Nat) (last : Bool) (code : Word) (data : Bytes)
  | xlData (h : XlFrom) (session : Byte) (seg : Nat) (last : Bool) (code : Word) (data : Bytes)
  | xlAck (h : XlFrom) (session : Byte) (seg : Nat)
  | xlAbort (h : XlFrom) (session : Byte) (code : Word)
  | xlSessionTimeout (n : CanIf)
  | nmtStart (n : CanIf)
  | nmtStop (n : CanIf)
  | nmtPreOperational (n : CanIf)
  | nmtResetCommunication (n : CanIf)
  | nmtResetNode (n : CanIf)
  | heartbeatProduce (n : CanIf)
  | busOffRecovery (n : CanIf)
  | heartbeatReceived (n : CanIf) (node : Nat)
  | bootUpMessage (n : CanIf) (node : Nat)
  | heartbeatTimeout (n : CanIf) (node : Nat)
  | mbxPost (m : Master) (n : MbxId) (len : BitVec 7)
  | mbxAck (m : Master) (n : MbxId)
  | flitReceive (l : LinkId) (f : Flit) (laneErrs : List (Fin 5))
  | nakFlit (l : LinkId) (expected : Byte)
  | retryTimeout (l : LinkId)
  | laneErrorWindow (l : LinkId)
  | sparingEnd (l : LinkId)
  | trainingComplete (l : LinkId) (failed : List (Fin 5))
  | helloFlit (l : LinkId) (h : Greeting) (cl : Nat) (digest : BitVec 128) (service : Nat)
  | admitFlit (a : Admission) (seed : Option Bytes)
  | imageFlit (handle : Nat) (kind : Nat) (data : Bytes)
  | entryFlit (e : EntryIn)
  | reportFlit (m : MemberRef) (tick : Nat) (epoch : Word) (digest : BitVec 128)
  | takeFlit (m : MemberRef) (engine : EngId)
  | tileFlit (d : DealtTile) (ctx : CtxId) (station : Nat) (seq : Nat) (engine : EngId)
  | resultFlit (addr : BitVec 16) (tag : BitVec 4) (handle : Nat) (last : Bool) (d : TileDefect)
  | heartbeatFlit (m : MemberRef)
  | faultFlit (m : MemberRef) (record : Bytes)
  | heartbeatSend
  | memberTimeout (addr : BitVec 16)
  | exclude (p : Port) (addr : BitVec 16)
  | admitOrder (p : Port) (addr : BitVec 16)
  | powerOnReset
  | porstNRise
  | pwrgdCoreRise (f : BootFinding)
  | pwrgdCoreTimeout
  | pwrgdCoreFall
  | programCfg (i : SdIf)
  | programFw (i : SdIf)
  | programImage (i : SdIf)
  | enrol (i : SdIf)
  | programCert (i : SdIf)
  | restart (i : SdIf)
  | attestNonce (p : Port) (nonce : Bytes)
  | attestComplete
  | imgRegister (p : Port) (data : Bytes)
  | imageCheckComplete (i : Fin 64)
  | imgUnregister (p : Port) (handle : Word)
  | tagPoll (answers : List PollAnswer)
  | tagReadComplete (slot : Fin 32) (ok : Bool) (record : Bytes)
  | tagVerified (slot : Fin 32) (nodeVendor : Nat) (nodeSerial : Nat)
  | napEntry (n : EngId)
  | dozeEntry
  | dozeWake (w : WakeCause)
  | hostDozeEntry
  | hostDozeWake
  | offReq (p : Port)
  | rtcAlarm (f : BootFinding)
  | telemetryPoll (r : RegulatorPoll)
  | avsAdjust (up : Bool) (ok : Bool)
  | speedMonitorAlert
  | vddAonReturn
  | busOff (e : CanErrors)
deriving DecidableEq, Repr, Inhabited

end Sys2Proof
end

