-- ==== Sys2Proof/Machine/State.lean ====
section
/-! DEFINITION. The state of the BND1600: everything the spec gives the part (INVENTORY.md lists it with its rules), as
plain data; the reasons a step can stop; the state after reset. -/

namespace Sys2Proof.Machine

/-! ## Clocks -/

/-- The clocks (R655, R657, R680). `now` counts ACLK since power-on (R106, R311); AOCLK, SCLK and HCLK counts are
functions of it. `rtcPhase` counts 1/390,625 of an RTC cycle in steps of 32, one step an ACLK. `hours`: the hours of power-on time that
have entered the wear record (R543). -/
structure Clk where
  now : Nat
  rtc : Nat
  rtcPhase : Nat
  xinOk : Bool
  apllLock : Bool
  spllLock : Bool
  hpllLock : Bool
  lpllLock : Bool
  rtcOk : Bool
  hours : Nat
deriving DecidableEq, Repr, Inhabited

/-! ## Engines -/

/-- PE_STAT.STATE (R364). -/
inductive PeState where
  | off
  | reset
  | loading
  | idle
  | takeWait
  | run
  | nap
  | stopped
  | doze
deriving DecidableEq, Repr, Inhabited

/-- One scratchpad bank's ownership (R340, R341, R368): owner 0 ENGINE, 1 HOST, 2 AON, 3 NONE; the handovers that wait for
their drain, oldest first. -/
structure Bank where
  owner : BitVec 2
  pending : List (BitVec 2)
deriving DecidableEq, Repr, Inhabited

/-- The registers inside an engine that no port shows (R326, R328): scalar, vector and mask registers, two weight buffers of
64 × 64 entries of up to 16 bits, the Select unit's rank keys and overflow key (R231, R338), the clipping pass's save buffer (R348)
and the store lines that the SQU's cache holds (R337). -/
structure EngineCore where
  sregs : List Word
  vregs : List Nat
  mregs : List Nat
  weights : List (List (BitVec 16))
  select : List Nat
  selOver : Nat
  saveBuf : Bytes
  lines : List Nat
deriving DecidableEq, Repr, Inhabited

/-- A transfer queued in an engine's DMA (R326): between the scratchpad, or for a context load the instruction RAM (R351), and the
stacked store or PSRAM. `out`: away from the engine. `near` is the offset at the engine, `far` the one in the store or in PSRAM. -/
structure Dma where
  imem : Bool
  store : Bool
  out : Bool
  near : Nat
  far : Nat
  len : Nat
deriving DecidableEq, Repr, Inhabited

/-- One planning engine: its registers (R364-R368), scratchpad (R339), held tile (R370) and history (R503, R522). `spad`
lists every byte written since the bank's contents last became undefined, for bank b the `spadGen[b]`-th time (R353, R505). `imem`
and `resident` hold the code in the instruction RAM and the resident data in banks 0-3: context (16 the golden program), the ranges
allocated to it and the bytes loaded (R343, R351, R352); `foundAt` is the ACLK count at which the engine was last found faulty (R514); `goldLane`
is the lane that the spare lane stands in for in a golden frame (R466). -/
structure Engine where
  st : PeState
  queued : Nat
  tileSeq : Nat
  tileStation : Nat
  tileCtx : Nat
  tileFrame : Nat
  fpstat : BitVec 5
  eccCe : Nat
  eccUe : Nat
  eccSrc : Nat
  eccFlag : Bool
  eccAddr : Nat
  spareUsed : Bool
  lane : Nat
  imemUsed : Nat
  ctxLoaded : BitVec 16
  clipEn : Bool
  clipRegion : Nat
  clipFail : Bool
  clipPasses : Nat
  clipFailRegion : Nat
  clipStep : Nat
  perfTiles : Nat
  perfBusy : Nat
  banks : Vector Bank 16
  spad : List Host.Cell
  spadGen : Vector Nat 16
  imem : List (Nat × List (Nat × Nat) × Bytes)
  resident : List (Nat × List (Nat × Nat) × Bytes)
  foundAt : Option Nat
  dma : List Dma
  goldLane : Option Nat
  core : EngineCore
  holding : Option Nat
  waiting : Bool
  idleFrom : Nat
  gfFrom : Nat
  named : List Nat
  disNamed : List Nat
  faulty : Bool
deriving DecidableEq, Repr, Inhabited

/-- Where the golden frame of the current step stands (R30, R373, R463-R465). -/
inductive GoldPhase where
  | none
  | due
  | running (start : Nat)
  | ended
deriving DecidableEq, Repr, Inhabited

/-- The roles of the engines (R25-R40), the steering of the coppice role (R299, R519) and the golden frame. `place` is
the engine from which R26 continues; `standFor` the faulted engine whose place the coppice engine takes (R30);
`noStand` that no engine takes it (R32); `bringIn` the reserve engine being brought in and how far its start test is: 0 lane test,
1 golden frame, 2 passed (R33, R476);
`bringAt` the ACLK count at which that golden frame started (R464); `heir` a retired engine and the one that stays working in its
place, for which the tiles that the first had lost are kept until the step (R30, R33);
`assigned` that AON has restored the roles of this power-on (R36, R364). -/
structure Roles where
  working : BitVec 18
  coppice : Option EngId
  reserve : Option EngId
  retired : BitVec 18
  suspended : Bool
  bringIn : Option (EngId × Nat)
  bringAt : Nat
  heir : Option (EngId × EngId)
  steps : Nat
  place : Option EngId
  standFor : Option EngId
  noStand : Bool
  steer : List EngId
  laneTest : List EngId
  gold : GoldPhase
  testEng : Option EngId
  lastStepAt : Option Nat
  assigned : Bool
deriving DecidableEq, Repr, Inhabited

/-! ## Task dispatcher -/

/-- The state of a tile (R44, R45, R370-R374). -/
inductive TileStatus where
  | ready
  | held (e : EngId)
  | dealt (chip : Nat) (e : EngId)
  | waitsCopy (e : EngId) (chip : Nat)
  | committed (e : EngId) (chip : Nat)
  | fenced (e : EngId)
deriving DecidableEq, Repr, Inhabited

/-- A work tile (R44). `seq` is the tile sequence number (R188) or the attempt number of a SMOOTH tile (R384); `level`
and `node` place a SELECT merge step (R233); `copyB` marks copy B of a cross-checked tile (R209). `ctx` is 16 for tiles
of no context. `since` is the ACLK count at which it was taken (R512); `notOn` the engine whose fault caused it to
be dispatched again (R30, R374). -/
structure Tile where
  handle : Nat
  ctx : Nat
  frame : Nat
  station : Nat
  seq : Nat
  level : Nat
  node : Nat
  copyB : Bool
  xchk : Bool
  redisp : Bool
  status : TileStatus
  since : Nat
  notOn : Option EngId
  defect : TileDefect
  discard : Bool
deriving DecidableEq, Repr, Inhabited

/-- One entry of a commit log (R384), and the chip of ENG_B, which the entry's layout has no room for. -/
structure LogEntry where
  station : Nat
  engA : Nat
  engB : Nat
  lflags : Nat
  chip : Nat
  chipB : Nat
deriving DecidableEq, Repr, Inhabited

/-- The two commit logs of a context (R384): each a frame number and entries by tile sequence number. -/
structure CommitLogs where
  even : List (Nat × LogEntry)
  odd : List (Nat × LogEntry)
deriving DecidableEq, Repr, Inhabited

/-- The state of a thread (R385). -/
inductive ThState where
  | dormant
  | ready
  | running
  | blocked
  | delayed
deriving DecidableEq, Repr, Inhabited

/-- One thread (R385, R408). -/
structure Thread where
  st : ThState
  prio : BitVec 5
  aff : BitVec 5
  core : BitVec 3
  event : Option (BitVec 6)
deriving DecidableEq, Repr, Inhabited

/-- One core's command window (R407). -/
structure CoreWin where
  take : Word
  run : Option ThreadId
  arg : BitVec 24
  resp : BitVec 2
  respDone : Bool
  stalled : Bool
deriving DecidableEq, Repr, Inhabited

/-- One time partition (R376, R377, R410). -/
structure Part where
  share : Nat
  credit : Int
  used : Nat
  lastUsed : Nat
  short : Nat
  starved : Bool
deriving DecidableEq, Repr, Inhabited

/-- One slot of an ordered flow (R395-R397). -/
inductive SlotState where
  | pushed
  | taken
  | done (result : BitVec 24)
deriving DecidableEq, Repr, Inhabited

structure FlowSlot where
  slot : Nat
  item : BitVec 24
  st : SlotState
deriving DecidableEq, Repr, Inhabited

/-- One ordered flow: its unpopped slots, oldest first, and the next slot in circular order. -/
structure Flow where
  slots : List FlowSlot
  next : Nat
deriving DecidableEq, Repr, Inhabited

/-- What one ACLK edge has brought to the TDS (R386, R387): its ACLK count, the threads that it made READY, in list order, with their
place in the order of R387, and the cores whose command was carried out ahead of its turn in the queue. -/
structure TdsEdge where
  at_ : Nat
  fresh : List (ThreadId × Fin 258)
  early : List CoreId
deriving DecidableEq, Repr, Inhabited

/-- The Task Dispatcher (R369-R411). `tick` and the wake ticks of `delayQ` count on past 32 bits (R393, R394). -/
structure Tds where
  run : Bool
  tick : Nat
  preempt : BitVec 5
  events : BitVec 64
  threads : Vector Thread 256
  readyQ : List ThreadId
  delayQ : List (Nat × ThreadId)
  cores : Vector CoreWin 5
  parts : Vector Part 8
  flows : Vector Flow 16
  tiles : List Tile
  nextHandle : Nat
  logs : Vector CommitLogs 16
  edge : TdsEdge
deriving DecidableEq, Repr, Inhabited

/-! ## Arbiter -/

/-- One requester at one resource (R399-R401), times in SCLK. -/
structure ArbCell where
  credit : Int
  waitSince : Option Nat
  losses : Nat
  backUntil : Option Nat
deriving DecidableEq, Repr, Inhabited

/-- The Arbiter fabric (R398-R412), times in SCLK. `cells` is keyed by resource * 32 + requester; `chargedTo` is the SCLK
up to which a burst has been charged; `copyDue` the length of the mirror copies that wait at a die 1 bank (R403). -/
structure Arb where
  wStore : Vector Nat 32
  wPsram : Vector Nat 32
  wLink : Vector Nat 32
  wlimit : Vector Nat 32
  maxWait : Vector Nat 32
  forced : Vector Nat 32
  cells : List (Nat × ArbCell)
  busyUntil : Vector Nat 46
  chargedTo : Vector Nat 46
  copyDue : Vector Nat 46
  holder : Vector (Option ReqId) 46
deriving DecidableEq, Repr, Inhabited

/-! ## Mailboxes, SEM, ports -/

/-- One mailbox (R581-R584, R588). -/
structure Mbox where
  sender : BitVec 2
  receiver : BitVec 2
  full : Bool
  len : BitVec 7
  data : Bytes
  skip : Nat
deriving DecidableEq, Repr, Inhabited

structure Mbx where
  box : Vector Mbox 32
  emptied : Word
  emptiedEn : Word
deriving DecidableEq, Repr, Inhabited

/-- The semaphore SEM (R554, R555, R590). `lost` tells that a reset has cut off the answer of the holder's write (R560). -/
structure Sem where
  holder : Option (Port × ObjWrite)
  lost : Bool
  waiting : List (Port × ObjWrite)
  tie : Bool
  ties : Nat
  stopWins : Nat
  lastIndex : Nat
  lastSub : Nat
  lastPort : Nat
deriving DecidableEq, Repr, Inhabited

/-- The answer to an object access (R556, R557, R562): abort code 0 means success. -/
structure Answer where
  index : Nat
  sub : Nat
  abort : Word
  data : Bytes
deriving DecidableEq, Repr, Inhabited

/-- A customer object access that waits for the host server (R552): `posted` tells that mailbox 31 has carried it, `lost` that a reset
of the I/O cluster has lost its answer (R560). -/
structure CustReq where
  index : Nat
  sub : Nat
  write : Option Bytes
  at_ : Nat
  posted : Bool
  lost : Bool
deriving DecidableEq, Repr, Inhabited

/-- A port: its last answer, the customer access that waits, and the writes that wait for SEM or hold it whose XL session has ended, so
that their answers go nowhere (R580). -/
structure PortSt where
  answer : Option Answer
  cust : Option CustReq
  ended : List ObjWrite
deriving DecidableEq, Repr, Inhabited

/-- The card's state on the SD bus (R567). -/
inductive CardState where
  | idle
  | ready
  | standby
  | command
  | inactive
deriving DecidableEq, Repr, Inhabited

/-- An SDIO interface: registers (R591), function 1 (R568), function 2 (R570) and card state (R567). -/
structure Sd where
  en : Bool
  f2En : Bool
  maxMode : Nat
  v18En : Bool
  mode : Nat
  v18 : Bool
  crcErr : Nat
  extBad : Nat
  memDrop : Nat
  outDrop : Nat
  odIndex : Nat
  odSub : Nat
  odLen : Nat
  odStatus : Nat
  odSeq : Byte
  odAbort : Word
  fifo : Bytes
  evt : Word
  memAddr : Word
  outQ : List Bytes
  out : Bytes
  card : CardState
  rca : BitVec 16
  ioEn : Byte
  intEn : Byte
  busCtl : Byte
  blk : Vector Nat 3
deriving DecidableEq, Repr, Inhabited

/-- An EMCY frame (R307, R461). -/
structure Emcy where
  code : Nat
  reg : Nat
  b3 : Nat
  data : Nat
deriving DecidableEq, Repr, Inhabited

/-- An XL block session (R578-R580). -/
structure XlSession where
  session : Byte
  isWrite : Bool
  index : Nat
  sub : Nat
  total : Nat
  nextSeg : Nat
  data : Bytes
  unacked : Nat
  lastAt : Nat
  finished : Bool
deriving DecidableEq, Repr, Inhabited

/-- A frame queued for transmission on CAN; of an XL block frame its SESSION and its data field (R577, R578). -/
inductive CanTx where
  | emcy (e : Emcy)
  | tpdo (k : Nat) (data : Bytes)
  | heartbeat (code : Nat)
  | bootUp
  | sdo (index sub : Nat) (abort : Word) (data : Bytes)
  | xl (session : Byte) (frame : Bytes)
deriving DecidableEq, Repr, Inhabited

/-- A CAN controller (R574-R580, R592). -/
structure Can where
  en : Bool
  gen : Nat
  nodeId : Nat
  emcyEn : Bool
  heartbeatMs : Nat
  timing : CanTiming
  xlIds : XlIds
  nmt : Nat
  bus : Nat
  emcyQ : List Emcy
  tx : List CanTx
  tec : Nat
  rec_ : Nat
  busoff : Nat
  xl : Option XlSession
  lastHb : Nat
  nodes : List (Nat × Nat)
deriving DecidableEq, Repr, Inhabited

/-! ## World model -/

/-- A UNIFORM tree entry (R60): SDF8 code, exponent, never observed. -/
structure Uni where
  value : Int
  exp : Nat
  unknown : Bool
deriving DecidableEq, Repr, Inhabited

/-- A brick (R63-R69): header fields that are not counts of its planes, and its three planes of 512 voxels. -/
structure Brick where
  lastEpoch : Word
  exp : Nat
  coarsened : Bool
  external : Bool
  occ : List Int
  stat : List Bool
  sdf : List Int
deriving DecidableEq, Repr, Inhabited

/-- The entry of an L0 child (R61). -/
inductive L0Entry where
  | uniform (u : Uni)
  | brick (b : Brick)
deriving DecidableEq, Repr, Inhabited

/-- The entry of an L1 child (R61): its refinement node has 8 L0 children. -/
inductive L1Entry where
  | uniform (u : Uni)
  | brick (b : Brick)
  | refined (ch : List L0Entry)
deriving DecidableEq, Repr, Inhabited

/-- A crown entry (R61): its refinement node has 8 L1 children. -/
inductive CrownEntry where
  | uniform (u : Uni)
  | brick (b : Brick)
  | refined (ch : List L1Entry)
deriving DecidableEq, Repr, Inhabited

/-- The crown: the cells that differ from the initial world's entry, by crown cell number (R59, R86). -/
abbrev Crown := List (Nat × CrownEntry)

/-- The geometry and encoding of the world in force (R57, R59, R712). -/
structure Geom where
  boxLoX : Int
  boxLoY : Int
  boxLoZ : Int
  sizeX : Nat
  sizeY : Nat
  sizeZ : Nat
  l1Lo : Nat
  l1Size : Nat
  l0Lo : Nat
  l0Size : Nat
  expLvl : Nat
  horizon : Nat
  lOcc : Int
  lPrune : Int
  unknownAs : Nat
  dynLo : Nat
  dynSize : Nat
deriving DecidableEq, Repr, Inhabited

/-- A forecast set (R91-R93): base tick, its nominal time, and the forecast-occupied cells of the four slices. -/
structure Forecast where
  base : Nat
  baseNT : Nat
  cells : List (List Nat)
deriving DecidableEq, Repr, Inhabited

/-- A dynamic grid (R90): its tick and m of each cell whose m is not 0, by cell number. -/
structure Grid where
  tick : Nat
  cells : List (Nat × Nat)
deriving DecidableEq, Repr, Inhabited

/-- A forecast launch under way (R91): its grid tick, the nominal time of that tick, the four grids it reads, oldest
first, the tile that computes it and whether that tile has committed. -/
structure Launch where
  tick : Nat
  nt : Nat
  grids : List (List (Nat × Nat))
  handle : Nat
  done : Bool
deriving DecidableEq, Repr, Inhabited

/-- A publication (R84-R88). `freeNT` is set when the next publication supersedes it (R73, R283); `wait` names the
launch tick of a forecast result that it still waits for (R84, R87); `at_` is the ACLK count at its tick; `hurt` tells that a
brick was reset in it (R77, R415). -/
structure Pub where
  tick : Nat
  nt : Nat
  epoch : Word
  geom : Geom
  crown : Crown
  fc : Option Forecast
  freeNT : Option Nat
  wait : Option Nat
  at_ : Nat
  hurt : Bool
deriving DecidableEq, Repr, Inhabited

/-- One entry of an external update message (R78). -/
structure UpdEntry where
  x : Int
  y : Int
  z : Int
  op : Nat
  value : Int
deriving DecidableEq, Repr, Inhabited

/-- An input of the world that has arrived (R83): its arrival tick and its content. An image's update set is keyed by
the descriptor of R115; true is a hit (R110). -/
inductive Input where
  | ext (tick source seq : Nat) (entries : List UpdEntry)
  | image (tick : Nat) (st : StreamId) (fcnt : Nat) (set : List (Nat × Bool))
  | loss (tick : Nat) (st : StreamId) (failed : Bool)
deriving DecidableEq, Repr, Inhabited

/-- The numbers that the pools have given (R60, R73): brick slots and refinement nodes by the place that they stand for
(bits [31:9] of its descriptor, R115), crown pages by the number of the 256 cells that they hold. -/
structure Pools where
  bricks : List (Nat × Nat)
  nodes : List (Nat × Nat)
  pages : List (Nat × Nat)
deriving DecidableEq, Repr, Inhabited

/-- The versions that one publication superseded (R73): the nominal time at which they are freed, their brick slots, nodes and
crown pages. -/
structure OldVersions where
  freeNT : Nat
  bricks : List Nat
  nodes : List Nat
  pages : List Nat
deriving DecidableEq, Repr, Inhabited

/-- The world. `pools` numbers the present version of the tree, `heldSlots` lists the superseded ones (R73); `fcStale` and
`fcImage` are FC_STALE and FC_IMAGE in force, which FUS_CTRL.RUN takes when it rises (R712). -/
structure World where
  started : Bool
  tick : Nat
  nt : Nat
  period : Nat
  epoch : Word
  geom : Geom
  crown : Crown
  fc : Option Forecast
  pubs : List Pub
  pools : Pools
  heldSlots : List OldVersions
  fcStale : Nat
  fcImage : Nat
  inputs : List Input
  grids : List Grid
  launches : List Launch
  lastGrid : Option Nat
  coarsenCount : Nat
  allocFail : Nat
  fcStaleCount : Nat
  updReject : Nat
deriving DecidableEq, Repr, Inhabited

/-! ## Depth ingress -/

/-- An image between its Frame Start and its completion (R106, R107). `embedded` lists its embedded-data lines: before its first depth
line, payload CRC right, payload (R117). -/
structure Img where
  stamp : Nat
  fcnt : Nat
  depth : List (List Nat)
  conf : List (List Nat)
  embedded : List (Bool × Bool × Bytes)
  corrupt : Bool
  formatBad : Bool
  overrun : Bool
  closed : Bool
deriving DecidableEq, Repr, Inhabited

/-- A stream's STATE (R118). -/
inductive StrState where
  | off
  | wait
  | run
  | lost
  | failed
deriving DecidableEq, Repr, Inhabited

/-- A stream (R100-R103, R116-R119, R131). `timerFrom` is the ACLK count at which its timer started and, while
FUS_CTRL.RUN = 0, the ACLK that it had run (R713); `refImg` the reference image's counter and value (R117). -/
structure Stream where
  rec_ : Option CamRec
  en : Bool
  st : StrState
  lastCode : Nat
  gaps : Nat
  lastCam : Option Nat
  fcnt : Word
  acc : Word
  img : Option Img
  tlFails : Nat
  timerFrom : Nat
  refImg : Option (Nat × Nat)
deriving DecidableEq, Repr, Inhabited

/-- A CSI-2 receiver (R128, R129). -/
structure Rx where
  en : Bool
  lanes : BitVec 2
  stopState : BitVec 4
  clkHs : Bool
  ecc1 : Nat
  bad : Nat
  dtIgn : Nat
deriving DecidableEq, Repr, Inhabited

/-- The Fuse unit. `tlSig` and `tlRays` hold the signatures and the ray crossings of the last test line, by pipeline (R113, R115). -/
structure Fus where
  run : Bool
  irq : BitVec 6
  irqEn : BitVec 6
  pipeFault : BitVec 4
  pipeFail : BitVec 4
  tlRuns : Nat
  tlSig : List Nat
  tlRays : List Nat
  rx : Vector Rx 4
  streams : Vector Stream 16
deriving DecidableEq, Repr, Inhabited

/-! ## Roadmap -/

/-- One partition of a context (R134, R154, R165): state 0 EMPTY, 1 LOADING, 2 READY. -/
structure RmPart where
  handle : Nat
  nCount : Nat
  eCount : Nat
  chain : Bytes
  st : Nat
deriving DecidableEq, Repr, Inhabited

/-- A loader operation (R160). -/
inductive LoadOp where
  | load (c : CtxId) (part : Nat) (handle : Nat) (selected : Bool)
  | delta (c : CtxId) (msg : Bytes)
  | audit (c : CtxId)
deriving DecidableEq, Repr, Inhabited

structure LoadJob where
  op : LoadOp
  begun : Bool
deriving DecidableEq, Repr, Inhabited

/-- The roadmap side of a context (R134-R171). `ready` holds a load that READY waits for at the next frame start (R156);
`nextDelta` a validated delta and the frame in which its validation completed (R164); `failed` the images that do not
qualify until LIBRARY is written (R151), `forgiven` for each write of LIBRARY that no frame start has taken yet its ACLK count and what
had failed by then (R14); `reselect` that selection is due (R152); `selected` the selected image that is
being loaded; `preload` the writes of PRELOAD that no frame start has taken yet, with their ACLK counts, oldest first (R14, R155);
`deltaHeld` that a copied delta takes effect only at the next frame start (R164). -/
structure Roadmap where
  parts : Vector RmPart 2
  active : Bool
  activePart : Nat
  rmState : Nat
  loadStatus : Nat
  deltaApplied : Nat
  deltaRefused : Nat
  auditing : Bool
  content : Bytes
  tableFaults : Nat
  failed : List Nat
  forgiven : List (Nat × List Nat)
  reselect : Bool
  selected : Nat
  preload : List (Nat × Nat)
  ready : Option Nat
  nextDelta : Option (Bytes × Nat)
  deltaHeld : Bool
  lastLibrary : Bytes
  lastPayload : Nat
deriving DecidableEq, Repr, Inhabited

/-! ## Frames -/

/-- A candidate record (R176). -/
structure Cand where
  cidx : Nat
  edge : Nat
  via : Nat
  tEnter : Nat
  g : Word
  key : Word
  clear : Int
  depth : Nat
  flags : BitVec 16
deriving DecidableEq, Repr, Inhabited

/-- A node's search state in one frame (R182, R184, R189). -/
structure NodeSt where
  closed : Bool
  bestKey : Word
  via : Nat
deriving DecidableEq, Repr, Inhabited

/-- A PQ entry (R179). -/
structure PqEntry where
  node : Nat
  key : Word
  seq : Nat
deriving DecidableEq, Repr, Inhabited

/-- A list of SELECT (R231): entries of (cost, CIDX) in rank order and the overflow key. -/
structure RankList where
  entries : List (Word × Nat)
  overflow : Nat
deriving DecidableEq, Repr, Inhabited

/-- The trajectory block (R277) in its fields: KIND 0 SMOOTHED, 1 FALLBACK, 2 NONE. A point is a time (FALLBACK) and
positions. -/
structure TrajBlock where
  kind : Nat
  axes : Nat
  t0 : Nat
  h : Nat
  cidx : Nat
  kidx : List Nat
  points : List (Nat × List Word)
deriving DecidableEq, Repr, Inhabited

/-- The solver summary (R278). -/
structure SolverSum where
  kind : Nat
  reason : Nat
  iter : Nat
  exp : Nat
  m : Nat
  refactRows : Nat
  h : Nat
  tEnd : Nat
  pivotFix : Nat
  startJump : Nat
  attempts : Nat
  maxRatio : Word
  primRes : Word
deriving DecidableEq, Repr, Inhabited

/-- What an attempt compares its K with (R259): the lower band of an earlier K and its largest diagonal entry, as FP64
patterns. -/
structure FactBase where
  k : List (List (BitVec 64))
  diag : BitVec 64
deriving DecidableEq, Repr, Inhabited

/-- The solver cache (R259): K and its largest diagonal entry, L and D, as FP64 patterns, and which pivots of D are replacements
(R258). -/
structure SolverCache where
  base : FactBase
  l : List (List (BitVec 64))
  d : List (BitVec 64)
  fixed : List Bool
deriving DecidableEq, Repr, Inhabited

/-- A stop trajectory (R290, R314): 0 HOLD, 1 BRAKE; times in µs from the F of `fromFrame`. -/
structure StopTraj where
  kind : Nat
  fromFrame : Nat
  t0 : Int
  x0 : List Word
  t1 : Int
  x1 : List Word
deriving DecidableEq, Repr, Inhabited

/-- The outcome that makes a frame ready (R302): a passed attempt, a NO_PATH status, or in replay the status of a frame
recorded with VALID = 0 (R305). -/
inductive FrameEnd where
  | passed (rank : Nat)
  | noPath (status : Nat)
  | invalid (status : Nat)
deriving DecidableEq, Repr, Inhabited

/-- The frame in progress of a context. `lastM` is the number of samples of the attempt before, 0 for none (log 106); `tvRec` in replay
the recorded verify tick (R436). `scoredBy` gives the engine and chip that committed each score tile (R235); `roadmap` is the
handle of the image that was active at F, or 0 (R304). -/
structure FrameRun where
  frame : Nat
  f : Nat
  inSafe : Bool
  throttled : Bool
  reduced : Bool
  step : Nat
  service : Nat
  snapped : Bool
  tf : Nat
  a : Nat
  stale : Bool
  epoch : Word
  axes : Nat
  waves : Nat
  nodesPerWave : Nat
  candMax : Nat
  tool : List Sphere
  suffix : List Nat
  pq : List PqEntry
  nextSeq : Nat
  nodes : List (Nat × NodeSt)
  cands : List Cand
  wave : Nat
  cut : Bool
  nextTile : Nat
  tileSlots : List (Nat × List Nat)
  narrow : Nat
  evicts : Nat
  scores : List (Nat × Word)
  scoredBy : List (Nat × Nat × EngId)
  roadmap : Nat
  lists : List (Nat × Nat × RankList)
  dropped : Nat
  searchDone : Bool
  selected : Option RankList
  tie : Bool
  attempt : Nat
  block : Option TrajBlock
  sum : SolverSum
  stop : Option StopTraj
  reasons : List Nat
  verifying : Bool
  tv : Nat
  vEpoch : Word
  capsules : Nat
  pivots : Nat
  lastM : Nat
  tvRec : Option Nat
  faulted : Bool
  relaxed : Bool
  ready : Option FrameEnd
deriving DecidableEq, Repr, Inhabited

/-- The counters of a context (R219, R244, R279, R325, R504, R563). -/
structure Counters where
  candLast : Nat
  narrowLast : Nat
  passLast : Nat
  warmLast : Nat
  pqEvict : Nat
  capHit : Nat
  xchkMismatch : Nat
  searchStatus : Nat
  scoredLast : Nat
  selCountLast : Nat
  tieCount : Nat
  nanCount : Nat
  scoreMismatch : Nat
  dupEdge : Nat
  selectStatus : Nat
  fallbackCount : Nat
  pivotFixCount : Nat
  smoothLast : Bytes
  verifyFail : Nat
  worldChanged : Nat
  disagree : Nat
  late : Nat
  noPath : Nat
  syncMiss : Nat
  jointDrop : Nat
  safeCount : Nat
deriving DecidableEq, Repr, Inhabited

/-- A Tag record as the rules use it (R644). -/
structure TagRec where
  kind : Nat
  cls : Nat
  vendor : Nat
  serial : Nat
  spheres : List Sphere
  variants : List (List Sphere)
  raw : Bytes
deriving DecidableEq, Repr, Inhabited

/-- CTX_STATE (R563). -/
inductive CtxState where
  | idle
  | starting
  | running
  | draining
deriving DecidableEq, Repr, Inhabited

/-- SSTATE (R452). -/
inductive SState where
  | stopped
  | arming
  | operate
  | safe
deriving DecidableEq, Repr, Inhabited

/-- A planning context. `demandAt` is the ACLK count of its last demand (R459), `searchRecs` the number of candidate records
that the search region holds since the last snapshot, which rebuilt it (R177), `ntF` the world's NT at the last F. -/
structure Ctx where
  st : CtxState
  frameNo : Nat
  firstF : Option Nat
  lastF : Option Nat
  ntF : Nat
  loading : List EngId
  plan : Option PlanImage
  planDigest : Bytes
  run : Option FrameRun
  warm : List Nat
  freshImage : Bool
  stop : Option StopTraj
  cache : Option SolverCache
  block : Option TrajBlock
  rankList : List (Word × Nat)
  searchRecs : Nat
  result : Bytes
  rm : Roadmap
  tool : Option TagRec
  lastEdge : Option Nat
  edgeCount : Nat
  fDue : Bool
  joints : List (Nat × List Word)
  sstate : SState
  cause : BitVec 3
  satCount : Nat
  clearPend : Bool
  demandAt : Option Nat
  drainFrom : Nat
  cnt : Counters
deriving DecidableEq, Repr, Inhabited

/-! ## Verifier -/

/-- The Verifier (R320-R324): the context whose attempt runs and the ACLK count at which that attempt started (R512). -/
structure Vfy where
  run : Bool
  busy : Option CtxId
  since : Nat
  ctx : Nat
  attempts : Nat
  irq : BitVec 6
  irqEn : BitVec 6
  disEngine : Nat
  disSecond : Bool
  disCtx : Nat
  disChip : Nat
  disStep : Nat
  bmpEpoch : Word
deriving DecidableEq, Repr, Inhabited

/-! ## Safety -/

/-- The SAF block (R447-R461, R475-R478, R497-R503). `conds` holds the conditions of the clearable causes that persist
(voltage, temperature); `causeAt` is the ACLK count at which a part cause was latched last (R459); `lastPulse` is the ACLK count of the last TEST_PULSE, from which the levels of both pulses follow (R450). -/
structure Saf where
  outEn : Bool
  pulseEn : Bool
  causeAt : Option Nat
  pinA : Bool
  pinB : Bool
  driveA : Bool
  driveB : Bool
  faultLow : Bool
  causes : BitVec 12
  conds : BitVec 12
  gfPass : Nat
  gfFail : Nat
  gfFails : Nat
  lastEng : Nat
  lastPass : Bool
  wdtLast : Nat
  wdtNext : Bool
  startFail : BitVec 16
  stDone : Bool
  runFail : BitVec 16
  nextChk : Nat
  chkRunning : Bool
  cycles : Nat
  cycleFrom : Nat
  startAt : Nat
  ageSent : Bool
  lastPulse : Option Nat
deriving DecidableEq, Repr, Inhabited

/-! ## Faults, resets, dumps -/

/-- A fault record (R515). -/
structure FaultRec where
  frame : Nat
  ctx : Nat
  domain : Nat
  fcode : Nat
  engA : Nat
  engB : Nat
  chip : Nat
  gen : Nat
  action : Nat
  stamp : Nat
  detail : Nat
  seq : Nat
deriving DecidableEq, Repr, Inhabited

structure Faults where
  ring : Vector (Option FaultRec) 256
  nextSeq : Nat
  head : Nat
  newRec : Bool
  irqEn : Bool
  gen : Vector Nat 30
  stale : Nat
  staleDomain : Nat
  inReset : BitVec 30
  resetFrom : Vector Nat 30
  fences : List (DomainId × Nat)
  resetDue : List DomainId
deriving DecidableEq, Repr, Inhabited

/-- Why a dump is made (R537): a domain found faulty, with its FCODE; a persistent part cause, by its bit; DUMP_REQ. -/
inductive DumpCause where
  | finding (fcode : Nat)
  | part (bit : Nat)
  | request
deriving DecidableEq, Repr, Inhabited

/-- A dump that waits or runs (R537): a domain, or none for a full dump, and its cause. -/
structure DumpJob where
  domain : Option DomainId
  cause : DumpCause
deriving DecidableEq, Repr, Inhabited

/-- Crash dumps (R536-R541, R548). `unitAt` and `wordAt` tell which word of which unit is read next and `readTo` the ACLK count up to
which reading has been followed (R536; log 60); `unread` lists the units of the present or last dump marked unreadable. -/
structure Dump where
  st : Nat
  cur : Option DumpJob
  queue : List DumpJob
  seq : Nat
  timeouts : Nat
  unreadCount : Nat
  unitAt : Nat
  wordAt : Nat
  readTo : Nat
  unread : List Nat
  summary : Bytes
  ret : Bytes
deriving DecidableEq, Repr, Inhabited

/-- The wear record (R543) and the row-spare map (R525), both keyed by bank, die * 16 + bank, or by row (see `Scrub`). `engLane` and `linkLane` hold 0 for no replaced lane, else its number
plus 1. -/
structure Wear where
  seq : Nat
  powerHours : Nat
  powerCycles : Nat
  lifeUsed : Nat
  engFaults : Vector Nat 18
  engReason : Vector Nat 18
  engLane : Vector Nat 18
  rowsUsed : List (Nat × Nat)
  rowsLost : List (Nat × Nat)
  corrected : List (Nat × Nat)
  linkLane : Vector Nat 6
  linkCrc : Vector Nat 6
  spareMap : List (Nat × Nat)
deriving DecidableEq, Repr, Inhabited

/-- Store maintenance (R526-R529): the line visited next, rows with corrected errors since their last visit, the row
being copied into a spare and those that wait for it, lines seen uncorrectable (in a mirrored region, rewritten from the other
copy), lines copied poisoned, rows marked lost. Rows are keyed by (die * 16 + bank) * 2048 + row, lines by row * 128 + line. -/
structure Scrub where
  next : Nat
  ceRows : List (Nat × Nat)
  copying : Option Nat
  dueRows : List Nat
  badLines : List Nat
  poisoned : List Nat
  lost : List Nat
deriving DecidableEq, Repr, Inhabited

/-! ## Links and hedge -/

/-- STATE of a link port (R598). -/
inductive LinkState where
  | down
  | training
  | up
  | sparing
  | failed
deriving DecidableEq, Repr, Inhabited

/-- A flit in the retry buffer (R595, R596). -/
structure TxFlit where
  seq : Nat
  flit : Flit
  sends : Nat
  lastSent : Nat
deriving DecidableEq, Repr, Inhabited

/-- A link port (R593-R598, R623): `retry` holds the flits that no ACK covers yet, oldest first, `txQ` those that wait while
the port is not UP or its retry buffer is full, `wire` what has been sent; `greeted` tells that the chip's HELLO has gone out since the
port trained (R604). -/
structure LinkPort where
  en : Bool
  spareEn : Bool
  loopback : Bool
  st : LinkState
  since : Nat
  spareUsed : Bool
  sparedLane : Nat
  laneOk : BitVec 5
  peer : Nat
  retries : Nat
  crcErr : Nat
  laneErr : Vector Nat 5
  rxNext : Nat
  txNext : Nat
  retry : List TxFlit
  txQ : List Flit
  fullFrom : Option Nat
  wire : List Flit
  trainFails : Nat
  greeted : Bool
deriving DecidableEq, Repr, Inhabited

/-- A chip as the top root or a unit root sees it (R605, R606, R619, R620): state as MEMBER_STATE (R622). `joined`: the tick
after which it applies every entry (R606); `ignored`: refused for reason 3, its HELLOs are ignored until its next power-on (R605). -/
structure Member where
  addr : Nat
  st : Nat
  tag : Nat
  heard : Nat
  joined : Nat
  ignored : Bool
deriving DecidableEq, Repr, Inhabited

/-- A tile that runs here for the top root: its handle there and here, and its input records (R614). -/
structure Dealt where
  root : Nat
  own : Nat
  inputs : Bytes
deriving DecidableEq, Repr, Inhabited

/-- The hedge layer (R601-R622). `takes` lists the TAKEs that wait at the top root: chip, engine, time of arrival; `heads`
the 16 B headers of the entries broadcast or applied since the last publication, `digests` the reports of the latest
publications by tick: epoch and digest (R611); `applies` tells that a member
applies the broadcast entries (R606, R621); `dealtHere` the tiles that run here for the top root, `dealtWait` those that wait for their
engine and its load (R612). -/
structure Hedge where
  members : List Member
  lostCount : Nat
  refusedLast : Nat
  takes : List (Nat × EngId × Nat)
  irq : BitVec 19
  irqEn : BitVec 19
  admitted : Bool
  myTag : Nat
  applies : Bool
  dealtHere : List Dealt
  dealtWait : List (DealtTile × EngId × Tile)
  lastTx : Nat
  heads : Bytes
  digests : List (Nat × Word × Bytes)
deriving DecidableEq, Repr, Inhabited

/-! ## Boot, images, modules, power -/

/-- Where the supply and the boot stand (R628, R672, R691-R696). -/
inductive PowerPhase where
  | held            -- PORST_N low or VDD_AON below its limit
  | coreOff         -- PORST_N high, CORE_EN low, waiting to try again
  | ramp            -- CORE_EN high, waiting for PWRGD_CORE
  | on
  | partOff
deriving DecidableEq, Repr, Inhabited

/-- Boot and identity (R628-R639). `st` is BOOT_STATE. -/
structure Boot where
  phase : PowerPhase
  rampFrom : Nat
  coreEn : Bool
  pwrgd : Bool
  st : Nat
  reason : Nat
  lifecycle : Nat
  jtagOpen : Bool
  keyProd : Bool
  cfgVersion : Nat
  cfgDigest : Bytes
  fwDigest : Bytes
  fwVersion : Nat
  cl : Nat
  deviceId : Bytes
  cert : Bytes
  ownerKey : Bytes
  hedgeDigest : Bytes
  regions : List Region
  cfg : CfgBodies
  recState : Nat
  recHolder : Option SdIf
  recArg : Word
  recLen : Word
  recErr : Nat
  recData : Bytes
  hostUp : Bool
  attest : Nat
  attestBody : Bytes
  attestReport : Bytes
  flashSize : Nat
deriving DecidableEq, Repr, Inhabited

/-- An entry of IMG_TABLE (R641, R653) with the digest taken at registration (R663). STATE 0 free, 1 VERIFYING, 2 VALID,
3 REFUSED. -/
structure ImgEntry where
  handle : Nat
  kind : Nat
  st : Nat
  reason : Nat
  offset : Nat
  length : Nat
  digest : Bytes
deriving DecidableEq, Repr, Inhabited

/-- A module slot (R646-R649): STATE 0 EMPTY, 1 READING, 2 PRESENT, 3 INVALID. `before` is the record that was PRESENT
before the changes made at the ACLK count `changedAt` (R650). -/
structure Slot where
  st : Nat
  bus : Nat
  addr : Nat
  ctx : Nat
  rec_ : Option TagRec
  raw : Bytes
  nacks : Nat
  lastFrame : Nat
  changedAt : Option Nat
  before : Option TagRec
deriving DecidableEq, Repr, Inhabited

structure Modules where
  slots : Vector Slot 32
  readFail : Nat
  tagInvalid : Nat
  toolChanges : Nat
deriving DecidableEq, Repr, Inhabited

/-- The power block. `step` is the throttle step that AON's thermal controller asks for, `inForce` the one at the last
tick (R423, R677); `pHist` the products READ_VOUT × READ_IOUT of the last ten polls, newest first, in 10 µW; `lastRise` and
`absentFrom` are world ticks. -/
structure Power where
  vset : Nat
  vread : Nat
  iread : Nat
  pcore : Nat
  pHist : List Nat
  tjMax : Int
  tjDie : List Int
  step : Nat
  inForce : Nat
  pCause : Bool
  lastRise : Option Nat
  absentFrom : Option Nat
  hostDoze : Bool
  pmbusFail : Nat
  dozeCount : Nat
  backToNom : Bool
  chPop : Vector Bool 8
  chLc : Vector Nat 8
  chDrive : Vector Nat 8
  chTcem : Vector Nat 8
  chState : Vector Nat 8
  chSize : Vector Nat 8
  chLong : Vector Nat 8
  chSplits : Vector Nat 8
  chId : Vector Word 8
deriving DecidableEq, Repr, Inhabited

/-! ## Record and replay -/

/-- What a seed holds of a context (R431). `parts` are the entries of its two roadmap partitions, which only the seed that admits a
chip to a hedge carries (R136, R606; log 119); `open_`: a frame begun before the seed's tick had not been released at it, so the paths
in force at `frame` are those that its FRAME entry records (R433). -/
structure SeedCtx where
  ctx : CtxId
  frame : Nat
  warm : List Nat
  stop : Option StopTraj
  vals : List (Nat × Bytes)
  rm : Roadmap
  tool : Option TagRec
  open_ : Bool
  parts : List Bytes
deriving DecidableEq, Repr, Inhabited

/-- A seed (R431). -/
structure Seed where
  tick : Nat
  world : World
  ctxs : List SeedCtx
  strict : Nat
  step : Nat
  service : Nat
deriving DecidableEq, Repr, Inhabited

/-- An entry of the record ring: offset, length, TICK, TYPE, and the place of a world input in the order of R85. -/
structure RingEnt where
  off : Nat
  n : Nat
  tick : Nat
  ty : Nat
  key : Option (Nat × Nat × Nat)
deriving DecidableEq, Repr, Inhabited

/-- The Ingress Recorder and the replay (R426-R443). `rebuilds` lists the ticks after which the world was rebuilt since the recording
began, `barred` the tick that the replay which runs does not go past (R712), `recorded` the contexts whose first frame takes its
paths from the FRAME entry before it (R433). `ents` lists the entries that the ring holds, in their order; `lost` counts
entries dropped since the last one written, `evicted` is the newest tick of the entries written over, plus 1. `seeds` tells
what the bytes of each slot were written from; `due` is the seed of the present tick, captured right after its publication (R431),
`seedRuns` the seeds being written or waiting for it, each with its slot. `nextFr` counts, by context, the FRAME entries of the
recording that a replay has passed. -/
structure Recorder where
  st : Nat
  head : Nat
  ents : List RingEnt
  lost : Nat
  evicted : Nat
  seeds : Vector (Option Seed) 2
  nextSlot : Nat
  due : Option Seed
  seedRuns : List (Nat × Seed)
  seedTick : Nat
  seedAbandon : Nat
  gaps : Nat
  replay : Nat
  pos : Nat
  nextFr : Vector Nat 16
  replayTick : Nat
  rebuilds : List Nat
  barred : Option Nat
  recorded : List CtxId
  pausing : Bool
  mismatch : Nat
  expected : Nat
  firstMismatch : Bytes
deriving DecidableEq, Repr, Inhabited

/-- The answer to the last bus access. -/
inductive BusReply where
  | none
  | ok (v : Nat)
  | bytes (b : Bytes)
  | error
  | stalled
deriving DecidableEq, Repr, Inhabited

/-! ## The whole state

`shadow` holds what was written last to each object, `force` what is in force of the live ones; `edgeShadow` is the shadow
as it stood before the writes that completed at the ACLK count `edgeAt`, which a frame boundary at that edge takes (R14). -/

structure State where
  pending : List Instr
  freeCount : Nat
  clk : Clk
  bus : BusReply
  engines : Vector Engine 18
  roles : Roles
  tds : Tds
  arb : Arb
  mbx : Mbx
  sem : Sem
  portA : PortSt
  portB : PortSt
  sda : Sd
  sdb : Sd
  cn0 : Can
  cn1 : Can
  errField : List Word
  shadow : List (Nat × Bytes)
  force : List (Nat × Bytes)
  edgeAt : Option Nat
  edgeShadow : List (Nat × Bytes)
  world : World
  fus : Fus
  loader : List LoadJob
  ctxs : Vector Ctx 16
  vfy : Vfy
  saf : Saf
  faults : Faults
  dump : Dump
  wear : Wear
  flashWear : Vector (Option Wear) 2
  scrub : Scrub
  links : Vector LinkPort 6
  hedge : Hedge
  boot : Boot
  images : Vector ImgEntry 64
  modules : Modules
  power : Power
  recorder : Recorder
  syncOut : Bool
  syncOutEnd : Nat
  store : List Host.Cell
  psram : List Host.Cell
  flash : List Host.Cell
deriving DecidableEq, Repr

/-! ## Reset

Every value is the one the register and object tables give for reset; a value that no rule gives is 0 (log 3). -/

/-- No section of a configuration record in force: both ports unbound. -/
def noCfg : CfgBodies := { (default : CfgBodies) with portA := 255, portB := 255 }

/-- An engine at power-on (R364-R368, R326). -/
def Engine.reset : Engine :=
  { (default : Engine) with
    clipEn := true
    core :=
      { sregs := List.replicate 32 0, vregs := List.replicate 32 0, mregs := List.replicate 8 0,
        weights := [List.replicate 4096 0, List.replicate 4096 0], select := [], selOver := 2 ^ 64 - 1,
        saveBuf := List.replicate 256 0, lines := [] } }

/-- The roles at power-on, before AON restores the stored ones (R25, R38-R40, R500). -/
def Roles.reset : Roles :=
  { (default : Roles) with working := 0xFFFF, coppice := some 16, reserve := some 17 }

/-- The Task Dispatcher at power-on (R406-R411). -/
def Tds.reset : Tds :=
  { (default : Tds) with nextHandle := 1, cores := Vector.replicate 5 { (default : CoreWin) with respDone := true } }

/-- The Arbiter at power-on (R412). -/
def Arb.reset : Arb :=
  { (default : Arb) with
    wStore := Vector.replicate 32 8, wPsram := Vector.replicate 32 8, wLink := Vector.replicate 32 8,
    wlimit := Vector.replicate 32 4095 }

/-- A mailbox at power-on: host cluster to AON (R588). -/
def Mbox.reset : Mbox := { (default : Mbox) with receiver := 1 }

/-- An SDIO interface at power-on (R591). -/
def Sd.reset : Sd := { (default : Sd) with maxMode := 8, v18En := true }

/-- The geometry defaults (R98), which are in force until RUN falls (R712). -/
def Geom.reset : Geom :=
  { boxLoX := -100, boxLoY := -100, boxLoZ := -25, sizeX := 200, sizeY := 200, sizeZ := 50, l1Lo := 0, l1Size := 0,
    l0Lo := 0, l0Size := 0, expLvl := 0x0210, horizon := 240, lOcc := 32, lPrune := -32, unknownAs := 0, dynLo := 0,
    dynSize := 0x040280A0 }

/-- The world at power-on: the initial world (R86). -/
def World.reset : World := { (default : World) with geom := Geom.reset, fcStale := 30000 }

/-- The Fuse unit at power-on (R124-R131): every receiver has LANES = 3. -/
def Fus.reset : Fus := { (default : Fus) with tlSig := [0, 0, 0, 0], tlRays := [0, 0, 0, 0], rx := Vector.replicate 4 { (default : Rx) with lanes := 3 } }

/-- A context at power-on (R171, R563). -/
def Ctx.reset : Ctx :=
  { (default : Ctx) with
    rm := { (default : Roadmap) with
      content := List.replicate 16 0, lastLibrary := List.replicate 64 0,
      parts := Vector.replicate 2 { (default : RmPart) with chain := List.replicate 16 0 } }
    cnt := { (default : Counters) with smoothLast := List.replicate 32 0 }
    result := List.replicate 4096 0 }

/-- The Verifier at power-on (R320-R324). -/
def Vfy.reset : Vfy := { (default : Vfy) with disEngine := 0x1F }

/-- The SAF block at power-on (R497-R503). -/
def Saf.reset : Saf := { (default : Saf) with lastEng := 0x1F }

/-- A link port at power-on (R623). -/
def LinkPort.reset : LinkPort := { (default : LinkPort) with spareEn := true }

/-- Boot and identity at power-on (R628, R653, R654): AON held. -/
def Boot.reset : Boot := { (default : Boot) with cfg := noCfg }

/-- The power block at power-on (R681, R682). -/
def Power.reset : Power :=
  { (default : Power) with
    chLc := Vector.replicate 8 7, chDrive := Vector.replicate 8 2, chTcem := Vector.replicate 8 400 }

/-- The part right after a power-on reset, with erased memories and nothing queued. -/
def State.reset : State :=
  { pending := [], freeCount := 0, clk := default, bus := .none,
    engines := Vector.replicate 18 Engine.reset, roles := Roles.reset, tds := Tds.reset, arb := Arb.reset,
    mbx := { (default : Mbx) with box := Vector.replicate 32 Mbox.reset }, sem := default, portA := default,
    portB := default, sda := Sd.reset, sdb := Sd.reset, cn0 := default, cn1 := default, errField := [], shadow := [],
    force := [], edgeAt := none, edgeShadow := [], world := World.reset, fus := Fus.reset, loader := [], ctxs := Vector.replicate 16 Ctx.reset,
    vfy := Vfy.reset, saf := Saf.reset, faults := default, dump := default, wear := default,
    flashWear := Vector.replicate 2 none, scrub := default, links := Vector.replicate 6 LinkPort.reset, hedge := default,
    boot := Boot.reset, images := Vector.replicate 64 default, modules := default, power := Power.reset,
    recorder := default, syncOut := false, syncOutEnd := 0, store := [], psram := [], flash := [] }

/-! ## Reasons to stop -/

/-- No command of this part ends in a fault: a forbidden access ends with a bus error or an SDO abort, which are answers
in the state (R55, R562). The one constructor is raised by nobody; it is kept so that the type is not empty. Safe. -/
inductive Fault where
  | unreachable
deriving DecidableEq, Repr

/-- Why a command has no meaning. -/
inductive Refusal where
  /-- Raised by an arm of `exec` whose command has no meaning yet. Safe: nothing is proved of it. -/
  | notModelled (mnemonic : String)
deriving DecidableEq, Repr

end Sys2Proof.Machine
end

