-- ==== Sys2Proof/Machine/Bytes.lean ====
section
/-! DEFINITION. Byte memories and sparse maps in one canonical form, little-endian fields (R10), bit fields and
two's-complement codes. -/

namespace Sys2Proof.Machine

/-! ## Byte memories

A memory lists the bytes that differ from 0, addresses rising. An unlisted byte reads 0 (log 4). -/

abbrev Memory := List Host.Cell

/-- The canonical form: addresses strictly rising from `lo`, no byte 0 listed. -/
def memWfFrom : Nat → Memory → Bool
  | _, [] => true
  | lo, (k, v) :: t => decide (lo ≤ k) && (v != 0) && memWfFrom (k + 1) t

/-- The canonical form of a memory. -/
def Memory.wf (m : Memory) : Bool := memWfFrom 0 m

/-- The byte at an address. -/
def memByte : Memory → Nat → Byte
  | [], _ => 0
  | (k, v) :: t, a => if k = a then v else memByte t a

/-- One byte written. -/
def memPut : Memory → Nat → Byte → Memory
  | [], a, b => if b = 0 then [] else [(a, b)]
  | (k, v) :: t, a, b =>
    if a < k then (if b = 0 then (k, v) :: t else (a, b) :: (k, v) :: t)
    else if a = k then (if b = 0 then t else (a, b) :: t)
    else (k, v) :: memPut t a b

/-- `n` bytes from an address on. -/
def memRead (m : Memory) (a : Nat) : Nat → Bytes
  | 0 => []
  | n + 1 => memByte m a :: memRead m (a + 1) n

/-- Bytes written from an address on. -/
def memWrite (m : Memory) (a : Nat) : Bytes → Memory
  | [] => m
  | b :: bs => memWrite (memPut m a b) (a + 1) bs

/-- `n` bytes cleared from an address on. -/
def memClear (m : Memory) (a n : Nat) : Memory := m.filter fun c => !(decide (a ≤ c.1) && decide (c.1 < a + n))

/-! ## Sparse maps, keys rising -/

def amGet {α : Type} : List (Nat × α) → Nat → Option α
  | [], _ => none
  | (k, v) :: t, a => if k = a then some v else amGet t a

def amPut {α : Type} : List (Nat × α) → Nat → α → List (Nat × α)
  | [], a, x => [(a, x)]
  | (k, v) :: t, a, x =>
    if a < k then (a, x) :: (k, v) :: t else if a = k then (a, x) :: t else (k, v) :: amPut t a x

def amDel {α : Type} (m : List (Nat × α)) (a : Nat) : List (Nat × α) := m.filter fun e => e.1 != a

def amGetD {α : Type} (m : List (Nat × α)) (a : Nat) (d : α) : α := (amGet m a).getD d

/-- Insertion of a number into a rising list without repeats. -/
def setIns : List Nat → Nat → List Nat
  | [], a => [a]
  | k :: t, a => if a < k then a :: k :: t else if a = k then k :: t else k :: setIns t a

def setDel (l : List Nat) (a : Nat) : List Nat := l.filter fun k => k != a

/-! ## Fields and codes -/

/-- Bits `lo` to `lo + w - 1` of `v`. -/
def fld (v lo w : Nat) : Nat := v / 2 ^ lo % 2 ^ w

/-- The value of a `w`-bit two's-complement code. -/
def sext (w v : Nat) : Int := if v % 2 ^ w < 2 ^ (w - 1) then (v % 2 ^ w : Nat) else (v % 2 ^ w : Nat) - (2 ^ w : Nat)

/-- The `w`-bit two's-complement code of `i`. -/
def code (w : Nat) (i : Int) : Nat := (i % (2 ^ w : Nat)).toNat

/-- An integer held to a range. -/
def clampI (lo hi i : Int) : Int := if i < lo then lo else if hi < i then hi else i

/-- The value of bytes, lowest first. -/
def leNat : Bytes → Nat
  | [] => 0
  | b :: bs => b.toNat + 256 * leNat bs

/-- `n` bytes of a value, lowest first. -/
def leBytes : Nat → Nat → Bytes
  | 0, _ => []
  | n + 1, v => BitVec.ofNat 8 v :: leBytes n (v / 256)

/-- The value of bytes, highest first. -/
def beNat (bs : Bytes) : Nat := leNat bs.reverse

def beBytes (n v : Nat) : Bytes := (leBytes n v).reverse

/-- `n` bytes of a message from `off`; bytes past its end read 0. -/
def slice (bs : Bytes) (off n : Nat) : Bytes :=
  let t := (bs.drop off).take n
  t ++ List.replicate (n - t.length) 0

/-- The little-endian field of `n` bytes at `off`. -/
def u (bs : Bytes) (off n : Nat) : Nat := leNat (slice bs off n)

/-- The same as a two's-complement integer. -/
def si (bs : Bytes) (off n : Nat) : Int := sext (8 * n) (u bs off n)

/-- Bytes cut or filled with zeros to `n`. -/
def padTo (n : Nat) (bs : Bytes) : Bytes := slice bs 0 n

def zeros (n : Nat) : Bytes := List.replicate n 0

/-- A list cut into pieces of `n`, with `fuel` pieces at most. -/
def chunks {α : Type} (n : Nat) : Nat → List α → List (List α)
  | 0, _ => []
  | k + 1, l => if l.isEmpty then [] else l.take n :: chunks n k (l.drop n)

/-- All bytes 0. -/
def allZero (bs : Bytes) : Bool := bs.all fun b => b == 0

/-- The numbers of the bits that are set among the lowest `w`. -/
def bitsOf (w v : Nat) : List Nat := (List.range w).filter fun i => v.testBit i

/-- The number whose set bits are those listed. -/
def ofBits (l : List Nat) : Nat := l.foldl (fun a i => a ||| 2 ^ i) 0

/-- Floor and ceiling of a quotient. -/
def ceilDiv (a b : Nat) : Nat := (a + b - 1) / b

/-- The largest `r` with `r * r ≤ n`, by the bits below `k`. -/
def isqrtFrom (n : Nat) : Nat → Nat → Nat
  | 0, r => r
  | k + 1, r => let t := r + 2 ^ k; isqrtFrom n k (if t * t ≤ n then t else r)

def isqrt (n : Nat) : Nat := isqrtFrom n (n.log2 / 2 + 1) 0

/-- The largest `r` with `r ^ 3 ≤ n`, by the bits below `k`. -/
def icbrtFrom (n : Nat) : Nat → Nat → Nat
  | 0, r => r
  | k + 1, r => let t := r + 2 ^ k; icbrtFrom n k (if t * t * t ≤ n then t else r)

def icbrt (n : Nat) : Nat := icbrtFrom n (n.log2 / 3 + 1) 0

/-- One element of a vector changed. -/
def vupd {α : Type} {n : Nat} (v : Vector α n) (i : Fin n) (f : α → α) : Vector α n := v.set i.val (f v[i]) i.isLt

/-- Insertion sort by a strict order; equal elements keep their order. -/
def insBy {α : Type} (lt : α → α → Bool) (x : α) : List α → List α
  | [] => [x]
  | y :: t => if lt x y then x :: y :: t else y :: insBy lt x t

def sortBy {α : Type} (lt : α → α → Bool) (l : List α) : List α := l.foldl (fun acc x => insBy lt x acc) []

end Sys2Proof.Machine
end

