-- ==== Sys2Proof/Machine/Crypto.lean ====
section
/-! DEFINITION. The published algorithms that the spec names: SHA-512 and PureEd25519 (R625, RFC 8032), the CRC-32 of
record entries and flits. Their texts are the standards' (PRESUMED, log 7). -/

namespace Sys2Proof.Machine

/-! ## SHA-512 -/

abbrev W64 := BitVec 64

/-- The first `n` primes. -/
def primesTo (n : Nat) : List Nat :=
  (List.range n).foldl (fun ps k => if 2 ≤ k && ps.all (fun p => k % p != 0) then ps ++ [k] else ps) []

/-- The fractional parts of the square roots of the first 8 primes, 64 bits. -/
def shaInit : List W64 := ((primesTo 20).take 8).map fun p => BitVec.ofNat 64 (isqrt (p * 2 ^ 128))

/-- The fractional parts of the cube roots of the first 80 primes, 64 bits. -/
def shaK : List W64 := ((primesTo 410).take 80).map fun p => BitVec.ofNat 64 (icbrt (p * 2 ^ 192))

def rotr (x : W64) (n : Nat) : W64 := (x >>> n) ||| (x <<< (64 - n))

/-- The message schedule: the window of the last 16 words, newest last, extended `n` times; every word is emitted. -/
def shaSched : Nat → List W64 → List W64
  | 0, _ => []
  | n + 1, w =>
    let w1 := w.getD 1 0
    let w14 := w.getD 14 0
    let s0 := rotr w1 1 ^^^ rotr w1 8 ^^^ (w1 >>> 7)
    let s1 := rotr w14 19 ^^^ rotr w14 61 ^^^ (w14 >>> 6)
    let x := w.headD 0 + s0 + w.getD 9 0 + s1
    x :: shaSched n (w.drop 1 ++ [x])

structure ShaRegs where
  a : W64
  b : W64
  c : W64
  d : W64
  e : W64
  f : W64
  g : W64
  h : W64

def shaRound (r : ShaRegs) (kw : W64) : ShaRegs :=
  let s1 := rotr r.e 14 ^^^ rotr r.e 18 ^^^ rotr r.e 41
  let ch := (r.e &&& r.f) ^^^ (~~~r.e &&& r.g)
  let t1 := r.h + s1 + ch + kw
  let s0 := rotr r.a 28 ^^^ rotr r.a 34 ^^^ rotr r.a 39
  let mj := (r.a &&& r.b) ^^^ (r.a &&& r.c) ^^^ (r.b &&& r.c)
  ⟨t1 + (s0 + mj), r.a, r.b, r.c, r.d + t1, r.e, r.f, r.g⟩

def shaBlock (k : List W64) (h : List W64) (blk : Bytes) : List W64 :=
  let w := (chunks 8 16 blk).map fun c => BitVec.ofNat 64 (beNat c)
  let ws := w ++ shaSched 64 w
  let g := fun i => h.getD i 0
  let r := (List.zipWith (· + ·) k ws).foldl shaRound ⟨g 0, g 1, g 2, g 3, g 4, g 5, g 6, g 7⟩
  [g 0 + r.a, g 1 + r.b, g 2 + r.c, g 3 + r.d, g 4 + r.e, g 5 + r.f, g 6 + r.g, g 7 + r.h]

/-- SHA-512 of a message. -/
def sha512 (m : Bytes) : Bytes :=
  let n := m.length
  let pad := (239 - n % 128) % 128
  let full := m ++ [0x80#8] ++ zeros pad ++ beBytes 16 (8 * n)
  let k := shaK
  let h := (chunks 128 (full.length / 128) full).foldl (shaBlock k) shaInit
  (h.map fun x => beBytes 8 x.toNat).flatten

/-- The first 128 bits of SHA-512. -/
def digest128 (m : Bytes) : Bytes := (sha512 m).take 16

/-! ## CRC-32 -/

def crcStep (c : Nat) : Nat → Nat
  | 0 => c
  | n + 1 => crcStep (if c % 2 = 1 then (c / 2) ^^^ 0xEDB88320 else c / 2) n

/-- The CRC-32 with polynomial 0x04C11DB7, reflected, initial and final value all ones. -/
def crc32 (m : Bytes) : Nat := (m.foldl (fun c b => crcStep (c ^^^ b.toNat) 8) 0xFFFFFFFF) ^^^ 0xFFFFFFFF

/-! ## Ed25519 -/

def edP : Nat := 2 ^ 255 - 19
def edL : Nat := 2 ^ 252 + 27742317777372353535851937790883648493

def powMod (b m : Nat) : Nat → Nat → Nat
  | 0, _ => 1 % m
  | k + 1, e => let h := powMod (b * b % m) m k (e / 2); if e % 2 = 1 then b * h % m else h

def edInv (x : Nat) : Nat := powMod x edP 255 (edP - 2)
def edSub (a b : Nat) : Nat := (a + edP - b % edP) % edP
def edD : Nat := edSub 0 (121665 * edInv 121666 % edP)

/-- A point in extended coordinates. -/
structure EdPt where
  x : Nat
  y : Nat
  z : Nat
  t : Nat
deriving DecidableEq, Repr, Inhabited

def edAdd (p q : EdPt) : EdPt :=
  let a := edSub p.y p.x * edSub q.y q.x % edP
  let b := (p.y + p.x) * (q.y + q.x) % edP
  let c := 2 * p.t * q.t % edP * edD % edP
  let d := 2 * p.z * q.z % edP
  let e := edSub b a
  let f := edSub d c
  let g := (d + c) % edP
  let h := (b + a) % edP
  ⟨e * f % edP, g * h % edP, f * g % edP, e * h % edP⟩

def edZero : EdPt := ⟨0, 1, 1, 0⟩

def edMul (p : EdPt) : Nat → Nat → EdPt
  | 0, _ => edZero
  | k + 1, s => let h := edMul (edAdd p p) k (s / 2); if s % 2 = 1 then edAdd p h else h

def edEq (p q : EdPt) : Bool := p.x * q.z % edP == q.x * p.z % edP && p.y * q.z % edP == q.y * p.z % edP

/-- The x coordinate of a point with a given y and sign, if there is one. -/
def edX (y sign : Nat) : Option Nat :=
  let x2 := edSub (y * y) 1 % edP * edInv ((edD * (y * y % edP) + 1) % edP) % edP
  if x2 = 0 then (if sign = 1 then none else some 0)
  else
    let r := powMod x2 edP 255 ((edP + 3) / 8)
    let r := if r * r % edP = x2 then r else r * powMod 2 edP 255 ((edP - 1) / 4) % edP
    if r * r % edP = x2 then some (if r % 2 = sign then r else edP - r) else none

/-- Decoding of a point; a non-canonical encoding gives none (R625). -/
def edDecode (b : Bytes) : Option EdPt :=
  let n := leNat (b.take 32)
  let sign := n / 2 ^ 255
  let y := n % 2 ^ 255
  if y ≥ edP then none
  else
    match edX y sign with
    | none => none
    | some x => some ⟨x, y, 1, x * y % edP⟩

def edEncode (p : EdPt) : Bytes :=
  let zi := edInv p.z
  let x := p.x * zi % edP
  let y := p.y * zi % edP
  leBytes 32 (y + (x % 2) * 2 ^ 255)

def edBase : EdPt :=
  let y := 4 * edInv 5 % edP
  match edX y 0 with
  | some x => ⟨x, y, 1, x * y % edP⟩
  | none => edZero

/-- PureEd25519 verification with the cofactored equation (R625). -/
def edVerify (key msg sig : Bytes) : Bool :=
  match edDecode key, edDecode (sig.take 32) with
  | some a, some r =>
    let s := leNat ((sig.drop 32).take 32)
    let k := leNat (sha512 (sig.take 32 ++ key.take 32 ++ msg)) % edL
    decide (s < edL) && decide (key.length = 32) && decide (sig.length = 64) &&
      edEq (edMul (edMul edBase 253 s) 4 8) (edMul (edAdd r (edMul a 253 k)) 4 8)
  | _, _ => false

/-- The scalar of a private seed. -/
def edScalar (seed : Bytes) : Nat :=
  let n := leNat ((sha512 seed).take 32)
  n % 2 ^ 254 / 8 * 8 + 2 ^ 254

/-- The public key of a private seed. -/
def edPublic (seed : Bytes) : Bytes := edEncode (edMul edBase 255 (edScalar seed))

/-- The signature of a message under a private seed. -/
def edSign (seed msg : Bytes) : Bytes :=
  let a := edScalar seed
  let pub := edPublic seed
  let r := leNat (sha512 ((sha512 seed).drop 32 ++ msg)) % edL
  let rb := edEncode (edMul edBase 253 r)
  let k := leNat (sha512 (rb ++ pub ++ msg)) % edL
  rb ++ leBytes 32 ((r + k * a) % edL)

/-- A signed object: every byte before the last 64 is covered by them (R625). -/
def signedBy (key obj : Bytes) : Bool :=
  decide (64 ≤ obj.length) && edVerify key (obj.take (obj.length - 64)) (obj.drop (obj.length - 64))

end Sys2Proof.Machine
end

