-- ==== Sys2Proof/Machine/Float.lean ====
section
/-! DEFINITION. The number formats of R355 and their arithmetic (R356-R363): every operation is computed exactly and
rounded once. A value carries the sticky flags (R359) of the operations behind it. -/

namespace Sys2Proof.Machine

/-- A floating-point format: fraction width, bias, exponent width, and whether it has infinities (R355). -/
structure Fmt where
  mb : Nat
  eb : Nat
  bias : Nat
  inf : Bool
deriving DecidableEq, Repr

def fp64 : Fmt := ⟨52, 11, 1023, true⟩
def fp32 : Fmt := ⟨23, 8, 127, true⟩
def bf16 : Fmt := ⟨7, 8, 127, true⟩
def fp16 : Fmt := ⟨10, 5, 15, true⟩
def e4m3 : Fmt := ⟨3, 4, 7, false⟩
def e5m2 : Fmt := ⟨2, 5, 15, true⟩

/-- A pattern with its flags: bit 0 INVALID, 1 DIVZERO, 2 OVERFLOW, 3 UNDERFLOW, 4 SATURATE (R365). -/
structure Num where
  bits : Nat
  fl : Nat
deriving DecidableEq, Repr, Inhabited

/-- A decoded pattern: NaN, an infinity, or (-1)^s * m * 2^e. -/
inductive Fp where
  | nan
  | inf (s : Bool)
  | fin (s : Bool) (m : Nat) (e : Int)
deriving DecidableEq, Repr, Inhabited

def signBit (f : Fmt) : Nat := f.mb + f.eb
/-- The pattern of +∞, or one past the largest pattern of a format without infinities. -/
def infCode (f : Fmt) : Nat := if f.inf then (2 ^ f.eb - 1) * 2 ^ f.mb else 2 ^ (f.mb + f.eb) - 1
/-- The canonical NaN (R355). -/
def nanCode (f : Fmt) : Nat := if f.inf then infCode f + 2 ^ (f.mb - 1) else 2 ^ (f.mb + f.eb) - 1

/-- Decoding of a pattern (R355, R357). -/
def unpack (f : Fmt) (b : Nat) : Fp :=
  let s := b.testBit (signBit f)
  let mag := b % 2 ^ signBit f
  let e := mag / 2 ^ f.mb
  let m := mag % 2 ^ f.mb
  if f.inf && e == 2 ^ f.eb - 1 then (if m == 0 then .inf s else .nan)
  else if !f.inf && mag == 2 ^ signBit f - 1 then .nan
  else if e == 0 then .fin s m (1 - (f.bias : Int) - f.mb)
  else .fin s (m + 2 ^ f.mb) ((e : Int) - f.bias - f.mb)

def signOf (f : Fmt) (s : Bool) : Nat := if s then 2 ^ signBit f else 0

def mkNan (f : Fmt) (fl : Nat) : Num := ⟨nanCode f, fl⟩
def mkInf (f : Fmt) (s : Bool) (fl : Nat) : Num := ⟨signOf f s + infCode f, fl⟩
def mkZero (f : Fmt) (s : Bool) (fl : Nat) : Num := ⟨signOf f s, fl⟩

/-- `m / 2^k` rounded to nearest, ties to even. -/
def rne (m k : Nat) : Nat :=
  let q := m / 2 ^ k
  let r := m % 2 ^ k
  if k = 0 then m
  else if r > 2 ^ (k - 1) then q + 1
  else if r = 2 ^ (k - 1) then q + q % 2
  else q

/-- (-1)^s * m * 2^e rounded to a format (R356, R360): overflow gives an infinity, or the largest value and SATURATE in
FP8-E4M3; a tiny inexact result sets UNDERFLOW (tininess is judged before rounding: log 21). -/
def roundTo (f : Fmt) (s : Bool) (m : Nat) (e : Int) (fl : Nat) : Num :=
  if m = 0 then mkZero f s fl
  else
    let emin : Int := 1 - (f.bias : Int)
    let top : Int := (m.log2 : Int) + e
    let q : Int := max top emin - f.mb
    let sh : Int := q - e
    let n := if sh ≤ 0 then m * 2 ^ (-sh).toNat else rne m sh.toNat
    let inexact := decide (0 < sh) && m % 2 ^ sh.toNat != 0
    let c := (q - (emin - f.mb)).toNat * 2 ^ f.mb + n
    if c ≥ infCode f then
      if f.inf then mkInf f s (fl ||| 4) else ⟨signOf f s + infCode f - 1, fl ||| 16⟩
    else
      let sat := !f.inf && c == infCode f - 1 && inexact && m / 2 ^ sh.toNat == n
      ⟨signOf f s + c,
        fl ||| (if decide (top < emin) && inexact then 8 else 0) ||| (if sat then 16 else 0)⟩

/-- An integer as a value of a format (R360). -/
def ofInt (f : Fmt) (i : Int) : Num := roundTo f (decide (i < 0)) i.natAbs 0 0

/-- `m * 2^e` as a value of a format, `m` signed. -/
def ofDyadic (f : Fmt) (m e : Int) : Num := roundTo f (decide (m < 0)) m.natAbs e 0

/-- The quotient of two naturals, rounded once. -/
def ofRatio (f : Fmt) (s : Bool) (a b : Nat) (e : Int) (fl : Nat) : Num :=
  if a = 0 then mkZero f s fl
  else
    let k := b.log2 + f.mb + 4
    let q := a * 2 ^ k / b
    let r := a * 2 ^ k % b
    roundTo f s (2 * q + (if r = 0 then 0 else 1)) (e - k - 1) fl

def isNan (f : Fmt) (b : Nat) : Bool := unpack f b == .nan

def isInf (f : Fmt) (b : Nat) : Bool :=
  match unpack f b with
  | .inf _ => true
  | _ => false

/-- The exact sum of two finite values, rounded; a zero sum is +0 unless both are -0. -/
def addFin (f : Fmt) (s1 : Bool) (m1 : Nat) (e1 : Int) (s2 : Bool) (m2 : Nat) (e2 : Int) (fl : Nat) : Num :=
  let e := min e1 e2
  let v1 : Int := (m1 * 2 ^ (e1 - e).toNat : Nat)
  let v2 : Int := (m2 * 2 ^ (e2 - e).toNat : Nat)
  let v := (if s1 then -v1 else v1) + (if s2 then -v2 else v2)
  if v = 0 then mkZero f (s1 && s2) fl
  else roundTo f (decide (v < 0)) v.natAbs e fl

def fadd (f : Fmt) (a b : Num) : Num :=
  let fl := a.fl ||| b.fl
  match unpack f a.bits, unpack f b.bits with
  | .nan, _ => mkNan f fl
  | _, .nan => mkNan f fl
  | .inf s, .inf t => if s == t then mkInf f s fl else mkNan f (fl ||| 1)
  | .inf s, .fin _ _ _ => mkInf f s fl
  | .fin _ _ _, .inf s => mkInf f s fl
  | .fin s1 m1 e1, .fin s2 m2 e2 => addFin f s1 m1 e1 s2 m2 e2 fl

/-- The value with its sign turned; a NaN becomes canonical (R358). -/
def fneg (f : Fmt) (a : Num) : Num :=
  if isNan f a.bits then mkNan f a.fl
  else if a.bits.testBit (signBit f) then ⟨a.bits - 2 ^ signBit f, a.fl⟩ else ⟨a.bits + 2 ^ signBit f, a.fl⟩

def fabs (f : Fmt) (a : Num) : Num := if isNan f a.bits then mkNan f a.fl else ⟨a.bits % 2 ^ signBit f, a.fl⟩

def fsub (f : Fmt) (a b : Num) : Num := fadd f a (fneg f b)

def fmul (f : Fmt) (a b : Num) : Num :=
  let fl := a.fl ||| b.fl
  match unpack f a.bits, unpack f b.bits with
  | .nan, _ => mkNan f fl
  | _, .nan => mkNan f fl
  | .inf s, .inf t => mkInf f (s != t) fl
  | .inf s, .fin t m _ => if m = 0 then mkNan f (fl ||| 1) else mkInf f (s != t) fl
  | .fin t m _, .inf s => if m = 0 then mkNan f (fl ||| 1) else mkInf f (s != t) fl
  | .fin s1 m1 e1, .fin s2 m2 e2 => roundTo f (s1 != s2) (m1 * m2) (e1 + e2) fl

/-- `a * b + c` with one rounding (R356); the product may come from another format `g` (R335). -/
def fmaIn (g f : Fmt) (a b c : Num) : Num :=
  let fl := a.fl ||| b.fl ||| c.fl
  match unpack g a.bits, unpack g b.bits, unpack f c.bits with
  | .nan, _, _ => mkNan f fl
  | _, .nan, _ => mkNan f fl
  | _, _, .nan => mkNan f fl
  | .inf s, .inf t, .inf w => if (s != t) == w then mkInf f w fl else mkNan f (fl ||| 1)
  | .inf s, .inf t, .fin _ _ _ => mkInf f (s != t) fl
  | .inf s, .fin t m _, .inf w =>
    if m = 0 then mkNan f (fl ||| 1) else if (s != t) == w then mkInf f w fl else mkNan f (fl ||| 1)
  | .fin t m _, .inf s, .inf w =>
    if m = 0 then mkNan f (fl ||| 1) else if (s != t) == w then mkInf f w fl else mkNan f (fl ||| 1)
  | .inf s, .fin t m _, .fin _ _ _ => if m = 0 then mkNan f (fl ||| 1) else mkInf f (s != t) fl
  | .fin t m _, .inf s, .fin _ _ _ => if m = 0 then mkNan f (fl ||| 1) else mkInf f (s != t) fl
  | .fin _ _ _, .fin _ _ _, .inf w => mkInf f w fl
  | .fin s1 m1 e1, .fin s2 m2 e2, .fin s3 m3 e3 => addFin f (s1 != s2) (m1 * m2) (e1 + e2) s3 m3 e3 fl

def ffma (f : Fmt) (a b c : Num) : Num := fmaIn f f a b c

def fdiv (f : Fmt) (a b : Num) : Num :=
  let fl := a.fl ||| b.fl
  match unpack f a.bits, unpack f b.bits with
  | .nan, _ => mkNan f fl
  | _, .nan => mkNan f fl
  | .inf _, .inf _ => mkNan f (fl ||| 1)
  | .inf s, .fin t _ _ => mkInf f (s != t) fl
  | .fin s _ _, .inf t => mkZero f (s != t) fl
  | .fin s1 m1 e1, .fin s2 m2 e2 =>
    if m2 = 0 then (if m1 = 0 then mkNan f (fl ||| 1) else mkInf f (s1 != s2) (fl ||| 2))
    else ofRatio f (s1 != s2) m1 m2 (e1 - e2) fl

/-- Square root, correctly rounded (R332); of a negative value a NaN. -/
def fsqrt (f : Fmt) (a : Num) : Num :=
  match unpack f a.bits with
  | .nan => mkNan f a.fl
  | .inf s => if s then mkNan f (a.fl ||| 1) else mkInf f s a.fl
  | .fin s m e =>
    if m = 0 then mkZero f s a.fl
    else if s then mkNan f (a.fl ||| 1)
    else
      let k : Int := f.mb + 4
      let e2 := (e - 2 * k) / 2
      let n := m * 2 ^ (e - 2 * e2).toNat
      let r := isqrt n
      roundTo f false (2 * r + (if r * r = n then 0 else 1)) (e2 - 1) a.fl

/-- The order of two values, none when either is a NaN (R358). -/
def fcmp (f : Fmt) (a b : Num) : Option Ordering :=
  match unpack f a.bits, unpack f b.bits with
  | .nan, _ => none
  | _, .nan => none
  | .inf s, .inf t => some (if s == t then .eq else if s then .lt else .gt)
  | .inf s, .fin _ _ _ => some (if s then .lt else .gt)
  | .fin _ _ _, .inf t => some (if t then .gt else .lt)
  | .fin s1 m1 e1, .fin s2 m2 e2 =>
    let e := min e1 e2
    let v1 : Int := (m1 * 2 ^ (e1 - e).toNat : Nat)
    let v2 : Int := (m2 * 2 ^ (e2 - e).toNat : Nat)
    some (compare (if s1 then -v1 else v1) (if s2 then -v2 else v2))

def flt (f : Fmt) (a b : Num) : Bool := fcmp f a b == some .lt
def fle (f : Fmt) (a b : Num) : Bool := fcmp f a b == some .lt || fcmp f a b == some .eq
def feq (f : Fmt) (a b : Num) : Bool := fcmp f a b == some .eq

/-- MIN and MAX (R358): a NaN operand gives a NaN; -0 lies below +0. -/
def fmin (f : Fmt) (a b : Num) : Num :=
  let fl := a.fl ||| b.fl
  match fcmp f a b with
  | none => mkNan f fl
  | some .lt => ⟨a.bits, fl⟩
  | some .gt => ⟨b.bits, fl⟩
  | some .eq => ⟨if a.bits.testBit (signBit f) then a.bits else b.bits, fl⟩

def fmax (f : Fmt) (a b : Num) : Num :=
  let fl := a.fl ||| b.fl
  match fcmp f a b with
  | none => mkNan f fl
  | some .lt => ⟨b.bits, fl⟩
  | some .gt => ⟨a.bits, fl⟩
  | some .eq => ⟨if a.bits.testBit (signBit f) then b.bits else a.bits, fl⟩

/-- Conversion between floating-point formats (R360): FP8-E4M3 has no infinity, so ±∞ becomes ±448 with SATURATE. -/
def fconv (g f : Fmt) (a : Num) : Num :=
  match unpack g a.bits with
  | .nan => mkNan f a.fl
  | .inf s => if f.inf then mkInf f s a.fl else ⟨signOf f s + infCode f - 1, a.fl ||| 16⟩
  | .fin s m e => roundTo f s m e a.fl

/-- A value scaled by 2^k and rounded to an integer, ties to even; none for a NaN, `some` with a flag for ±∞. -/
def toIntRne (f : Fmt) (a k : Nat) (lo hi onNan : Int) : Int :=
  match unpack f a with
  | .nan => onNan
  | .inf s => if s then lo else hi
  | .fin s m e =>
    let v := m * k
    let n : Int := if 0 ≤ e then (v * 2 ^ e.toNat : Nat) else (rne v (-e).toNat : Nat)
    clampI lo hi (if s then -n else n)

/-- The coordinate conversion of R363: metres to 0.25 mm. -/
def toCoord (f : Fmt) (a : Nat) : Int := toIntRne f a 4000 (-32767) 32767 32767

/-- The same with its flag: a NaN sets INVALID, no other value sets one (R363). -/
def coordNum (f : Fmt) (a : Num) : Int × Nat := (toCoord f a.bits, a.fl ||| (if isNan f a.bits then 1 else 0))

/-- A floating-point value as an integer of `w` bits, ties to even (R360): NaN gives 0 and INVALID; outside the range the
nearest bound and SATURATE. -/
def toIntSat (f : Fmt) (w : Nat) (a : Num) : Int × Nat :=
  let hi : Int := 2 ^ (w - 1) - 1
  let n := toIntRne f a.bits 1 (-hi - 2) (hi + 1) 0
  (clampI (-hi - 1) hi n,
    a.fl ||| (if isNan f a.bits then 1 else 0) ||| (if n = clampI (-hi - 1) hi n then 0 else 16))

def toInt8 (f : Fmt) (a : Num) : Int × Nat := toIntSat f 8 a
def toInt32 (f : Fmt) (a : Num) : Int × Nat := toIntSat f 32 a

/-- floor of a value times `k` divided by `d`; none for a NaN or an infinity. -/
def floorScaled (f : Fmt) (a k d : Nat) : Option Int :=
  match unpack f a with
  | .fin s m e =>
    let v : Int := if s then -(m * k : Nat) else (m * k : Nat)
    some (if 0 ≤ e then v * (2 ^ e.toNat : Nat) / d else v / ((d * 2 ^ (-e).toNat : Nat) : Int))
  | _ => none

/-- ceil of a value times `k`; none for a NaN or an infinity. -/
def ceilScaled (f : Fmt) (a k : Nat) : Option Int :=
  match unpack f a with
  | .fin s m e =>
    let v : Int := if s then -(m * k : Nat) else (m * k : Nat)
    some (if 0 ≤ e then v * (2 ^ e.toNat : Nat) else -((-v) / ((2 ^ (-e).toNat : Nat) : Int)))
  | _ => none

/-! ## SDF8 (R361, R362) -/

/-- An SDF8 code in metres: exact. -/
def sdfFloat (f : Fmt) (v : Int) (e : Nat) : Num := ofDyadic f v ((e : Int) - 10)

/-- A distance in metres as an SDF8 code at an exponent: the floor, saturated; a NaN gives -127 and INVALID. -/
def floatSdf (f : Fmt) (a : Num) (e : Nat) : Int × Nat :=
  match unpack f a.bits with
  | .nan => (-127, a.fl ||| 1)
  | .inf s => (if s then -127 else 127, a.fl)
  | .fin _ _ _ => (clampI (-127) 127 ((floorScaled f a.bits 1024 (2 ^ e)).getD 0), a.fl)

/-- A code at one exponent as a code at another: decoded exactly, then encoded. -/
def sdfAgain (v : Int) (e e' : Nat) : Int := clampI (-127) 127 (v * (2 ^ e : Nat) / (2 ^ e' : Nat))

/-- A plain pattern, with no flags behind it. -/
def num (b : Nat) : Num := ⟨b, 0⟩

def w32 (n : Num) : Word := BitVec.ofNat 32 n.bits

/-- The reduction of R331 over a list whose length is a power of two, by levels. -/
def reducePairs (op : Num → Num → Num) : List Num → List Num
  | a :: b :: t => op a b :: reducePairs op t
  | l => l

def reduceTree (op : Num → Num → Num) : Nat → List Num → Num
  | 0, l => l.headD ⟨0, 0⟩
  | k + 1, l => reduceTree op k (reducePairs op l)

/-! ## The matrix array (R334-R336) -/

/-- The formats of the array's weights and activations. -/
inductive ArrFmt where
  | e4m3
  | e5m2
  | int8
  | bf16
  | fp16
deriving DecidableEq, Repr

/-- The operand pairs that the array accepts: weights, activations (R334). -/
def arrayAccepts : ArrFmt → ArrFmt → Bool
  | .e4m3, .int8 | .e5m2, .int8 | .bf16, .int8 | .fp16, .int8 => false
  | .int8, .int8 => true
  | .int8, _ => false
  | .bf16, .bf16 => true
  | .fp16, .fp16 => true
  | .bf16, _ | .fp16, _ => false
  | _, _ => true

def ArrFmt.fmt : ArrFmt → Fmt
  | .e4m3 => Machine.e4m3
  | .e5m2 => Machine.e5m2
  | .bf16 => Machine.bf16
  | _ => Machine.fp16

/-- One step of a floating-point pass: the exact product added, one rounding (R335). Both operands convert exactly to FP32. -/
def floatMac (w a : Fmt) (acc : Num) (x : Num × Num) : Num :=
  ffma fp32 (fconv w fp32 x.1) (fconv a fp32 x.2) acc

/-- One step of an INT8 pass: the sum saturates to INT32, and a saturation sets SATURATE (R336). -/
def intMac (acc : Int × Nat) (x : Num × Num) : Int × Nat :=
  let v := acc.1 + sext 8 x.1.bits * sext 8 x.2.bits
  let c := clampI (-2147483648) 2147483647 v
  (c, acc.2 ||| (if v = c then 0 else 16))

/-- One pass for one output: the accumulator's 32 bits with its flags; none for a pair that the array does not accept. The
entries run in ascending order whatever their blocks of 64 (R335). -/
def arrayPass (w a : ArrFmt) (ws as : List Num) : Option Num :=
  if !arrayAccepts w a then none
  else if w = .int8 then
    let r := (ws.zip as).foldl intMac (0, 0)
    some ⟨code 32 r.1, r.2⟩
  else some ((ws.zip as).foldl (floatMac w.fmt a.fmt) (num 0))

end Sys2Proof.Machine
end

