-- ==== Sys2Proof/Machine/Dictionary.lean ====
section
/-! DEFINITION. The object dictionary (R586): index, subindex, length, access class, owning block, default and range of
every object, and the values of the objects that hold one. -/

namespace Sys2Proof.Machine

/-- The Access column (00_scope.md; 14, "Classes and refusals"). -/
inductive Acc where
  | ro
  | wo
  | rw
  | rwf
deriving DecidableEq, Repr

/-- The owning block of a frozen object (R17, R89, R561): its context, any context, its stream, the Fuse unit, or none
(immediate). -/
inductive Own where
  | none
  | ctx
  | anyCtx
  | stream
  | fuse
deriving DecidableEq, Repr

/-- The Range column as far as one object alone decides it; `any` leaves it to the value check by name. -/
inductive Rng where
  | any
  | nat (lo hi : Nat)
  | int (lo hi : Int)
  | real (lo hi : Nat)
  | reals (bounds : Option (Nat × Nat))
deriving DecidableEq, Repr

/-- One row of an object table. Index 0x2000, 0x2201 and 0x2301 stand for 16 indices, one a context. -/
structure ObjDef where
  index : Nat
  sub : Nat
  len : Option Nat
  acc : Acc
  own : Own
  dflt : Bytes
  rng : Rng
deriving DecidableEq, Repr

/-- Objects 0x1000:00 to 0x2000:0E. -/
def dict0 : List ObjDef := [
  ⟨0x1000, 0x00, some 4, .ro, .none, [], .any⟩,  -- Device type (R587)
  ⟨0x1001, 0x00, some 1, .ro, .none, [], .any⟩,  -- Error register (R587)
  ⟨0x1003, 0x00, some 1, .ro, .none, [], .any⟩,  -- Number of errors (R587)
  ⟨0x1003, 0x01, some 4, .ro, .none, [], .any⟩,  -- Pre-defined error field (R587)
  ⟨0x1003, 0x02, some 4, .ro, .none, [], .any⟩,  -- Pre-defined error field (R587)
  ⟨0x1003, 0x03, some 4, .ro, .none, [], .any⟩,  -- Pre-defined error field (R587)
  ⟨0x1003, 0x04, some 4, .ro, .none, [], .any⟩,  -- Pre-defined error field (R587)
  ⟨0x1003, 0x05, some 4, .ro, .none, [], .any⟩,  -- Pre-defined error field (R587)
  ⟨0x1003, 0x06, some 4, .ro, .none, [], .any⟩,  -- Pre-defined error field (R587)
  ⟨0x1003, 0x07, some 4, .ro, .none, [], .any⟩,  -- Pre-defined error field (R587)
  ⟨0x1003, 0x08, some 4, .ro, .none, [], .any⟩,  -- Pre-defined error field (R587)
  ⟨0x1003, 0x09, some 4, .ro, .none, [], .any⟩,  -- Pre-defined error field (R587)
  ⟨0x1003, 0x0A, some 4, .ro, .none, [], .any⟩,  -- Pre-defined error field (R587)
  ⟨0x1003, 0x0B, some 4, .ro, .none, [], .any⟩,  -- Pre-defined error field (R587)
  ⟨0x1003, 0x0C, some 4, .ro, .none, [], .any⟩,  -- Pre-defined error field (R587)
  ⟨0x1003, 0x0D, some 4, .ro, .none, [], .any⟩,  -- Pre-defined error field (R587)
  ⟨0x1003, 0x0E, some 4, .ro, .none, [], .any⟩,  -- Pre-defined error field (R587)
  ⟨0x1003, 0x0F, some 4, .ro, .none, [], .any⟩,  -- Pre-defined error field (R587)
  ⟨0x1003, 0x10, some 4, .ro, .none, [], .any⟩,  -- Pre-defined error field (R587)
  ⟨0x1008, 0x00, none, .ro, .none, [], .any⟩,  -- Device name (R587)
  ⟨0x1009, 0x00, none, .ro, .none, [], .any⟩,  -- Hardware version (R587)
  ⟨0x100A, 0x00, none, .ro, .none, [], .any⟩,  -- Software version (R587)
  ⟨0x1018, 0x01, some 4, .ro, .none, [], .any⟩,  -- Vendor-ID (R587)
  ⟨0x1018, 0x02, some 4, .ro, .none, [], .any⟩,  -- Product code (R587)
  ⟨0x1018, 0x03, some 4, .ro, .none, [], .any⟩,  -- Revision number (R587)
  ⟨0x1018, 0x04, some 4, .ro, .none, [], .any⟩,  -- Serial number (R587)
  ⟨0x2000, 0x01, some 1, .wo, .none, [], .nat 1 2⟩,  -- CTX_CTRL (R563)
  ⟨0x2000, 0x02, some 1, .ro, .none, [], .any⟩,  -- CTX_STATE (R563)
  ⟨0x2000, 0x03, some 4, .rw, .ctx, zeros 4, .any⟩,  -- PLAN_IMAGE (R563)
  ⟨0x2000, 0x04, some 4, .rw, .ctx, leBytes 4 1000, .nat 250 100000⟩,  -- PERIOD (R563)
  ⟨0x2000, 0x05, some 1, .rw, .ctx, zeros 1, .nat 0 1⟩,  -- FRAME_SRC (R563)
  ⟨0x2000, 0x06, some 4, .rw, .ctx, zeros 4, .any⟩,  -- PHASE (R563)
  ⟨0x2000, 0x07, some 1, .rw, .ctx, leBytes 1 1, .nat 1 16⟩,  -- SYNC_DIV (R563)
  ⟨0x2000, 0x08, some 2, .rw, .ctx, leBytes 2 20, .nat 1 1000⟩,  -- SYNC_TOL (R563)
  ⟨0x2000, 0x09, some 6, .rw, .ctx, zeros 6, .any⟩,  -- FRAME_FIRST (R563)
  ⟨0x2000, 0x0A, some 6, .ro, .none, [], .any⟩,  -- FRAME (R563)
  ⟨0x2000, 0x0B, none, .ro, .none, [], .any⟩,  -- RESULT (R563)
  ⟨0x2000, 0x0C, some 1, .rw, .ctx, leBytes 1 255, .any⟩,  -- RESULT_MBX (R563)
  ⟨0x2000, 0x0D, some 1, .rw, .ctx, zeros 1, .nat 0 3⟩,  -- RESULT_PUSH (R563)
  ⟨0x2000, 0x0E, some 1, .rw, .ctx, zeros 1, .nat 0 3⟩  -- RESULT_TPDO (R563)
  ]

/-- Objects 0x2000:0F to 0x2000:4C. -/
def dict1 : List ObjDef := [
  ⟨0x2000, 0x0F, some 4, .ro, .none, [], .any⟩,  -- SYNC_MISS (R563)
  ⟨0x2000, 0x10, some 4, .ro, .none, [], .any⟩,  -- JOINT_DROP (R563)
  ⟨0x2000, 0x20, some 2, .rwf, .none, zeros 2, .any⟩,  -- START_NODE (R219)
  ⟨0x2000, 0x21, some 4, .rwf, .none, zeros 4, .nat 0 1000000⟩,  -- START_DELAY (R219)
  ⟨0x2000, 0x22, some 1, .rwf, .none, zeros 1, .nat 0 2⟩,  -- GOAL_MODE (R219)
  ⟨0x2000, 0x23, some 2, .rwf, .none, zeros 2, .any⟩,  -- GOAL_NODE (R219)
  ⟨0x2000, 0x24, some 6, .rwf, .none, zeros 6, .any⟩,  -- GOAL_XYZ (R219)
  ⟨0x2000, 0x25, some 2, .rwf, .none, leBytes 2 40, .nat 0 4000⟩,  -- GOAL_TOL (R219)
  ⟨0x2000, 0x26, some 4, .rwf, .none, leBytes 4 0x3F800000, .real 0x00000000 0x41800000⟩,  -- HINT_W (R219)
  ⟨0x2000, 0x27, some 4, .rwf, .none, leBytes 4 0x3F800000, .real 0x00000000 0x41800000⟩,  -- GOAL_W (R219)
  ⟨0x2000, 0x28, some 4, .rw, .ctx, leBytes 4 0x3F800000, .real 0x3C23D70A 0x41200000⟩,  -- TCP_VMAX (R219)
  ⟨0x2000, 0x29, some 2, .rwf, .none, leBytes 2 40, .nat 0 4000⟩,  -- CLEAR_MIN (R219)
  ⟨0x2000, 0x2A, some 1, .rw, .ctx, zeros 1, .nat 0 1⟩,  -- CHECK_MODE (R219)
  ⟨0x2000, 0x2B, some 2, .rw, .ctx, leBytes 2 64, .nat 0 4096⟩,  -- XCHK_PERIOD (R219)
  ⟨0x2000, 0x2C, some 4, .rw, .ctx, leBytes 4 8192, .nat 256 131072⟩,  -- PQ_QUOTA (R219)
  ⟨0x2000, 0x2D, some 1, .ro, .none, [], .any⟩,  -- WAVES (R219)
  ⟨0x2000, 0x2E, some 2, .ro, .none, [], .any⟩,  -- NODES_PER_WAVE (R219)
  ⟨0x2000, 0x2F, some 4, .ro, .none, [], .any⟩,  -- CAND_MAX (R219)
  ⟨0x2000, 0x30, some 1, .ro, .none, [], .any⟩,  -- MODE_IN_FORCE (R219)
  ⟨0x2000, 0x31, some 4, .ro, .none, [], .any⟩,  -- CAND_LAST (R219)
  ⟨0x2000, 0x32, some 4, .ro, .none, [], .any⟩,  -- NARROW_LAST (R219)
  ⟨0x2000, 0x33, some 4, .ro, .none, [], .any⟩,  -- PASS_LAST (R219)
  ⟨0x2000, 0x34, some 1, .ro, .none, [], .any⟩,  -- WARM_LAST (R219)
  ⟨0x2000, 0x35, some 4, .ro, .none, [], .any⟩,  -- PQ_EVICT (R219)
  ⟨0x2000, 0x36, some 4, .ro, .none, [], .any⟩,  -- CAP_HIT (R219)
  ⟨0x2000, 0x37, some 4, .ro, .none, [], .any⟩,  -- XCHK_MISMATCH (R219)
  ⟨0x2000, 0x38, some 2, .ro, .none, [], .any⟩,  -- SEARCH_STATUS (R219)
  ⟨0x2000, 0x40, some 2, .rwf, .none, leBytes 2 4, .any⟩,  -- SELECT_K (R244)
  ⟨0x2000, 0x41, some 4, .rwf, .none, leBytes 4 0x3F800000, .real 0x00000000 0x41800000⟩,  -- W_KEY (R244)
  ⟨0x2000, 0x42, some 2, .rwf, .none, leBytes 2 200, .nat 0 4000⟩,  -- CLEAR_SOFT (R244)
  ⟨0x2000, 0x43, some 4, .rwf, .none, leBytes 4 0x40000000, .real 0x00000000 0x447A0000⟩,  -- W_CLEAR (R244)
  ⟨0x2000, 0x44, some 4, .rwf, .none, leBytes 4 0x3F800000, .real 0x00000000 0x41800000⟩,  -- W_NET (R244)
  ⟨0x2000, 0x45, some 4, .rw, .ctx, leBytes 4 0x42800000, .real 0x3F800000 0x44800000⟩,  -- NET_CLAMP (R244)
  ⟨0x2000, 0x46, some 4, .rwf, .none, leBytes 4 0x3F000000, .real 0x00000000 0x447A0000⟩,  -- NG_PEN (R244)
  ⟨0x2000, 0x47, some 4, .rwf, .none, leBytes 4 0x3CA3D70A, .real 0x00000000 0x3F800000⟩,  -- WARM_BIAS (R244)
  ⟨0x2000, 0x48, some 96, .rwf, .none, zeros 96, .reals none⟩,  -- FEAT_USER (R244)
  ⟨0x2000, 0x49, some 4, .ro, .none, [], .any⟩,  -- NET_SHAPE (R244)
  ⟨0x2000, 0x4A, some 4, .ro, .none, [], .any⟩,  -- SCORED_LAST (R244)
  ⟨0x2000, 0x4B, some 2, .ro, .none, [], .any⟩,  -- SEL_COUNT_LAST (R244)
  ⟨0x2000, 0x4C, some 4, .ro, .none, [], .any⟩  -- TIE_COUNT (R244)
  ]

/-- Objects 0x2000:4D to 0x2000:8F. -/
def dict2 : List ObjDef := [
  ⟨0x2000, 0x4D, some 4, .ro, .none, [], .any⟩,  -- NAN_COUNT (R244)
  ⟨0x2000, 0x4E, some 4, .ro, .none, [], .any⟩,  -- SCORE_MISMATCH (R244)
  ⟨0x2000, 0x4F, some 4, .ro, .none, [], .any⟩,  -- DUP_EDGE (R244)
  ⟨0x2000, 0x50, some 2, .ro, .none, [], .any⟩,  -- SELECT_STATUS (R244)
  ⟨0x2000, 0x60, some 1, .rw, .ctx, zeros 1, .any⟩,  -- SMOOTH_ITER (R279)
  ⟨0x2000, 0x61, some 1, .ro, .none, [], .any⟩,  -- ITER_PLAN (R279)
  ⟨0x2000, 0x62, some 4, .ro, .none, [], .any⟩,  -- H_STEP (R279)
  ⟨0x2000, 0x63, some 2, .ro, .none, [], .any⟩,  -- M_MAX (R279)
  ⟨0x2000, 0x64, none, .ro, .none, [], .any⟩,  -- VMAX (R279)
  ⟨0x2000, 0x65, none, .ro, .none, [], .any⟩,  -- AMAX (R279)
  ⟨0x2000, 0x66, none, .ro, .none, [], .any⟩,  -- JMAX (R279)
  ⟨0x2000, 0x67, none, .ro, .none, [], .any⟩,  -- CORRIDOR (R279)
  ⟨0x2000, 0x68, some 4, .rwf, .none, leBytes 4 0x3F800000, .real 0x3C23D70A 0x3F800000⟩,  -- SPEED_SCALE (R279)
  ⟨0x2000, 0x69, some 4, .rw, .ctx, leBytes 4 0x3F666666, .real 0x3F000000 0x3F800000⟩,  -- VMAX_FRAC (R279)
  ⟨0x2000, 0x6A, some 4, .rw, .ctx, leBytes 4 0x3F800000, .real 0x3A83126F 0x461C4000⟩,  -- W_SMOOTH (R279)
  ⟨0x2000, 0x6B, some 4, .rw, .ctx, leBytes 4 0x3DCCCCCD, .real 0x3A83126F 0x447A0000⟩,  -- W_DEV (R279)
  ⟨0x2000, 0x6C, some 4, .rw, .ctx, leBytes 4 0x3DCCCCCD, .real 0x38D1B717 0x447A0000⟩,  -- RHO (R279)
  ⟨0x2000, 0x6D, some 4, .rwf, .none, leBytes 4 0x3CA3D70A, .real 0x00000000 0x3DCCCCCD⟩,  -- BOUND_TOL (R279)
  ⟨0x2000, 0x6E, some 48, .rwf, .none, zeros 48, .reals (some (0xC2C80000, 0x42C80000))⟩,  -- BOUND_VEL (R279)
  ⟨0x2000, 0x6F, some 48, .rwf, .none, zeros 48, .reals (some (0xC61C4000, 0x461C4000))⟩,  -- BOUND_ACC (R279)
  ⟨0x2000, 0x70, some 1, .rwf, .none, zeros 1, .nat 0 1⟩,  -- SMOOTH_MODE (R279)
  ⟨0x2000, 0x71, some 4, .ro, .none, [], .any⟩,  -- FALLBACK_COUNT (R279)
  ⟨0x2000, 0x72, some 4, .ro, .none, [], .any⟩,  -- PIVOT_FIX_COUNT (R279)
  ⟨0x2000, 0x73, none, .ro, .none, [], .any⟩,  -- SMOOTH_LAST (R279)
  ⟨0x2000, 0x80, some 4, .rw, .ctx, zeros 4, .any⟩,  -- DEADLINE (R325)
  ⟨0x2000, 0x81, some 1, .rw, .ctx, leBytes 1 1, .nat 0 1⟩,  -- RELEASE_AT (R325)
  ⟨0x2000, 0x82, some 4, .rwf, .none, zeros 4, .any⟩,  -- VERIFY_POINT (R325)
  ⟨0x2000, 0x83, some 1, .rwf, .none, leBytes 1 2, .nat 0 2⟩,  -- VERIFY_RETRIES (R325)
  ⟨0x2000, 0x84, some 4, .rwf, .none, leBytes 4 500000, .nat 0 2000000⟩,  -- V_HOLD (R325)
  ⟨0x2000, 0x85, some 1, .ro, .none, [], .any⟩,  -- V_SUB (R325)
  ⟨0x2000, 0x86, some 2, .ro, .none, [], .any⟩,  -- V_PAD (R325)
  ⟨0x2000, 0x87, some 4, .ro, .none, [], .any⟩,  -- RETRY_TIME (R325)
  ⟨0x2000, 0x88, some 1, .rwf, .none, zeros 1, .nat 0 1⟩,  -- SYNC_OUT_EN (R325)
  ⟨0x2000, 0x89, some 2, .rw, .ctx, leBytes 2 2, .nat 1 100⟩,  -- SYNC_OUT_W (R325)
  ⟨0x2000, 0x8A, some 1, .rw, .ctx, leBytes 1 4, .nat 2 16⟩,  -- RESULT_RING (R325)
  ⟨0x2000, 0x8B, some 4, .ro, .none, [], .any⟩,  -- VERIFY_FAIL_COUNT (R325)
  ⟨0x2000, 0x8C, some 4, .ro, .none, [], .any⟩,  -- WORLD_CHANGED_COUNT (R325)
  ⟨0x2000, 0x8D, some 4, .ro, .none, [], .any⟩,  -- DISAGREE_COUNT (R325)
  ⟨0x2000, 0x8E, some 4, .ro, .none, [], .any⟩,  -- LATE_COUNT (R325)
  ⟨0x2000, 0x8F, some 4, .ro, .none, [], .any⟩  -- NO_PATH_COUNT (R325)
  ]

/-- Objects 0x2000:90 to 0x2101:01. -/
def dict3 : List ObjDef := [
  ⟨0x2000, 0x90, some 1, .rw, .ctx, zeros 1, .nat 0 7⟩,  -- TIME_PART (R380)
  ⟨0x2000, 0xA0, some 1, .rw, .ctx, zeros 1, .nat 0 1⟩,  -- THROTTLE_POLICY (R425)
  ⟨0x2100, 0x01, some 2, .rw, .fuse, leBytes 2 65436, .int (-102) 102⟩,  -- BOX_LO_X (R98)
  ⟨0x2100, 0x02, some 2, .rw, .fuse, leBytes 2 65436, .int (-102) 102⟩,  -- BOX_LO_Y (R98)
  ⟨0x2100, 0x03, some 2, .rw, .fuse, leBytes 2 65511, .int (-102) 102⟩,  -- BOX_LO_Z (R98)
  ⟨0x2100, 0x04, some 2, .rw, .fuse, leBytes 2 200, .nat 1 200⟩,  -- BOX_SIZE_X (R98)
  ⟨0x2100, 0x05, some 2, .rw, .fuse, leBytes 2 200, .nat 1 200⟩,  -- BOX_SIZE_Y (R98)
  ⟨0x2100, 0x06, some 2, .rw, .fuse, leBytes 2 50, .nat 1 50⟩,  -- BOX_SIZE_Z (R98)
  ⟨0x2100, 0x07, some 4, .rw, .fuse, zeros 4, .any⟩,  -- L1_LO (R98)
  ⟨0x2100, 0x08, some 4, .rw, .fuse, zeros 4, .any⟩,  -- L1_SIZE (R98)
  ⟨0x2100, 0x09, some 4, .rw, .fuse, zeros 4, .any⟩,  -- L0_LO (R98)
  ⟨0x2100, 0x0A, some 4, .rw, .fuse, zeros 4, .any⟩,  -- L0_SIZE (R98)
  ⟨0x2100, 0x0B, some 2, .rw, .fuse, leBytes 2 528, .any⟩,  -- EXP_LVL (R98)
  ⟨0x2100, 0x0C, some 2, .rw, .fuse, leBytes 2 240, .nat 10 1000⟩,  -- HORIZON (R98)
  ⟨0x2100, 0x0D, some 1, .rwf, .none, leBytes 1 14, .int 1 127⟩,  -- L_HIT (R98)
  ⟨0x2100, 0x0E, some 1, .rwf, .none, leBytes 1 252, .int (-127) (-1)⟩,  -- L_MISS (R98)
  ⟨0x2100, 0x0F, some 1, .rwf, .none, leBytes 1 192, .int (-127) 126⟩,  -- L_MIN (R98)
  ⟨0x2100, 0x10, some 1, .rwf, .none, leBytes 1 96, .int (-126) 127⟩,  -- L_MAX (R98)
  ⟨0x2100, 0x11, some 1, .rw, .fuse, leBytes 1 32, .int (-126) 127⟩,  -- L_OCC (R98)
  ⟨0x2100, 0x12, some 1, .rw, .fuse, leBytes 1 224, .int (-127) 126⟩,  -- L_PRUNE (R98)
  ⟨0x2100, 0x13, some 1, .rw, .fuse, zeros 1, .nat 0 1⟩,  -- UNKNOWN_AS (R98)
  ⟨0x2100, 0x14, some 4, .rw, .fuse, leBytes 4 8192, .nat 1024 65536⟩,  -- POOL_RESERVE (R98)
  ⟨0x2100, 0x15, some 1, .rw, .fuse, leBytes 1 2, .nat 1 8⟩,  -- LAG (R98)
  ⟨0x2100, 0x16, some 4, .ro, .none, [], .any⟩,  -- TICK_PERIOD (R98)
  ⟨0x2100, 0x17, some 4, .rw, .fuse, zeros 4, .any⟩,  -- DYN_LO (R98)
  ⟨0x2100, 0x18, some 4, .rw, .fuse, leBytes 4 67272864, .any⟩,  -- DYN_SIZE (R98)
  ⟨0x2100, 0x19, some 1, .rw, .fuse, leBytes 1 10, .nat 1 100⟩,  -- FC_PERIOD (R98)
  ⟨0x2100, 0x1A, some 1, .rw, .fuse, leBytes 1 2, .nat 1 100⟩,  -- FC_LAG (R98)
  ⟨0x2100, 0x1B, some 4, .rwf, .none, leBytes 4 0xBF800000, .real 0xC1000000 0x41000000⟩,  -- FC_THRESH (R98)
  ⟨0x2100, 0x1C, some 4, .rw, .fuse, leBytes 4 30000, .nat 1000 1000000⟩,  -- FC_STALE (R98)
  ⟨0x2100, 0x1D, some 2, .rwf, .none, leBytes 2 20, .nat 0 200⟩,  -- SELF_MARGIN (R98)
  ⟨0x2100, 0x1E, some 4, .rw, .fuse, leBytes 4 5000, .nat 100 100000⟩,  -- SELF_STALE (R98)
  ⟨0x2100, 0x1F, some 4, .rw, .fuse, zeros 4, .any⟩,  -- FC_IMAGE (R98)
  ⟨0x2100, 0x20, some 4, .ro, .none, [], .any⟩,  -- EPOCH (R98)
  ⟨0x2100, 0x21, some 4, .ro, .none, [], .any⟩,  -- POOL_FREE (R98)
  ⟨0x2100, 0x22, some 4, .ro, .none, [], .any⟩,  -- COARSEN_COUNT (R98)
  ⟨0x2100, 0x23, some 4, .ro, .none, [], .any⟩,  -- ALLOC_FAIL (R98)
  ⟨0x2100, 0x24, some 4, .ro, .none, [], .any⟩,  -- FC_STALE_COUNT (R98)
  ⟨0x2100, 0x25, some 4, .ro, .none, [], .any⟩,  -- UPD_REJECT (R98)
  ⟨0x2101, 0x01, some 128, .rw, .stream, [], .any⟩  -- CAM_REC_0.. (R103)
  ]

/-- Objects 0x2101:02 to 0x2201:16. -/
def dict4 : List ObjDef := [
  ⟨0x2101, 0x02, some 128, .rw, .stream, [], .any⟩,  -- CAM_REC_0.. (R103)
  ⟨0x2101, 0x03, some 128, .rw, .stream, [], .any⟩,  -- CAM_REC_0.. (R103)
  ⟨0x2101, 0x04, some 128, .rw, .stream, [], .any⟩,  -- CAM_REC_0.. (R103)
  ⟨0x2101, 0x05, some 128, .rw, .stream, [], .any⟩,  -- CAM_REC_0.. (R103)
  ⟨0x2101, 0x06, some 128, .rw, .stream, [], .any⟩,  -- CAM_REC_0.. (R103)
  ⟨0x2101, 0x07, some 128, .rw, .stream, [], .any⟩,  -- CAM_REC_0.. (R103)
  ⟨0x2101, 0x08, some 128, .rw, .stream, [], .any⟩,  -- CAM_REC_0.. (R103)
  ⟨0x2101, 0x09, some 128, .rw, .stream, [], .any⟩,  -- CAM_REC_0.. (R103)
  ⟨0x2101, 0x0A, some 128, .rw, .stream, [], .any⟩,  -- CAM_REC_0.. (R103)
  ⟨0x2101, 0x0B, some 128, .rw, .stream, [], .any⟩,  -- CAM_REC_0.. (R103)
  ⟨0x2101, 0x0C, some 128, .rw, .stream, [], .any⟩,  -- CAM_REC_0.. (R103)
  ⟨0x2101, 0x0D, some 128, .rw, .stream, [], .any⟩,  -- CAM_REC_0.. (R103)
  ⟨0x2101, 0x0E, some 128, .rw, .stream, [], .any⟩,  -- CAM_REC_0.. (R103)
  ⟨0x2101, 0x0F, some 128, .rw, .stream, [], .any⟩,  -- CAM_REC_0.. (R103)
  ⟨0x2101, 0x10, some 128, .rw, .stream, [], .any⟩,  -- CAM_REC_0.. (R103)
  ⟨0x2200, 0x01, some 4, .ro, .none, [], .any⟩,  -- EDGE_TOTAL (R171)
  ⟨0x2200, 0x02, some 4, .ro, .none, [], .any⟩,  -- NODE_TOTAL (R171)
  ⟨0x2200, 0x03, some 1, .ro, .none, [], .any⟩,  -- LOADER_QUEUE (R171)
  ⟨0x2201, 0x01, some 4, .rw, .ctx, zeros 4, .nat 0 65535⟩,  -- N_BASE (R171)
  ⟨0x2201, 0x02, some 4, .rw, .ctx, zeros 4, .nat 0 65536⟩,  -- N_SIZE (R171)
  ⟨0x2201, 0x03, some 4, .rw, .ctx, zeros 4, .nat 0 262143⟩,  -- E_BASE (R171)
  ⟨0x2201, 0x04, some 4, .rw, .ctx, zeros 4, .nat 0 262144⟩,  -- E_SIZE (R171)
  ⟨0x2201, 0x05, some 1, .rw, .ctx, zeros 1, .nat 0 1⟩,  -- STANDBY (R171)
  ⟨0x2201, 0x06, some 64, .rwf, .none, zeros 64, .any⟩,  -- LIBRARY (R171)
  ⟨0x2201, 0x07, some 1, .rwf, .none, zeros 1, .nat 0 15⟩,  -- PAYLOAD_ID (R171)
  ⟨0x2201, 0x08, some 4, .rwf, .none, zeros 4, .any⟩,  -- PRELOAD (R171)
  ⟨0x2201, 0x09, some 1, .ro, .none, [], .any⟩,  -- RM_STATE (R171)
  ⟨0x2201, 0x0A, some 4, .ro, .none, [], .any⟩,  -- ACTIVE (R171)
  ⟨0x2201, 0x0B, some 1, .ro, .none, [], .any⟩,  -- ACTIVE_PART (R171)
  ⟨0x2201, 0x0C, some 4, .ro, .none, [], .any⟩,  -- N_COUNT (R171)
  ⟨0x2201, 0x0D, some 4, .ro, .none, [], .any⟩,  -- E_COUNT (R171)
  ⟨0x2201, 0x0E, none, .ro, .none, [], .any⟩,  -- CHAIN (R171)
  ⟨0x2201, 0x0F, some 1, .ro, .none, [], .any⟩,  -- STBY_STATE (R171)
  ⟨0x2201, 0x10, some 4, .ro, .none, [], .any⟩,  -- STBY_HANDLE (R171)
  ⟨0x2201, 0x11, some 4, .ro, .none, [], .any⟩,  -- LOAD_STATUS (R171)
  ⟨0x2201, 0x12, some 4, .ro, .none, [], .any⟩,  -- DELTA_APPLIED (R171)
  ⟨0x2201, 0x13, some 4, .ro, .none, [], .any⟩,  -- DELTA_REFUSED (R171)
  ⟨0x2201, 0x14, none, .wo, .none, [], .any⟩,  -- DELTA_IN (R171)
  ⟨0x2201, 0x15, some 1, .rw, .none, zeros 1, .nat 1 1⟩,  -- AUDIT (R171)
  ⟨0x2201, 0x16, none, .ro, .none, [], .any⟩  -- CONTENT (R171)
  ]

/-- Objects 0x2201:17 to 0x2500:07. -/
def dict5 : List ObjDef := [
  ⟨0x2201, 0x17, some 4, .ro, .none, [], .any⟩,  -- TABLE_FAULTS (R171)
  ⟨0x2300, 0x01, some 1, .ro, .none, [], .any⟩,  -- SAFE_STATE (R504)
  ⟨0x2300, 0x02, some 4, .ro, .none, [], .any⟩,  -- PART_CAUSE (R504)
  ⟨0x2300, 0x03, some 1, .wo, .none, [], .nat 1 1⟩,  -- PART_REQ (R504)
  ⟨0x2300, 0x04, some 1, .wo, .none, [], .nat 1 1⟩,  -- PART_CLEAR (R504)
  ⟨0x2300, 0x05, some 1, .rw, .anyCtx, leBytes 1 1, .nat 0 1⟩,  -- PULSE_EN (R504)
  ⟨0x2300, 0x06, some 4, .ro, .none, [], .any⟩,  -- STEP_S (R504)
  ⟨0x2300, 0x07, some 4, .ro, .none, [], .any⟩,  -- FTTI_MIN (R504)
  ⟨0x2300, 0x08, some 4, .ro, .none, [], .any⟩,  -- TILE_MAX (R504)
  ⟨0x2300, 0x09, some 4, .ro, .none, [], .any⟩,  -- GF_PASS (R504)
  ⟨0x2300, 0x0A, some 4, .ro, .none, [], .any⟩,  -- GF_FAIL (R504)
  ⟨0x2300, 0x0B, some 2, .ro, .none, [], .any⟩,  -- START_TEST (R504)
  ⟨0x2300, 0x0C, some 2, .ro, .none, [], .any⟩,  -- RUN_TEST (R504)
  ⟨0x2300, 0x0D, some 4, .ro, .none, [], .any⟩,  -- TEST_AGE (R504)
  ⟨0x2301, 0x01, some 1, .rw, .ctx, leBytes 1 1, .nat 0 1⟩,  -- SAFETY_ROLE (R504)
  ⟨0x2301, 0x02, some 1, .ro, .none, [], .any⟩,  -- SSTATE (R504)
  ⟨0x2301, 0x03, some 1, .ro, .none, [], .any⟩,  -- CAUSE (R504)
  ⟨0x2301, 0x04, some 1, .wo, .none, [], .nat 1 1⟩,  -- SAFE_REQ (R504)
  ⟨0x2301, 0x05, some 1, .wo, .none, [], .nat 1 1⟩,  -- SAFE_CLEAR (R504)
  ⟨0x2301, 0x06, some 4, .ro, .none, [], .any⟩,  -- SAFE_COUNT (R504)
  ⟨0x2301, 0x07, some 4, .ro, .none, [], .any⟩,  -- TILE_MAX_CTX (R504)
  ⟨0x2400, 0x01, some 2, .ro, .none, [], .any⟩,  -- CL (R3)
  ⟨0x2400, 0x10, none, .ro, .none, [], .any⟩,  -- FAULT_LOG (R549)
  ⟨0x2400, 0x11, some 4, .ro, .none, [], .any⟩,  -- FAULT_SEQ (R549)
  ⟨0x2400, 0x12, some 4, .rw, .anyCtx, zeros 4, .any⟩,  -- DUMP_BASE (R549)
  ⟨0x2400, 0x13, some 4, .rw, .anyCtx, zeros 4, .any⟩,  -- DUMP_SIZE (R549)
  ⟨0x2400, 0x14, some 1, .wo, .none, [], .nat 1 1⟩,  -- DUMP_REQ (R549)
  ⟨0x2400, 0x15, some 1, .ro, .none, [], .any⟩,  -- DUMP_STATE (R549)
  ⟨0x2400, 0x16, none, .ro, .none, [], .any⟩,  -- DUMP_SUMMARY (R549)
  ⟨0x2400, 0x17, none, .ro, .none, [], .any⟩,  -- DUMP_RET (R549)
  ⟨0x2400, 0x18, some 1, .wo, .none, [], .nat 0 29⟩,  -- DOMAIN_RESET (R549)
  ⟨0x2400, 0x19, none, .ro, .none, [], .any⟩,  -- WEAR (R549)
  ⟨0x2400, 0x1A, some 1, .ro, .none, [], .any⟩,  -- LIFE_PCT (R549)
  ⟨0x2500, 0x01, some 1, .ro, .none, [], .any⟩,  -- BOOT_STATE (R653)
  ⟨0x2500, 0x02, some 1, .ro, .none, [], .any⟩,  -- LIFECYCLE (R653)
  ⟨0x2500, 0x03, some 4, .ro, .none, [], .any⟩,  -- CFG_VERSION (R653)
  ⟨0x2500, 0x04, none, .ro, .none, [], .any⟩,  -- CFG_DIGEST (R653)
  ⟨0x2500, 0x05, none, .ro, .none, [], .any⟩,  -- FW_DIGEST (R653)
  ⟨0x2500, 0x06, none, .ro, .none, [], .any⟩,  -- DEVICE_ID (R653)
  ⟨0x2500, 0x07, none, .ro, .none, [], .any⟩  -- DEVICE_CERT (R653)
  ]

/-- Objects 0x2500:08 to 0x2500:5C. -/
def dict6 : List ObjDef := [
  ⟨0x2500, 0x08, some 32, .wo, .none, [], .any⟩,  -- ATTEST_NONCE (R653)
  ⟨0x2500, 0x09, some 1, .ro, .none, [], .any⟩,  -- ATTEST_STATE (R653)
  ⟨0x2500, 0x0A, none, .ro, .none, [], .any⟩,  -- ATTEST_REPORT (R653)
  ⟨0x2500, 0x10, some 16, .wo, .none, [], .any⟩,  -- IMG_REGISTER (R653)
  ⟨0x2500, 0x11, some 4, .wo, .none, [], .any⟩,  -- IMG_UNREGISTER (R653)
  ⟨0x2500, 0x12, none, .ro, .none, [], .any⟩,  -- IMG_TABLE (R653)
  ⟨0x2500, 0x20, none, .ro, .none, [], .any⟩,  -- SLOT_TABLE (R653)
  ⟨0x2500, 0x21, some 1, .ro, .none, [], .any⟩,  -- TAG_POLL (R653)
  ⟨0x2500, 0x22, some 4, .ro, .none, [], .any⟩,  -- READ_FAIL (R653)
  ⟨0x2500, 0x23, some 4, .ro, .none, [], .any⟩,  -- TAG_INVALID (R653)
  ⟨0x2500, 0x24, some 4, .ro, .none, [], .any⟩,  -- TOOL_CHANGES (R653)
  ⟨0x2500, 0x40, none, .ro, .none, [], .any⟩,  -- TAG_0.. (R653)
  ⟨0x2500, 0x41, none, .ro, .none, [], .any⟩,  -- TAG_0.. (R653)
  ⟨0x2500, 0x42, none, .ro, .none, [], .any⟩,  -- TAG_0.. (R653)
  ⟨0x2500, 0x43, none, .ro, .none, [], .any⟩,  -- TAG_0.. (R653)
  ⟨0x2500, 0x44, none, .ro, .none, [], .any⟩,  -- TAG_0.. (R653)
  ⟨0x2500, 0x45, none, .ro, .none, [], .any⟩,  -- TAG_0.. (R653)
  ⟨0x2500, 0x46, none, .ro, .none, [], .any⟩,  -- TAG_0.. (R653)
  ⟨0x2500, 0x47, none, .ro, .none, [], .any⟩,  -- TAG_0.. (R653)
  ⟨0x2500, 0x48, none, .ro, .none, [], .any⟩,  -- TAG_0.. (R653)
  ⟨0x2500, 0x49, none, .ro, .none, [], .any⟩,  -- TAG_0.. (R653)
  ⟨0x2500, 0x4A, none, .ro, .none, [], .any⟩,  -- TAG_0.. (R653)
  ⟨0x2500, 0x4B, none, .ro, .none, [], .any⟩,  -- TAG_0.. (R653)
  ⟨0x2500, 0x4C, none, .ro, .none, [], .any⟩,  -- TAG_0.. (R653)
  ⟨0x2500, 0x4D, none, .ro, .none, [], .any⟩,  -- TAG_0.. (R653)
  ⟨0x2500, 0x4E, none, .ro, .none, [], .any⟩,  -- TAG_0.. (R653)
  ⟨0x2500, 0x4F, none, .ro, .none, [], .any⟩,  -- TAG_0.. (R653)
  ⟨0x2500, 0x50, none, .ro, .none, [], .any⟩,  -- TAG_0.. (R653)
  ⟨0x2500, 0x51, none, .ro, .none, [], .any⟩,  -- TAG_0.. (R653)
  ⟨0x2500, 0x52, none, .ro, .none, [], .any⟩,  -- TAG_0.. (R653)
  ⟨0x2500, 0x53, none, .ro, .none, [], .any⟩,  -- TAG_0.. (R653)
  ⟨0x2500, 0x54, none, .ro, .none, [], .any⟩,  -- TAG_0.. (R653)
  ⟨0x2500, 0x55, none, .ro, .none, [], .any⟩,  -- TAG_0.. (R653)
  ⟨0x2500, 0x56, none, .ro, .none, [], .any⟩,  -- TAG_0.. (R653)
  ⟨0x2500, 0x57, none, .ro, .none, [], .any⟩,  -- TAG_0.. (R653)
  ⟨0x2500, 0x58, none, .ro, .none, [], .any⟩,  -- TAG_0.. (R653)
  ⟨0x2500, 0x59, none, .ro, .none, [], .any⟩,  -- TAG_0.. (R653)
  ⟨0x2500, 0x5A, none, .ro, .none, [], .any⟩,  -- TAG_0.. (R653)
  ⟨0x2500, 0x5B, none, .ro, .none, [], .any⟩,  -- TAG_0.. (R653)
  ⟨0x2500, 0x5C, none, .ro, .none, [], .any⟩  -- TAG_0.. (R653)
  ]

/-- Objects 0x2500:5D to 0x2700:14. -/
def dict7 : List ObjDef := [
  ⟨0x2500, 0x5D, none, .ro, .none, [], .any⟩,  -- TAG_0.. (R653)
  ⟨0x2500, 0x5E, none, .ro, .none, [], .any⟩,  -- TAG_0.. (R653)
  ⟨0x2500, 0x5F, none, .ro, .none, [], .any⟩,  -- TAG_0.. (R653)
  ⟨0x2600, 0x01, some 2, .ro, .none, [], .any⟩,  -- VCORE_SET (R683)
  ⟨0x2600, 0x02, some 2, .ro, .none, [], .any⟩,  -- VCORE_READ (R683)
  ⟨0x2600, 0x03, some 2, .ro, .none, [], .any⟩,  -- ICORE_READ (R683)
  ⟨0x2600, 0x04, some 4, .ro, .none, [], .any⟩,  -- PCORE (R683)
  ⟨0x2600, 0x05, some 1, .ro, .none, [], .any⟩,  -- TJ_MAX (R683)
  ⟨0x2600, 0x06, none, .ro, .none, [], .any⟩,  -- TJ_DIE (R683)
  ⟨0x2600, 0x07, some 1, .rw, .anyCtx, leBytes 1 100, .nat 80 105⟩,  -- THROT_T (R683)
  ⟨0x2600, 0x08, some 4, .rw, .anyCtx, leBytes 4 42000, .nat 5000 42000⟩,  -- P_LIMIT (R683)
  ⟨0x2600, 0x09, some 1, .rw, .anyCtx, leBytes 1 1, .nat 0 1⟩,  -- DOZE_EN (R683)
  ⟨0x2600, 0x0A, some 2, .rw, .anyCtx, leBytes 2 20, .nat 10 200⟩,  -- WAKE_LEAD (R683)
  ⟨0x2600, 0x0B, some 1, .rw, .anyCtx, zeros 1, .nat 0 1⟩,  -- HOST_DOZE_EN (R683)
  ⟨0x2600, 0x0C, none, .ro, .none, [], .any⟩,  -- PSRAM_SIZE (R683)
  ⟨0x2600, 0x0D, some 6, .rw, .none, zeros 6, .any⟩,  -- RTC (R683)
  ⟨0x2600, 0x0E, some 6, .rw, .none, zeros 6, .any⟩,  -- RTC_ALARM (R683)
  ⟨0x2600, 0x0F, some 1, .wo, .none, [], .nat 1 1⟩,  -- OFF_REQ (R683)
  ⟨0x2600, 0x10, some 4, .ro, .none, [], .any⟩,  -- PMBUS_FAIL (R683)
  ⟨0x2600, 0x11, some 4, .ro, .none, [], .any⟩,  -- DOZE_COUNT (R683)
  ⟨0x2700, 0x01, some 1, .rw, .anyCtx, leBytes 1 1, .nat 0 1⟩,  -- STRICT (R443)
  ⟨0x2700, 0x02, some 1, .rw, .anyCtx, zeros 1, .nat 0 2⟩,  -- REC_MODE (R443)
  ⟨0x2700, 0x03, some 4, .rw, .anyCtx, zeros 4, .any⟩,  -- REC_BASE (R443)
  ⟨0x2700, 0x04, some 4, .rw, .anyCtx, zeros 4, .any⟩,  -- REC_SIZE (R443)
  ⟨0x2700, 0x05, some 4, .rw, .anyCtx, zeros 4, .any⟩,  -- SEED_BASE (R443)
  ⟨0x2700, 0x06, some 4, .rw, .anyCtx, zeros 4, .any⟩,  -- SEED_SIZE (R443)
  ⟨0x2700, 0x07, some 4, .rw, .anyCtx, zeros 4, .any⟩,  -- SEED_PERIOD (R443)
  ⟨0x2700, 0x08, some 1, .ro, .none, [], .any⟩,  -- REC_STATE (R443)
  ⟨0x2700, 0x09, some 4, .ro, .none, [], .any⟩,  -- REC_HEAD (R443)
  ⟨0x2700, 0x0A, some 6, .ro, .none, [], .any⟩,  -- REC_OLDEST (R443)
  ⟨0x2700, 0x0B, some 6, .ro, .none, [], .any⟩,  -- SEED_TICK (R443)
  ⟨0x2700, 0x0C, some 4, .ro, .none, [], .any⟩,  -- SEED_ABANDON (R443)
  ⟨0x2700, 0x0D, some 4, .ro, .none, [], .any⟩,  -- REC_GAPS (R443)
  ⟨0x2700, 0x0E, some 4, .wo, .none, [], .any⟩,  -- MARK (R443)
  ⟨0x2700, 0x0F, some 4, .rw, .anyCtx, zeros 4, .any⟩,  -- REPLAY_SRC (R443)
  ⟨0x2700, 0x10, some 1, .wo, .none, [], .nat 1 5⟩,  -- REPLAY_CMD (R443)
  ⟨0x2700, 0x11, some 6, .rw, .anyCtx, zeros 6, .any⟩,  -- PAUSE_TICK (R443)
  ⟨0x2700, 0x12, some 1, .rw, .anyCtx, zeros 1, .nat 0 1⟩,  -- REPLAY_PACE (R443)
  ⟨0x2700, 0x13, some 1, .rw, .anyCtx, leBytes 1 1, .nat 0 1⟩,  -- WARM_SOURCE (R443)
  ⟨0x2700, 0x14, some 1, .ro, .none, [], .any⟩  -- REPLAY_STATE (R443)
  ]

/-- Objects 0x2700:15 to 0x2800:0D. -/
def dict8 : List ObjDef := [
  ⟨0x2700, 0x15, some 6, .ro, .none, [], .any⟩,  -- REPLAY_TICK (R443)
  ⟨0x2700, 0x16, some 4, .ro, .none, [], .any⟩,  -- REPLAY_MISMATCH (R443)
  ⟨0x2700, 0x17, some 4, .ro, .none, [], .any⟩,  -- EXPECTED_DIFF (R443)
  ⟨0x2700, 0x18, none, .ro, .none, [], .any⟩,  -- FIRST_MISMATCH (R443)
  ⟨0x2700, 0x19, some 1, .ro, .none, [], .any⟩,  -- THROTTLE_STEP (R443)
  ⟨0x2800, 0x01, some 2, .ro, .none, [], .any⟩,  -- HEDGE_ADDR (R622)
  ⟨0x2800, 0x02, some 1, .ro, .none, [], .any⟩,  -- HEDGE_ROLE (R622)
  ⟨0x2800, 0x03, some 1, .ro, .none, [], .any⟩,  -- LEVELS (R622)
  ⟨0x2800, 0x04, some 4, .ro, .none, [], .any⟩,  -- CHIPS_EXPECTED (R622)
  ⟨0x2800, 0x05, some 4, .ro, .none, [], .any⟩,  -- CHIPS_IN (R622)
  ⟨0x2800, 0x06, none, .ro, .none, [], .any⟩,  -- MEMBER_STATE (R622)
  ⟨0x2800, 0x07, some 4, .ro, .none, [], .any⟩,  -- LOST_COUNT (R622)
  ⟨0x2800, 0x08, some 4, .ro, .none, [], .any⟩,  -- REFUSED_LAST (R622)
  ⟨0x2800, 0x09, some 1, .rw, .anyCtx, leBytes 1 1, .nat 0 1⟩,  -- AUTO_READMIT (R622)
  ⟨0x2800, 0x0A, some 4, .rw, .anyCtx, leBytes 4 100, .nat 20 10000⟩,  -- MEMBER_TIMEOUT (R622)
  ⟨0x2800, 0x0B, some 2, .wo, .none, [], .any⟩,  -- EXCLUDE (R622)
  ⟨0x2800, 0x0C, some 2, .wo, .none, [], .any⟩,  -- ADMIT (R622)
  ⟨0x2800, 0x0D, some 4, .ro, .none, [], .any⟩  -- LINK_STATE (R622)
  ]

/-- The object dictionary (R586). -/
def dictionary : List ObjDef := dict0 ++ dict1 ++ dict2 ++ dict3 ++ dict4 ++ dict5 ++ dict6 ++ dict7 ++ dict8

/-- The context that an index names, and the index of its table row. -/
def objCtx (index : Nat) : Option CtxId × Nat :=
  if 0x2000 ≤ index ∧ index ≤ 0x200F then (some (Fin.ofNat 16 (index - 0x2000)), 0x2000)
  else if 0x2201 ≤ index ∧ index ≤ 0x2210 then (some (Fin.ofNat 16 (index - 0x2201)), 0x2201)
  else if 0x2301 ≤ index ∧ index ≤ 0x2310 then (some (Fin.ofNat 16 (index - 0x2301)), 0x2301)
  else (none, index)

/-- The row of an object. -/
def objDef (index sub : Nat) : Option ObjDef :=
  let base := (objCtx index).2
  dictionary.find? fun d => d.index == base && d.sub == sub

/-- Whether any object has an index. -/
def indexExists (index : Nat) : Bool :=
  let base := (objCtx index).2
  dictionary.any fun d => d.index == base

def objKey (index sub : Nat) : Nat := index * 256 + sub

/-- The value written last, or the default (R15). -/
def shadowVal (s : State) (index sub : Nat) : Bytes :=
  match amGet s.shadow (objKey index sub) with
  | some b => b
  | none => match objDef index sub with
    | some d => d.dflt
    | none => []

/-- The value in force: of a live object the one applied at the last frame boundary (R14-R16), of any other the value. -/
def forceVal (s : State) (index sub : Nat) : Bytes :=
  match objDef index sub with
  | some d =>
    match amGet (if d.acc == .rwf then s.force else s.shadow) (objKey index sub) with
    | some b => b
    | none => d.dflt
  | none => []

def oNat (s : State) (index sub : Nat) : Nat := leNat (shadowVal s index sub)
def fNat (s : State) (index sub : Nat) : Nat := leNat (forceVal s index sub)

/-- Object `sub` of context c at 0x2000 + c, 0x2201 + c, 0x2301 + c: value or value in force. -/
def cNat (s : State) (c : CtxId) (sub : Nat) : Nat := fNat s (0x2000 + c.val) sub
def rmNat (s : State) (c : CtxId) (sub : Nat) : Nat := fNat s (0x2201 + c.val) sub
def safNat (s : State) (c : CtxId) (sub : Nat) : Nat := fNat s (0x2301 + c.val) sub
/-- World object `sub` of 0x2100 in force, unsigned and signed. -/
def wNat (s : State) (sub : Nat) : Nat := fNat s 0x2100 sub
def wInt8 (s : State) (sub : Nat) : Int := sext 8 (wNat s sub)
def wInt16 (s : State) (sub : Nat) : Int := sext 16 (wNat s sub)

/-- A value applied: to the shadow, which is the value for every object that is not live (R556). -/
def setObj (s : State) (index sub : Nat) (v : Bytes) : State :=
  { s with shadow := amPut s.shadow (objKey index sub) v }

/-- DEADLINE as it reads (R711): floor(9 × PERIOD / 10) µs until it is first written. -/
def deadlineUs (s : State) (c : CtxId) : Nat :=
  match amGet s.shadow (objKey (0x2000 + c.val) 0x80) with
  | some b => leNat b
  | none => 9 * cNat s c 0x04 / 10

/-- The shadow that a frame boundary now takes: without the writes that complete at this edge (R14). -/
def boundaryShadow (s : State) : List (Nat × Bytes) := if s.edgeAt = some s.clk.now then s.edgeShadow else s.shadow

/-- A write of a port completes at this edge (R14, R556). -/
def writeObj (s : State) (index sub : Nat) (v : Bytes) : State :=
  let old := boundaryShadow s
  { s with shadow := amPut s.shadow (objKey index sub) v, edgeAt := some s.clk.now, edgeShadow := old }

/-- The live objects of an index whose shadow differs from the value in force, with their values (R14-R16, R427). -/
def pendingLive (s : State) (index : Nat) : List (Nat × Bytes) :=
  (boundaryShadow s).filterMap fun (k, v) =>
    if k / 256 == index then
      match objDef index (k % 256) with
      | some d => if d.acc == .rwf && decide (forceVal s index (k % 256) ≠ v) then some (k % 256, v) else none
      | none => none
    else none

/-- Every pending live object of an index takes effect together (R16). DESIGN CHOICE (log 107): a voxel whose log-odds lie beyond a
newly written L_MIN or L_MAX stays as it is until its next update. -/
def applyLive (s : State) (index : Nat) : State :=
  { s with force := (pendingLive s index).foldl (fun m e => amPut m (objKey index e.1) e.2) s.force }

end Sys2Proof.Machine
end

