-- ==== Sys2Proof/Machine/LinkPorts.lean ====
section
/-! DEFINITION. Sending on the Moaken links: flits, routes, broadcasts (R594, R595, R602, R603), and the roles of a hedge
(R601). -/

namespace Sys2Proof.Machine

/-! ## Roles and routes -/

/-- The chip's address, of 16 bits; 0 in no hedge (R41). -/
def hedgeAddr (s : State) : Nat := if s.boot.cfg.hedge.levels = 0 then 0 else s.boot.cfg.hedge.addr % 65536

/-- The role by address (R601, R622): 0 single, 1 member, 2 unit root, 3 top root. -/
def hedgeRole (s : State) : Nat :=
  let h := s.boot.cfg.hedge
  if h.levels = 0 then 0 else if hedgeAddr s = 0 then 3 else if h.levels = 2 ∧ hedgeAddr s % 256 = 0 then 2 else 1

/-- The chip has been admitted by a top root (R608). -/
def isMember (s : State) : Bool := s.hedge.admitted && (hedgeRole s == 1 || hedgeRole s == 2)

/-- The chip that takes what this one sends upward: a member's unit root, else the top root (R604, R614). -/
def upAddr (s : State) : Nat :=
  if s.boot.cfg.hedge.levels = 2 ∧ hedgeAddr s % 256 ≠ 0 then hedgeAddr s / 256 * 256 else 0

/-- The output port towards a chip (R602). -/
def portTo (s : State) (dest : Nat) : Option LinkId :=
  let h := s.boot.cfg.hedge
  let p := if dest / 256 ≠ hedgeAddr s / 256 then amGet h.lvl2 (dest / 256) else amGet h.lvl1 (dest % 256)
  p.bind fun k => if h : k < 6 then some ⟨k, h⟩ else none

/-! ## Flits -/

def tyTile : Nat := 1
def tyResult : Nat := 2
def tyTake : Nat := 3
def tyEntry : Nat := 4
def tyReport : Nat := 5
def tyHello : Nat := 6
def tyAdmit : Nat := 7
def tyImage : Nat := 8
def tyHeartbeat : Nat := 9
def tyFault : Nat := 10
def tyNak : Nat := 11

/-- Bytes 0-251 of a flit (R594). -/
def flitBody (f : Flit) : Bytes :=
  leBytes 2 f.dest ++ leBytes 2 f.src ++ leBytes 1 f.type ++ leBytes 1 f.ctx ++ leBytes 1 f.len ++ leBytes 1 (f.gen % 16) ++
    leBytes 1 f.seq ++ leBytes 1 f.ack ++ zeros 2 ++ padTo 240 f.payload

def flitCrc (f : Flit) : Word := BitVec.ofNat 32 (crc32 (flitBody f))

/-- A flit as this chip starts it; SEQ, ACK and CRC come with each hop. -/
def newFlit (s : State) (dest ty ctx : Nat) (payload : Bytes) : Flit :=
  { dest := dest, src := hedgeAddr s, type := ty, ctx := ctx, len := payload.length, gen := s.hedge.myTag, seq := 0, ack := 0,
    payload := payload, crc := 0 }

/-- The payloads of 240 B that carry some bytes; one empty payload carries none. -/
def flitParts (bs : Bytes) : List Bytes := if bs.isEmpty then [[]] else chunks 240 ((bs.length + 239) / 240) bs

/-! ## Sending (R595) -/

def State.modLink (s : State) (l : LinkId) (f : LinkPort → LinkPort) : State := { s with links := vupd s.links l f }
def State.link (s : State) (l : LinkId) : LinkPort := s.links[l]

/-- A flit put on the wire and into the retry buffer, with its SEQ, the ACK and its CRC. -/
def putWire (now : Nat) (p : LinkPort) (f : Flit) : LinkPort :=
  let f := { f with seq := p.txNext, ack := (p.rxNext + 255) % 256 }
  let f := { f with crc := flitCrc f }
  let retry := p.retry ++ [{ seq := p.txNext, flit := f, sends := 1, lastSent := now }]
  { p with
    txNext := (p.txNext + 1) % 256, retry := retry, wire := p.wire ++ [f]
    fullFrom := if retry.length = 64 then some now else none }

/-- The waiting flits sent, while the port is UP and its retry buffer has room. -/
def flushPort (now : Nat) (p : LinkPort) : LinkPort :=
  if p.st ≠ .up then p
  else
    let n := 64 - p.retry.length
    (p.txQ.take n).foldl (putWire now) { p with txQ := p.txQ.drop n }

/-- A flit sent on a port. -/
def sendOn (s : State) (l : LinkId) (f : Flit) : State :=
  s.modLink l fun p => flushPort s.clk.now { p with txQ := p.txQ ++ [f] }

/-- A flit sent on towards its destination (R602). -/
def routeFlit (s : State) (f : Flit) : State :=
  match portTo s f.dest with
  | some l => sendOn s l f
  | none => s

/-- A flit of this chip sent towards its destination. -/
def sendFlit (s : State) (f : Flit) : State := routeFlit { s with hedge := { s.hedge with lastTx := s.clk.now } } f

/-- Bytes sent to a chip. -/
def sendTo (s : State) (dest ty ctx : Nat) (bs : Bytes) : State :=
  (flitParts bs).foldl (fun s p => sendFlit s (newFlit s dest ty ctx p)) s

/-- A flit sent to the ports of the broadcast mask (R603). -/
def sendMask (s : State) (f : Flit) : State :=
  (s.boot.cfg.hedge.bcast.filterMap fun k => if h : k < 6 then some (⟨k, h⟩ : LinkId) else none).foldl
    (fun s l => sendOn s l f) s

/-- Bytes broadcast by the top root. -/
def broadcast (s : State) (ty ctx : Nat) (bs : Bytes) : State :=
  (flitParts bs).foldl (fun s p => sendMask s (newFlit s 0xFFFF ty ctx p)) s

/-- The top root has a member that is IN. -/
def leads (s : State) : Bool := hedgeRole s == 3 && s.hedge.members.any fun m => m.st == 3

/-- An entry that the members apply, broadcast by the top root, and its header kept for the report (R610, R611). -/
def broadcastEntry (s : State) (src : Nat) (entry : Bytes) : State :=
  if leads s then
    let s := { s with hedge := { s.hedge with heads := s.hedge.heads ++ entry.take 16 } }
    broadcast s tyEntry (if src < 16 then src else 0xFF) entry
  else s

end Sys2Proof.Machine
end

