-- ==== Sys2Proof/Machine/Ops.lean ====
section
/-! DEFINITION. The shared operations: contexts and engines, replies, free values, the record ring, fault records, EMCY,
threads and events, the safety pins. -/

namespace Sys2Proof.Machine

/-- What a step answers. -/
abbrev Out := Host.Outcome State Fault Refusal

/-! ## Access to units -/

def State.ctx (s : State) (c : CtxId) : Ctx := s.ctxs[c]
def State.modCtx (s : State) (c : CtxId) (f : Ctx → Ctx) : State := { s with ctxs := vupd s.ctxs c f }
def State.eng (s : State) (n : EngId) : Engine := s.engines[n]
def State.modEng (s : State) (n : EngId) (f : Engine → Engine) : State := { s with engines := vupd s.engines n f }
def State.modCnt (s : State) (c : CtxId) (f : Counters → Counters) : State :=
  s.modCtx c fun x => { x with cnt := f x.cnt }
def State.modRm (s : State) (c : CtxId) (f : Roadmap → Roadmap) : State := s.modCtx c fun x => { x with rm := f x.rm }
def State.modRun (s : State) (c : CtxId) (f : FrameRun → FrameRun) : State :=
  s.modCtx c fun x => { x with run := x.run.map f }
def State.port (s : State) : Port → PortSt
  | .a => s.portA
  | .b => s.portB
def State.modPort (s : State) (p : Port) (f : PortSt → PortSt) : State :=
  match p with
  | .a => { s with portA := f s.portA }
  | .b => { s with portB := f s.portB }
def State.sd (s : State) : SdIf → Sd
  | .sda => s.sda
  | .sdb => s.sdb
def State.modSd (s : State) (i : SdIf) (f : Sd → Sd) : State :=
  match i with
  | .sda => { s with sda := f s.sda }
  | .sdb => { s with sdb := f s.sdb }
def State.can (s : State) : CanIf → Can
  | .cn0 => s.cn0
  | .cn1 => s.cn1
def State.modCan (s : State) (n : CanIf) (f : Can → Can) : State :=
  match n with
  | .cn0 => { s with cn0 := f s.cn0 }
  | .cn1 => { s with cn1 := f s.cn1 }
def State.reply (s : State) (r : BusReply) : State := { s with bus := r }
/-- A write that completed. -/
def State.okBus (s : State) : State := s.reply (.ok 0)
/-- An access that ends with a bus error (R55). -/
def State.busErr (s : State) : State := s.reply .error

/-- The next free value of `w` bits; the counter of free values moves on (log 5). -/
def State.free (s : State) (w : Nat) : BitVec w × State :=
  (Config.freeBits w s.freeCount, { s with freeCount := s.freeCount + 1 })

/-- The next `n` free values of `w` bits. -/
def freeWords (w : Nat) : Nat → State → List (BitVec w) × State
  | 0, s => ([], s)
  | n + 1, s =>
    let (b, s) := s.free w
    let (bs, s) := freeWords w n s
    (b :: bs, s)

def allCtx : List CtxId := List.finRange 16
def allEng : List EngId := List.finRange 18

/-! ## Time -/

def State.now (s : State) : Nat := s.clk.now
def State.aoclk (s : State) : Nat := s.clk.now / 128
def State.sclk (s : State) : Nat := 2 * s.clk.now
def us (n : Nat) : Nat := 400 * n

/-! ## Which contexts run -/

/-- A context that runs: STARTING, RUNNING or DRAINING (R561). -/
def Ctx.active (x : Ctx) : Bool := x.st != .idle
def State.anyRuns (s : State) : Bool := allCtx.any fun c => (s.ctx c).active
/-- The contexts in the running state. -/
def State.runningCtxs (s : State) : List CtxId := allCtx.filter fun c => (s.ctx c).st == .running
/-- The pacing context (R27). -/
def State.pacing (s : State) : Option CtxId := s.runningCtxs.head?
/-- A context that has been started and not stopped: its loads are being made or it runs. -/
def State.started (s : State) (c : CtxId) : Bool := (s.ctx c).st == .starting || (s.ctx c).st == .running
/-- The part replays (R434). -/
def State.replaying (s : State) : Bool := s.recorder.st == 3 || s.recorder.st == 4
/-- Objects are served from READY on (R629). -/
def State.serves (s : State) : Bool := s.boot.phase == .on && s.boot.st == 5
def State.chip (s : State) : Nat := hedgeAddr s

/-! ## Service state (R34) -/

def popCount (w v : Nat) : Nat := (bitsOf w v).length
def State.retired (s : State) (n : EngId) : Bool := s.roles.retired.toNat.testBit n.val
def State.working (s : State) (n : EngId) : Bool := s.roles.working.toNat.testBit n.val
def State.service (s : State) : Nat := min 3 (popCount 18 s.roles.retired.toNat)

/-! ## Store regions (R481) -/

def storeBase : Nat := 0x40000000

/-- The region of a kind and context (255: none). -/
def State.region (s : State) (kind ctx : Nat) : Option Region :=
  s.boot.regions.find? fun r => r.kind == kind && (r.ctx == ctx || ctx == 255)

/-! ## PSRAM (R54) -/

def chanSize (s : State) (i : Nat) : Nat := s.power.chSize[i]?.getD 0 * 2 ^ 20
/-- Offsets `off` to `off + n - 1` of the PSRAM window lie in populated PSRAM. -/
def psramOk (s : State) (off n : Nat) : Bool :=
  decide (off + n ≤ 2 ^ 29) &&
    (List.range 8).all fun i =>
      let lo := i * 2 ^ 26
      -- the part of the range inside channel i ends within its populated size
      decide (off + n ≤ lo ∨ lo + 2 ^ 26 ≤ off ∨ min (off + n) (lo + 2 ^ 26) ≤ lo + chanSize s i)

def psramRead (s : State) (off n : Nat) : Bytes := memRead s.psram off n

/-! ## The record ring (R426-R430, R433) -/

def recBase (s : State) : Nat := oNat s 0x2700 0x03
def recSize (s : State) : Nat := oNat s 0x2700 0x04

/-- An entry: header and payload, padded to 16 B (R426). -/
def entryBytes (tick ty src : Nat) (payload : Bytes) : Bytes :=
  let h := leBytes 6 tick ++ leBytes 1 ty ++ leBytes 1 src ++ leBytes 4 payload.length
  let body := h ++ leBytes 4 (crc32 (h ++ payload)) ++ payload
  padTo ((body.length + 15) / 16 * 16) body

/-- Bytes written to the ring from an offset on, wrapping at its end. -/
def ringWrite (m : Memory) (base size off : Nat) (bs : Bytes) : Memory :=
  let k := size - off
  memWrite (memWrite m (base + off) (bs.take k)) base (bs.drop k)

/-- Bytes of the ring from an offset on. -/
def ringRead (s : State) (off n : Nat) : Bytes :=
  let k := recSize s - off
  psramRead s (recBase s + off) (min n k) ++ psramRead s (recBase s) (n - k)

/-- The entries of the ring that do not overlap `n` bytes from `off` on. -/
def ringKeep (size off n : Nat) (ents : List RingEnt) : List RingEnt :=
  ents.filter fun e => decide (n ≤ (e.off + size - off) % size) && decide ((e.off + size - off) % size + e.n ≤ size)

/-- The newest complete seed, while its slot stands for it. -/
def newestSeed (r : Recorder) : Option Seed := r.seeds.toList.findSome? fun x => x.bind fun sd => if sd.tick = r.seedTick then some sd else none

/-- A replay from the newest complete seed needs an entry (R433): one with TICK ≥ t_c − LAG + 1, or the FRAME entry of a frame
just before the seed's. -/
def seedNeeds (s : State) (e : RingEnt) : Bool :=
  match newestSeed s.recorder with
  | none => false
  | some sd =>
    decide (sd.tick + 1 ≤ e.tick + oNat s 0x2100 0x15) ||
      (e.ty == 0x0B && sd.ctxs.any fun x =>
        let h := ringRead s e.off 32
        u h 7 1 == x.ctx.val && (u h 20 6 + 1) % 2 ^ 48 == x.frame)

/-- One entry put at the head of the ring, if the ring has room for it (R430, R433); the Boolean tells whether it was
written. -/
def ringPut (s : State) (e : RingEnt) (bs : Bytes) : State × Bool :=
  let r := s.recorder
  let size := recSize s
  let n := bs.length
  let kept := ringKeep size r.head n r.ents
  let evicted := r.ents.filter fun e => !(kept.contains e)
  let put : State :=
    { s with
      psram := ringWrite s.psram (recBase s) size r.head bs
      recorder := { r with
        head := (r.head + n) % size, ents := kept ++ [{ e with off := r.head, n := n }]
        evicted := evicted.foldl (fun m e => max m (e.tick + 1)) r.evicted } }
  if size < n then (s, false)
  else if oNat s 0x2700 0x02 = 2 then
    if r.head + n ≤ size ∧ (r.ents = [] ∨ r.head ≠ 0) then (put, true)
    else ({ s with recorder := { r with st := 2 } }, false)
  else if evicted.any (seedNeeds s) then (s, false)
  else (put, true)

/-- The place of a world input among those of its tick (R85): external updates by SOURCE and SEQ, then images by stream and sensor
frame counter, a loss marker after the images of its stream (R119). -/
def inputKey (ty src : Nat) (payload : Bytes) : Option (Nat × Nat × Nat) :=
  match ty with
  | 0x01 => some (1, src, u payload 1 4)
  | 0x02 => some (1, src, 2 ^ 32)
  | 0x03 => some (0, u payload 0 2, u payload 2 4)
  | _ => none

def keyLt (a b : Nat × Nat × Nat) : Bool :=
  decide (a.1 < b.1) || (a.1 == b.1 && (decide (a.2.1 < b.2.1) || (a.2.1 == b.2.1 && decide (a.2.2 < b.2.2))))

/-- The entries that stand before a new one, and those that stand after it: ascending TICK, within a tick the order in which the
part applies them (R427). No input passes a FUSE_RESET entry of its tick (R122). -/
def ringSplit (tick : Nat) (key : Option (Nat × Nat × Nat)) : List RingEnt → List RingEnt × List RingEnt
  | [] => ([], [])
  | e :: t =>
    let before := match key, e.key with
      | some a, some b => e.tick == tick && keyLt a b && !(t.any fun x => x.ty == 0x0D && x.tick == tick)
      | _, _ => false
    if tick < e.tick || before then ([], e :: t)
    else
      let (a, b) := ringSplit tick key t
      (e :: a, b)

/-- Entries put one after another; the Boolean tells whether all were written. -/
def ringPuts : State → List (RingEnt × Bytes) → State × Bool
  | s, [] => (s, true)
  | s, (e, bs) :: t =>
    let (s, ok) := ringPut s e bs
    if ok then ringPuts s t else (s, false)

/-- One entry put into the ring in its order: those that stand after it follow it again. -/
def ringInsert (s : State) (e : RingEnt) (bs : Bytes) : State × Bool :=
  let (before, after) := ringSplit e.tick e.key s.recorder.ents
  match after with
  | [] => ringPut s e bs
  | x :: _ =>
    let (t, ok) := ringPuts { s with recorder := { s.recorder with head := x.off, ents := before } }
      ((e, bs) :: after.map fun y => (y, ringRead s y.off y.n))
    if ok then (t, true)
    else ({ s with recorder := { s.recorder with st := t.recorder.st } }, false)

/-- An entry put into the ring while the Recorder records. A dropped entry is counted, and a GAP entry precedes the next
one (R430). The Boolean tells whether the entry was written. -/
def tryRecord (s : State) (tick ty src : Nat) (payload : Bytes) : State × Bool :=
  if s.recorder.st ≠ 1 then (s, false)
  else if s.faults.inReset.toNat.testBit 21 then ({ s with recorder := { s.recorder with lost := s.recorder.lost + 1 } }, false)
  else
    let s1 :=
      if s.recorder.lost = 0 then s
      else
        let (t, ok) := ringInsert s { (default : RingEnt) with tick := tick, ty := 0x10 }
          (entryBytes tick 0x10 0 (leBytes 4 s.recorder.lost))
        if ok then { t with recorder := { t.recorder with lost := 0, gaps := wrapInc 32 t.recorder.gaps } } else t
    let (s2, ok) := ringInsert s1 { (default : RingEnt) with tick := tick, ty := ty, key := inputKey ty src payload }
      (entryBytes tick ty src payload)
    if ok then (s2, true) else ({ s2 with recorder := { s2.recorder with lost := s2.recorder.lost + 1 } }, false)

def recordRing (s : State) (tick ty src : Nat) (payload : Bytes) : State := (tryRecord s tick ty src payload).1

/-- An entry recorded (R427), and broadcast to the members of a hedge whether or not the Recorder is on (R610). -/
def record (s : State) (tick ty src : Nat) (payload : Bytes) : State :=
  broadcastEntry (recordRing s tick ty src payload) src (entryBytes tick ty src payload)

/-- A CAN frame heard, for diagnosis (R427; log 43): stamp, identifier, flags, data. SRC is 0 for CN0, 1 for CN1. -/
def noteCan (s : State) (src id : Nat) (data : Bytes) : State :=
  recordRing s s.world.tick 0x04 src (leBytes 8 s.now ++ leBytes 4 id ++ [0] ++ data)

/-- An SDIO command heard, for diagnosis (R427; log 43): stamp, then the command's index and argument. SRC is 0 for SDA, 1 for
SDB. -/
def noteSdio (s : State) (src cmd arg : Nat) : State :=
  recordRing s s.world.tick 0x05 src (leBytes 8 s.now ++ leBytes 1 cmd ++ leBytes 4 arg)

/-- What a command did, with its CAN frame noted where the controller took it. -/
def canHeard (took : Bool) (src id : Nat) (data : Bytes) (t : State) : State := if took then noteCan t src id data else t

/-! ## Fault records (R515-R518) -/

/-- The frame that a record names: of its context, else of the pacing context, else 0. -/
def faultFrame (s : State) (ctx : Nat) : Nat :=
  if ctx < 16 then (s.ctx (Fin.ofNat 16 ctx)).frameNo
  else match s.pacing with
    | some c => (s.ctx c).frameNo
    | none => 0

/-- A record put into the ring; frames in progress of the contexts that it names are marked (R429). -/
def putRecord (s : State) (r : FaultRec) : State :=
  let f := s.faults
  let f' := { f with
    ring := f.ring.set (f.head % 256) (some r) (Nat.mod_lt _ (by decide))
    nextSeq := (f.nextSeq + 1) % 2 ^ 32
    head := (f.head + 1) % 256
    newRec := true }
  let s := { s with faults := f' }
  if r.ctx = 0xFE then allCtx.foldl (fun t c => t.modRun c fun x => { x with faulted := true }) s
  else if r.ctx < 16 then s.modRun (Fin.ofNat 16 r.ctx) fun x => { x with faulted := true }
  else s

/-- The 32 bytes of a record (R515). -/
def FaultRec.bytes (r : FaultRec) : Bytes :=
  leBytes 6 r.frame ++ leBytes 1 r.ctx ++ leBytes 1 r.domain ++ leBytes 2 r.fcode ++ leBytes 1 r.engA ++
    leBytes 1 r.engB ++ leBytes 2 r.chip ++ leBytes 1 (r.gen % 16) ++ leBytes 1 r.action ++ leBytes 8 r.stamp ++
    leBytes 4 r.detail ++ leBytes 4 r.seq

/-- A fault finding recorded under a chip address; a member also sends the record to the top root (R600). SEQ counts from 1, so that
FAULT_SEQ = 0 means no record (log 22). The tag of another chip's domain is not known here (log 5). -/
def faultAt (s : State) (chip ctx dom fcode engA engB action detail : Nat) : State :=
  let r : FaultRec :=
    { frame := faultFrame s ctx, ctx := ctx, domain := dom, fcode := fcode, engA := engA, engB := engB, chip := chip,
      gen := if chip ≠ s.chip ∧ dom < 18 then (Config.freeBits 4 s.freeCount).toNat
        else if h : dom < 30 then s.faults.gen[dom] else 0, action := action, stamp := s.now, detail := detail,
      seq := (s.faults.nextSeq + 1) % 2 ^ 32 }
  let s := putRecord { s with freeCount := s.freeCount + bit (chip != s.chip && decide (dom < 18)) } r
  if isMember s then sendTo s 0 tyFault 0xFF r.bytes else s

/-- A fault finding of this chip recorded. -/
def fault (s : State) (ctx dom fcode engA engB action detail : Nat) : State := faultAt s s.chip ctx dom fcode engA engB action detail

/-! ## EMCY (R461) -/

def CanTx.isEmcy : CanTx → Bool
  | .emcy _ => true
  | _ => false

/-- EMCY frames put ahead of every other frame that is queued, after those EMCY frames that wait already (R306, R461). -/
def emcyFirst (es : List Emcy) (tx : List CanTx) : List CanTx :=
  tx.takeWhile CanTx.isEmcy ++ es.map CanTx.emcy ++ tx.dropWhile CanTx.isEmcy

/-- One EMCY frame at a controller; kept while bus-off (R575). -/
def canEmcy (e : Emcy) (k : Can) : Can :=
  if !k.en || !k.emcyEn then k
  else if k.bus = 2 then { k with emcyQ := k.emcyQ ++ [e] }
  else { k with tx := emcyFirst [e] k.tx }

/-- An EMCY offered at both controllers and noted in the pre-defined error field (R587); none in replay (R436) or by a member of a
hedge (R610). -/
def emcy (s : State) (code b3 data : Nat) : State :=
  if s.replaying || isMember s || s.faults.inReset.toNat.testBit 29 then s
  else
    let e : Emcy := { code := code, reg := 1, b3 := b3, data := data % 2 ^ 32 }
    { s with
      cn0 := canEmcy e s.cn0, cn1 := canEmcy e s.cn1
      errField := (BitVec.ofNat 32 (code + b3 * 2 ^ 16) :: s.errField).take 16 }

/-! ## Threads and events (R385-R394) -/

def allCores : List CoreId := List.finRange 5
def Tds.modThread (d : Tds) (t : ThreadId) (f : Thread → Thread) : Tds := { d with threads := vupd d.threads t f }
def Tds.modCore (d : Tds) (c : CoreId) (f : CoreWin → CoreWin) : Tds := { d with cores := vupd d.cores c f }

/-- Thread t returned to core c: RUNNING there, and the take register reads it (R388, R407). -/
def Tds.give (d : Tds) (c : CoreId) (t : ThreadId) : Tds :=
  let p := d.threads[t].prio
  let d := d.modThread t fun x => { x with st := .running, core := BitVec.ofNat 3 c.val, event := none }
  d.modCore c fun w =>
    { w with run := some t, stalled := false, take := BitVec.ofNat 32 (t.val + p.toNat * 2 ^ 8 + 2 ^ 31) }

/-- The core that R390 preempts for a thread: the lowest-priority running thread below it, then the lowest core. -/
def Tds.victim (d : Tds) (t : ThreadId) : Option CoreId :=
  let th := d.threads[t]
  (allCores.filter fun c => th.aff.toNat.testBit c.val).foldl
    (fun best c =>
      match d.cores[c].run with
      | none => best
      | some r =>
        let p := d.threads[r].prio.toNat
        if p ≤ th.prio.toNat then best
        else match best with
          | none => some c
          | some b => match d.cores[b].run with
            | some q => if d.threads[q].prio.toNat < p then some c else best
            | none => some c)
    none

/-- A thread put at the tail of the ready list; of those that became READY at the same edge, behind the ones whose key is not greater
(R387). -/
def Tds.append (d : Tds) (key : Fin 258) (t : ThreadId) : Tds :=
  let later := (d.edge.fresh.filter fun x => decide (key < x.2)).map (·.1)
  { d with
    readyQ := if later.isEmpty then d.readyQ ++ [t]
      else (d.readyQ.filter fun x => !later.contains x) ++ t :: d.readyQ.filter fun x => later.contains x
    edge := { d.edge with fresh := (d.edge.fresh.filter fun x => x.1 != t) ++ [(t, key)] } }

/-- The places of R387 in the order of one edge: delay expiries, event wake-ups by thread number, commands. -/
def expiryKey : Fin 258 := 0
def eventKey (t : ThreadId) : Fin 258 := ⟨1 + t.val, by omega⟩
def commandKey : Fin 258 := 257

/-- A thread becomes READY (R387, R389, R390). -/
def Tds.makeReady (d : Tds) (key : Fin 258) (t : ThreadId) : Tds :=
  let th := d.threads[t]
  match allCores.find? fun c => th.aff.toNat.testBit c.val && d.cores[c].stalled with
  | some c => d.give c t
  | none =>
    let v := d.victim t
    let d := d.modThread t fun x => { x with st := .ready, event := none }
    let d := d.append key t
    match v with
    | some c => { d with preempt := d.preempt ||| BitVec.ofNat 5 (2 ^ c.val) }
    | none => d

def allThreads : List ThreadId := List.finRange 256

/-- An event occurs: its waiters become READY in ascending order, or its flag is set (R392). -/
def Tds.event (d : Tds) (e : BitVec 6) : Tds :=
  let ws := allThreads.filter fun t => d.threads[t].st == .blocked && d.threads[t].event == some e
  if ws.isEmpty then { d with events := d.events ||| (1#64 <<< e.toNat) }
  else ws.foldl (fun d t => d.makeReady (eventKey t) t) d

/-- The TDS at the present edge: what an earlier one brought is past. -/
def State.edgeTds (s : State) : Tds :=
  if s.tds.edge.at_ = s.now then s.tds else { s.tds with edge := { at_ := s.now, fresh := [], early := [] } }

def State.tdsEvent (s : State) (e : Nat) : State := { s with tds := s.edgeTds.event (BitVec.ofNat 6 e) }

/-! ## The safety pins (R447-R449) -/

/-- A safety context that runs: SAFETY_ROLE = 1 and started (R445, R452; log 23). -/
def State.safetyRuns (s : State) (c : CtxId) : Bool := (s.ctx c).sstate != .stopped && safNat s c 0x01 == 1

/-- PERMIT is to be driven (R449); a member of a hedge never drives it (R608). -/
def State.permit (s : State) : Bool :=
  s.saf.outEn && s.saf.causes == 0 && !s.replaying && !isMember s && (allCtx.any fun c => s.safetyRuns c) &&
    allCtx.all fun c => !(s.safetyRuns c) || (s.ctx c).sstate == .operate

/-- The pins driven to what R449 asks: PERMIT, or the safe levels (R447). -/
def drivePins (s : State) : State :=
  if s.saf.outEn then { s with saf := { s.saf with driveA := s.permit, driveB := !s.permit } } else s

end Sys2Proof.Machine
end

