-- ==== Sys2Proof/Machine/Arbiter.lean ====
section
/-! DEFINITION. The Arbiter fabric (R398-R405, R412) and the occupancy of PSRAM bursts (R660, R661). -/

namespace Sys2Proof.Machine

/-- The weight of requester q in the class of resource r: banks, PSRAM channels, links (R398, R399). -/
def Arb.weight (a : Arb) (r : ResId) (q : ReqId) : Nat :=
  if r.val < 32 then a.wStore[q] else if r.val < 40 then a.wPsram[q] else a.wLink[q]

def allReq : List ReqId := List.finRange 32
def allRes : List ResId := List.finRange 46

def Arb.weightSum (a : Arb) (r : ResId) : Nat := (allReq.map (a.weight r)).sum

def cellKey (r : ResId) (q : ReqId) : Nat := r.val * 32 + q.val
def Arb.cell (a : Arb) (r : ResId) (q : ReqId) : ArbCell := amGetD a.cells (cellKey r q) default
def Arb.setCell (a : Arb) (r : ResId) (q : ReqId) (x : ArbCell) : Arb :=
  { a with cells := amPut a.cells (cellKey r q) x }

/-- A credit held to its range (R399). -/
def clipCredit (i : Int) : Int := clampI (-4096) 2048 i

/-- The weights of the resource's class sum to 0: none of its counters changes, and no credit decides (R412). -/
def Arb.inert (a : Arb) (r : ResId) : Bool := a.weightSum r == 0

/-- The holder of a resource charged for the SCLK that its burst has occupied up to `t` (R399). -/
def Arb.charge (a : Arb) (r : ResId) (t : Nat) : Arb :=
  let upTo := min t a.busyUntil[r]
  let n := upTo - a.chargedTo[r]
  let a := { a with chargedTo := vupd a.chargedTo r fun x => max x upTo }
  match a.holder[r] with
  | some q =>
    let c := a.cell r q
    if a.inert r then a else a.setCell r q { c with credit := clipCredit (c.credit - n) }
  | none => a

/-- Every counter of a resource gains its weighted share (R399); with weights that sum to 0 nothing changes (R412). -/
def Arb.refill (a : Arb) (r : ResId) : Arb :=
  let w := a.weightSum r
  if w = 0 then a
  else allReq.foldl (fun a q =>
    let c := a.cell r q
    a.setCell r q { c with credit := clipCredit (c.credit + (1024 * a.weight r q / w : Nat)) }) a

/-- ARB_CREDIT_REFILL (R399): at an SCLK count that is a multiple of 1,024; at any other it changes nothing. -/
def execArbCreditRefill (s : State) : Out :=
  .next (if s.sclk % 1024 = 0 then { s with arb := allRes.foldl (fun a r => (a.charge r s.sclk).refill r) s.arb } else s)

/-- The bursts that a PSRAM request is split into, taking the doubled latency (R661). -/
def psramBursts (lc tcem len : Nat) : Nat :=
  let room := 2 * tcem - 3 - 2 * lc
  if room = 0 then 1 else max 1 (ceilDiv (ceilDiv len 2) room)

/-- The SCLK that a grant occupies its resource for: lines of a bank, a PSRAM burst with its overhead (R660), a flit. -/
def occupancy (p : Power) (r : ResId) (q : ArbReq) : Nat :=
  if r.val < 32 then max 1 (min 8 (ceilDiv q.len 64))
  else if r.val < 40 then
    let lc := p.chLc[r.val - 32]?.getD 0
    let lat := if q.longLat then 2 * lc else lc
    4 * (psramBursts lc (p.chTcem[r.val - 32]?.getD 0) q.len * (3 + lat + 1) + ceilDiv q.len 2)
  else 13

/-- A request with its place in the decision: wait, forced, eligible (R400, R401). -/
structure Bid where
  q : ArbReq
  wait : Nat
  forced : Bool
  eligible : Bool
deriving DecidableEq, Repr

def Arb.bid (a : Arb) (r : ResId) (t : Nat) (q : ArbReq) : Bid :=
  let c := a.cell r q.req
  let w := t - (c.waitSince.getD (min t q.since))
  let f := decide (a.wlimit[q.req] ≤ w)
  ⟨q, w, f, f || (match c.backUntil with
    | none => true
    | some u => decide (u ≤ t))⟩

/-- The winner: the longest forced wait, else the highest credit, ties to the lower ID (R400); in an inert class the lower ID
(R412). -/
def Arb.winner (a : Arb) (r : ResId) (bs : List Bid) : Option Bid :=
  let el := bs.filter (·.eligible)
  let pick := fun (better : Bid → Bid → Bool) (l : List Bid) => l.foldl (fun best b => match best with
    | none => some b
    | some x => if better b x || (!better x b && decide (b.q.req < x.q.req)) then some b else some x) none
  let fs := el.filter (·.forced)
  if fs.isEmpty then pick (fun x y => !a.inert r && decide ((a.cell r y.q.req).credit < (a.cell r x.q.req).credit)) el
  else pick (fun x y => decide (y.wait < x.wait)) fs

/-- An eligible requester loses: it backs off, no longer than until its wait limit (R401). -/
def Arb.lose (a : Arb) (r : ResId) (t : Nat) (b : Bid) : Arb :=
  let c := a.cell r b.q.req
  let since := t - b.wait
  let k := c.losses + 1
  a.setCell r b.q.req
    { c with
      waitSince := some since, losses := k
      backUntil := some (min (t + min (4 * 2 ^ (k - 1)) 1024) (since + a.wlimit[b.q.req])) }

/-- A requester that waits without having lost keeps its first presentation (R402). -/
def Arb.keepWait (a : Arb) (r : ResId) (t : Nat) (b : Bid) : Arb :=
  let c := a.cell r b.q.req
  a.setCell r b.q.req { c with waitSince := some (t - b.wait) }

/-- The grant (R399-R401, R412); a write to a mirrored region leaves a copy for the die 1 bank (R403). -/
def Arb.grant (a : Arb) (r : ResId) (t occ : Nat) (b : Bid) : Arb :=
  let c := a.cell r b.q.req
  let a := a.setCell r b.q.req { c with waitSince := none, losses := 0, backUntil := none }
  { a with
    busyUntil := vupd a.busyUntil r fun _ => t + occ
    chargedTo := vupd a.chargedTo r fun _ => t
    holder := vupd a.holder r fun _ => some b.q.req
    copyDue := if b.q.mirror && r.val < 16 then
        vupd a.copyDue (Fin.ofNat 46 (r.val + 16)) fun n => n + occ
      else a.copyDue
    maxWait := vupd a.maxWait b.q.req fun n => min 65535 (max n b.wait)
    forced := vupd a.forced b.q.req fun n => if b.forced then satAdd 65535 n 1 else n }

/-- PSRAM bursts counted in PSR_CHc_CNT (R660, R661). -/
def countBursts (p : Power) (r : ResId) (q : ArbReq) : Power :=
  if 32 ≤ r.val ∧ r.val < 40 then
    let ch : Fin 8 := Fin.ofNat 8 (r.val - 32)
    let n := psramBursts p.chLc[ch] p.chTcem[ch] q.len
    { p with
      chLong := vupd p.chLong ch fun x => if q.longLat then (x + n) % 65536 else x
      chSplits := vupd p.chSplits ch fun x => if 1 < n then satAdd 65535 x 1 else x }
  else p

/-! ## Requests of an old generation (R508, R509) -/

/-- The domain of a requester (R398, R505); the loader and the TDS have none. -/
def domainOf (q : ReqId) : Nat :=
  let n := q.val
  if n < 20 then n else if n = 21 then 21 else if n = 22 then 28 else if n = 23 then 0x1E
  else if 24 ≤ n ∧ n < 30 then n - 2 else if n = 30 then 20 else 0x1F

/-- The present generation tag of a domain (R508). -/
def domTag (s : State) (d : Nat) : Nat := if h : d < 30 then s.faults.gen[d] else 0

/-- An item of a domain's old generation discarded and counted (R509). -/
def noteStale (s : State) (d : Nat) : State :=
  { s with faults := { s.faults with stale := satAdd 65535 s.faults.stale 1, staleDomain := d } }

/-- The request carries its domain's present tag. -/
def ofPresent (s : State) (q : ArbReq) : Bool := q.gen == domTag s (domainOf q.req)

/-- The requests of an old generation, which the resource has not accepted, are discarded; no access of theirs is pending. -/
def dropStale (r : ResId) (reqs : List ArbReq) (s : State) : State :=
  (reqs.filter fun q => !ofPresent s q).foldl (fun s q =>
    let s := noteStale s (domainOf q.req)
    { s with arb := s.arb.setCell r q.req { s.arb.cell r q.req with waitSince := none } }) s

/-- ARB_DECISION (R400-R403, R509): only at an idle resource or a burst boundary. A mirror copy that waits at a die 1 bank goes
ahead of every requester and costs no credit. -/
def arbDecisionEffect (r : ResId) (reqs : List ArbReq) (s : State) : State :=
  let t := s.sclk
  if t < s.arb.busyUntil[r] then s
  else
    let s := dropStale r reqs s
    let reqs := reqs.filter (ofPresent s)
    let a := s.arb.charge r t
    if 0 < a.copyDue[r] then
      { s with arb := { a with
          busyUntil := vupd a.busyUntil r fun _ => t + a.copyDue[r]
          chargedTo := vupd a.chargedTo r fun _ => t
          holder := vupd a.holder r fun _ => none
          copyDue := vupd a.copyDue r fun _ => 0 } }
    else
      let bs := reqs.map (a.bid r t)
      match a.winner r bs with
      | none => { s with arb := bs.foldl (fun a b => a.keepWait r t b) { a with holder := vupd a.holder r fun _ => none } }
      | some w =>
        let a := bs.foldl (fun a b =>
          if b.q.req = w.q.req then a else if b.eligible then a.lose r t b else a.keepWait r t b) a
        { s with arb := a.grant r t (occupancy s.power r w.q) w, power := countBursts s.power r w.q }

def execArbDecision (r : ResId) (reqs : List ArbReq) (s : State) : Out := .next (arbDecisionEffect r reqs s)

/-- BACK_OFF_END (R401): the back-off of a requester that has waited it out ends. -/
def execBackOffEnd (r : ResId) (q : ReqId) (s : State) : Out :=
  .next (match (s.arb.cell r q).backUntil with
    | some u => if u ≤ s.sclk then { s with arb := s.arb.setCell r q { s.arb.cell r q with backUntil := none } } else s
    | none => s)

/-- CLR_STATS (R412): every ARB_STATr is cleared. -/
def clrStatsEffect (s : State) : State :=
  { s with arb := { s.arb with maxWait := Vector.replicate 32 0, forced := Vector.replicate 32 0 } }.okBus


end Sys2Proof.Machine
end

