-- ==== Sys2Proof/Machine/Seeds.lean ====
section
/-! DEFINITION. What a seed holds and when it is captured (R431), its slot and its pins (R432, R440). -/

namespace Sys2Proof.Machine

/-- The seed that some bytes spell: the spec gives no layout (log 6). -/
opaque seedOf : Bytes → Option Seed

/-- The indices of a context's objects. -/
def ctxIndices (c : CtxId) : List Nat := [0x2000 + c.val, 0x2201 + c.val, 0x2301 + c.val]

/-- The values in force of a context's objects, by object key: of those that have been written. Any other has its default, and
DEADLINE follows PERIOD (R711). -/
def ctxValues (s : State) (c : CtxId) : List (Nat × Bytes) :=
  (ctxIndices c).flatMap fun i => dictionary.filterMap fun d =>
    if d.index + c.val = i then
      match d.acc with
      | .rw => (amGet s.shadow (objKey i d.sub)).map fun v => (objKey i d.sub, v)
      | .rwf => (amGet s.force (objKey i d.sub)).map fun v => (objKey i d.sub, v)
      | _ => none
    else none

/-- A context's part of a seed. `at_` is the ACLK count of the tick: a frame begun at it is the first at or after it. -/
def seedCtx (s : State) (at_ : Nat) (c : CtxId) : SeedCtx :=
  let x := s.ctx c
  { ctx := c, frame := if x.lastF.any fun t => decide (at_ ≤ t) then x.frameNo else (x.frameNo + 1) % 2 ^ 48
    warm := x.warm, stop := x.stop, vals := ctxValues s c, rm := x.rm, tool := x.tool, parts := []
    open_ := x.run.isSome && !x.lastF.any fun t => decide (at_ ≤ t) }

/-- The seed of the present tick: it holds every context that runs (R431, R561). -/
def makeSeed (s : State) (tick : Nat) : Seed :=
  let at_ := match s.world.pubs.find? fun p => p.tick == tick with
    | some p => p.at_
    | none => s.now
  { tick := tick, world := s.world, ctxs := (allCtx.filter fun c => (s.ctx c).active).map (seedCtx s at_), strict := oNat s 0x2700 0x01
    step := s.power.inForce, service := s.service }

/-- The state right after the publication of the present tick, where a seed is due at it (R431). -/
def captureSeed (s : State) : State :=
  let n := oNat s 0x2700 0x07
  let due := n ≠ 0 ∧ s.recorder.st = 1 ∧ s.world.tick % n = 0 ∧ s.loader.isEmpty
  { s with recorder := { s.recorder with due := if due then some (makeSeed s s.world.tick) else none } }

/-- How many bytes a seed takes, less than the PSRAM window has, and what they are: the spec gives no layout (log 6). -/
opaque seedLen : Seed → BitVec 29
opaque seedByte : Seed → Nat → Byte

/-- A seed as it is written. -/
def seedBytes (sd : Seed) : Bytes := (List.range (seedLen sd).toNat).map (seedByte sd)

/-! ## Slots (R432, R440) -/

/-- The offset of a seed slot in the PSRAM window. -/
def seedOffset (s : State) (slot : Nat) : Nat := oNat s 0x2700 0x05 + slot * oNat s 0x2700 0x06

/-- A seed's bytes written into a slot; none where they do not fit. -/
def putSeed (s : State) (slot : Nat) (sd : Seed) : Option State :=
  let bs := seedBytes sd
  if decide (bs.length ≤ oNat s 0x2700 0x06) && psramOk s (seedOffset s slot) bs.length then
    some { s with
      psram := memWrite s.psram (seedOffset s slot) bs
      recorder := { s.recorder with seeds := vupd s.recorder.seeds (Fin.ofNat 2 slot) fun _ => none } }
  else none

/-- The seed in a slot is usable (R432). -/
def useSeed (s : State) (slot : Nat) (sd : Seed) : State :=
  { s with recorder := { s.recorder with
      seeds := vupd s.recorder.seeds (Fin.ofNat 2 slot) fun _ => some sd, seedTick := sd.tick } }

/-- The seed that a slot's bytes hold: one that this part wrote, where they are still its bytes, else the one whose bytes they
are (R441). -/
def seedAt (s : State) (off : Nat) : Option Seed :=
  let n := oNat s 0x2700 0x06
  if n = 0 ∨ !psramOk s off n then none
  else
    match s.recorder.seeds.toList.findSome? fun x => x.bind fun sd =>
        if psramRead s off (seedBytes sd).length = seedBytes sd then some sd else none with
    | some sd => some sd
    | none => (seedOf (psramRead s off n)).filter fun sd => psramRead s off (seedBytes sd).length == seedBytes sd

/-! ## The numbers that seeds pin (R432) -/

/-- The numbers of a pool that a seed being written reads and the present world has superseded. -/
def pinned (s : State) (sel : Pools → List (Nat × Nat)) : List Nat :=
  let now := (sel s.world.pools).map (·.2)
  ((s.recorder.seedRuns.flatMap fun r => (sel r.2.world.pools).map (·.2)).filter fun n => !now.contains n).eraseDups

/-- The seeds being written abandoned, their pins released; each is counted. -/
def abandonSeeds (s : State) : State :=
  { s with recorder := { s.recorder with
      seedRuns := [], seedAbandon := (s.recorder.seedAbandon + s.recorder.seedRuns.length) % 2 ^ 32 } }

end Sys2Proof.Machine
end

