-- ==== Sys2Proof/Machine/Identity.lean ====
section
/-! DEFINITION. The boot flash (R627), the device identity (R637) and the wear record in the flash (R542, R543, R626, R638). -/

namespace Sys2Proof.Machine

/-! ## Boot flash (R627) -/

def cfgBase : Nat := 0
def helperBase : Nat := 0x40000
def certBase : Nat := 0x41000
def wearBase : Nat := 0x42000
def fwBase : Nat := 0x100000
def storeImages : Nat := 0x1000000

def flashRead (s : State) (off n : Nat) : Bytes := memRead s.flash off n
def flashWrite (s : State) (off : Nat) (bs : Bytes) : State := { s with flash := memWrite s.flash off bs }

/-! ## Device identity (R637) -/

def ascii (t : String) : Bytes := t.toList.map fun c => BitVec.ofNat 8 c.toNat

/-- The device seed; none where its reconstruction does not match. -/
def deviceSeed (s : State) : Option Bytes :=
  let h := flashRead s helperBase 4096
  let seed := Config.pufSeed h
  if (sha512 seed).take 16 = Config.helperDigest h then some seed else none

def keySeed (label : String) (seed : Bytes) : Bytes := (sha512 (ascii label ++ seed)).take 32
def prodPublic (seed : Bytes) : Bytes := edPublic (keySeed "TVD-PROD" seed)
def deviceIdOf (seed : Bytes) : Bytes := (sha512 (prodPublic seed)).take 16

/-- The private seed of the device key in force. -/
def keyInForce (s : State) : Bytes :=
  keySeed (if s.boot.keyProd then "TVD-PROD" else "TVD-OPEN") ((deviceSeed s).getD [])

/-! ## The wear record (R542, R543, R638) -/

/-- How the wear record lays out its fields, in at most 4,032 B: the spec gives no layout (log 6). -/
opaque wearBytes : Wear → Bytes

/-- What bytes that this part did not write stand for as a wear record (log 6). -/
opaque wearOf : Bytes → Wear

/-- A copy of the wear record: a sector that ends with the signature of the device key in force (R542, R625, R638). -/
def wearCopy (s : State) (w : Wear) : Bytes :=
  let body := padTo 4032 (wearBytes w)
  body ++ edSign (keyInForce s) body

/-- The sector of a sequence number. -/
def wearSector (seq : Nat) : Nat := wearBase + 4096 * (seq % 2)

/-- The wear record written to the sector that does not hold the newest copy. -/
def writeWear (s : State) : State :=
  let w := { s.wear with seq := (s.wear.seq + 1) % 2 ^ 32 }
  flashWrite { s with wear := w, flashWear := vupd s.flashWear (Fin.ofNat 2 w.seq) fun _ => some w } (wearSector w.seq) (wearCopy s w)

/-- The copy that a sector holds, where the key in force has signed it (R545): the record that this part wrote, if its bytes still
stand there. -/
def wearAt (s : State) (k : Fin 2) : Option Wear :=
  let bs := flashRead s (wearSector k.val) 4096
  if !signedBy (edPublic (keyInForce s)) bs then none
  else match s.flashWear[k] with
    | some w => some (if padTo 4032 (wearBytes w) = bs.take 4032 then w else wearOf bs)
    | none => some (wearOf bs)

/-- The valid copy with the higher sequence number (R545). -/
def restoredWear (s : State) : Option Wear :=
  match wearAt s 0, wearAt s 1 with
  | some a, some b => some (if a.seq < b.seq then b else a)
  | some a, none => some a
  | none, b => b

/-! ## LIFE_USED (R543) -/

/-- The whole part of the tenth root of m, from bit `n` downwards. -/
def root10 (m : Nat) : Nat → Nat → Nat
  | 0, r => r
  | n + 1, r => root10 m n (if (r + 2 ^ n) ^ 10 ≤ m then r + 2 ^ n else r)

/-- What an hour at T °C adds to LIFE_USED: 1,024 × 2^((T − 95) / 10) in 1/1,024 h. Which way it is rounded, where it is no whole
number, is not stated (log 6). -/
def lifeUnits (t : Int) : Nat :=
  let up := if Config.lifeUp t then 1 else 0
  if t + 5 < 0 then up
  else
    let m := 2 ^ (t + 5).toNat
    let r := root10 m 24 0
    if r ^ 10 = m then r else r + up

end Sys2Proof.Machine
end

