-- ==== Sys2Proof/Machine/Faults.lean ====
section
/-! DEFINITION. Generation tags and fences (R508-R511), the dump queue (R537) and the resets that wait for a dump (R519,
R524). -/

namespace Sys2Proof.Machine

def domStore : DomainId := 20

/-- A domain is held in reset. -/
def State.inReset (s : State) (d : DomainId) : Bool := s.faults.inReset.toNat.testBit d.val

/-- The domain of an engine. -/
def engDomain (n : EngId) : DomainId := Fin.castLE (by decide) n

/-- The least time of a reset in ACLK (R505, R599). -/
def resetTime (d : DomainId) : Nat :=
  if d.val < 18 then 512
  else match d.val with
    | 20 => 512
    | 21 => 80000
    | 28 => 4000
    | 29 => 20000
    | _ => 800

/-- The tag of a domain advances, and a fence begins (R508-R510). Accesses are indivisible in this model, so a fence finds
no item to discard (log 36). -/
def advanceTag (s : State) (d : DomainId) : State :=
  let f := s.faults
  { s with faults := { f with
      gen := vupd f.gen d fun g => (g + 1) % 16
      fences := (f.fences.filter fun x => x.1 != d) ++ [(d, s.now)] } }

/-- A domain is held in reset from now on (R505, R507). -/
def holdReset (s : State) (d : DomainId) : State :=
  let f := s.faults
  { s with faults := { f with
      inReset := f.inReset ||| BitVec.ofNat 30 (2 ^ d.val), resetFrom := vupd f.resetFrom d fun _ => s.now
      resetDue := f.resetDue.filter fun x => x != d } }

/-- A dump asked for (R514, R537): a full one takes the place of those that wait; up to 4 domain dumps wait, and none of
a domain that is being dumped (log 35). -/
def queueDump (s : State) (job : DumpJob) : State :=
  let d := s.dump
  match job.domain with
  | none => if (d.queue.any fun j => j.domain == none) then s else { s with dump := { d with queue := [job] } }
  | some _ =>
    if (d.cur.any fun j => j.domain == job.domain) || (d.queue.any fun j => j.domain == job.domain || j.domain == none) ||
        decide (4 ≤ d.queue.length) then s
    else { s with dump := { d with queue := d.queue ++ [job] } }

/-- A domain found faulty: its tag advances, it is dumped and then reset; the store controllers are reset at once
(R508, R519, R524). The fault record is written after the tag advances (R515). -/
def findFaulty (s : State) (d : DomainId) (fcode : Nat) : State :=
  let s := advanceTag s d
  let s := queueDump s { domain := some d, cause := .finding fcode }
  if d = domStore then holdReset s d
  else { s with faults := { s.faults with resetDue := if s.faults.resetDue.contains d then s.faults.resetDue
    else s.faults.resetDue ++ [d] } }

end Sys2Proof.Machine
end

