-- ==== Sys2Proof/Machine/Mailboxes.lean ====
section
/-! DEFINITION. Mailboxes (R581-R584, R588, R589), the port bindings (R550, R551) and function 1 events (R568). -/

namespace Sys2Proof.Machine

/-- The interface that a port is bound to: 0 SDA, 1 SDB, 2 CN0, 3 CN1 (R550). -/
def State.ifOf (s : State) : Port → Nat
  | .a => s.boot.cfg.portA
  | .b => s.boot.cfg.portB

def sdIdx : SdIf → Nat
  | .sda => 0
  | .sdb => 1
def canIdx : CanIf → Nat
  | .cn0 => 2
  | .cn1 => 3

/-- The port bound to an interface, if any (R551). -/
def State.portOf (s : State) (i : Nat) : Option Port :=
  if s.boot.cfg.portA = i then some .a else if s.boot.cfg.portB = i then some .b else none

/-- Bits of EVT set on the SDIO interface of a port (R568); a port bound to CAN has none. -/
def evtPort (s : State) (p : Port) (bits : Nat) : State :=
  let set := fun (x : Sd) => { x with evt := x.evt ||| BitVec.ofNat 32 bits }
  if s.ifOf p = 0 then s.modSd .sda set else if s.ifOf p = 1 then s.modSd .sdb set else s

/-- The party that a master is for a mailbox: 0 host cluster, 1 AON, 2 Port A, 3 Port B (R581). -/
def mbxParty : Master → Option (BitVec 2)
  | .host _ => some 0
  | .aon => some 1
  | .io .a => some 2
  | .io .b => some 3
  | _ => none

/-- The party that a master is in this machine: a port bound to no SDIO interface uses no mailbox (R581). -/
def mbxWho (s : State) (m : Master) : Option (BitVec 2) :=
  match m with
  | .io p => if s.ifOf p < 2 then mbxParty m else none
  | m => mbxParty m

def State.modBox (s : State) (n : MbxId) (f : Mbox → Mbox) : State :=
  { s with mbx := { s.mbx with box := vupd s.mbx.box n f } }

/-- The receiver's wake event (R582): TDS event n, which also wakes a host cluster in DOZE (R671), or EVT bit 16 of its port. -/
def mbxWake (s : State) (n : MbxId) : State :=
  match s.mbx.box[n].receiver.toNat with
  | 0 => { s.tdsEvent n.val with power := { (s.tdsEvent n.val).power with hostDoze := false } }
  | 2 => evtPort s .a (2 ^ 16)
  | 3 => evtPort s .b (2 ^ 16)
  | _ => s.tdsEvent n.val

/-- A message posted by the party `who` (R582, R583). A length outside 1-64 ends with a bus error (log 24). -/
def mbxPostEffect (who : Option (BitVec 2)) (n : MbxId) (len : BitVec 7) (s : State) : State :=
  let b := s.mbx.box[n]
  if who ≠ some b.sender ∨ b.full ∨ len.toNat = 0 ∨ 64 < len.toNat then s.busErr
  else mbxWake (s.modBox n fun x => { x with full := true, len := len }).okBus n


/-- Bytes that no rule gives (log 5). -/
def freeBytes : Nat → State → Bytes × State
  | 0, s => ([], s)
  | n + 1, s =>
    let (b, s) := s.free 8
    let (bs, s) := freeBytes n s
    (b :: bs, s)

/-- The port whose customer access waits for mailbox 31, the older where both do. -/
def customDue (s : State) : Option Port :=
  let due := fun (p : Port) => (s.port p).cust.filter fun q => !q.posted
  match due .a, due .b with
  | some x, some y => some (if y.at_ < x.at_ then .b else .a)
  | some _, none => some .a
  | none, some _ => some .b
  | none, none => none

/-- While mailbox 31 is EMPTY, the message that carries an access goes into it; how it is laid out is not stated, so its content and
length are free values (R552; log 79). -/
def postCustom (s : State) : State :=
  match s.mbx.box[(31 : MbxId)].full, customDue s with
  | false, some p =>
    let s := s.modPort p fun x => { x with cust := x.cust.map fun q => { q with posted := true } }
    let (bs, s) := freeBytes 64 s
    let (n, s) := s.free 6
    mbxWake (s.modBox 31 fun x => { x with full := true, len := BitVec.ofNat 7 (n.toNat + 1), data := bs }) 31
  | _, _ => s

/-- A message acknowledged by its receiver (R583): the mailbox becomes EMPTY and the sender is told. Mailbox 31 then takes the next
customer access (R552). -/
def mbxAckEffect (who : Option (BitVec 2)) (n : MbxId) (s : State) : State :=
  let b := s.mbx.box[n]
  if who ≠ some b.receiver ∨ !b.full then s.busErr
  else
    let s := (s.modBox n fun x => { x with full := false }).okBus
    let s := { s with mbx := { s.mbx with emptied := s.mbx.emptied ||| BitVec.ofNat 32 (2 ^ n.val) } }
    let s := match b.sender.toNat with
      | 2 => evtPort s .a (2 ^ 17)
      | 3 => evtPort s .b (2 ^ 17)
      | _ => s
    if n = 31 then postCustom s else s


/-- A write of MBX_ACKn (R583): with bit 0 set it acknowledges; with bit 0 clear it is nothing from the receiver of a held message,
and from another master, or to an EMPTY mailbox, it ends with a bus error as every write does. -/
def mbxAckWrite (who : Option (BitVec 2)) (n : MbxId) (ack : Bool) (s : State) : State :=
  if ack then mbxAckEffect who n s
  else if who ≠ some s.mbx.box[n].receiver ∨ !s.mbx.box[n].full then s.busErr
  else s.okBus

/-- Bytes written into a data window from offset `off` (R582): by the sender only, while EMPTY. -/
def mbxData (who : Option (BitVec 2)) (n : MbxId) (off : Nat) (bs : Bytes) (s : State) : State :=
  let b := s.mbx.box[n]
  if who ≠ some b.sender ∨ b.full then s.busErr
  else
    (s.modBox n fun x =>
      { x with data := padTo 64 (slice x.data 0 off ++ bs ++ x.data.drop (off + bs.length)) }).okBus

end Sys2Proof.Machine
end

