-- ==== Sys2Proof/Machine/Ports.lean ====
section
/-! DEFINITION. What the two master ports share: the answer to an access at its interface (R556, R569, R574, R579), the
requests for SEM (R554, R555) and what a stop order does to run orders (R558, R559). -/

namespace Sys2Proof.Machine

/-! ## XL segments (R577-R579) -/

/-- Bytes of object data in every XL segment but the last. -/
def xlSeg : Nat := 2032

/-- The number of segments of a read. -/
def xlSegs (x : XlSession) : Nat := max 1 (ceilDiv x.total xlSeg)

/-- The data field of an XL block frame (R578): the block header and the object data. -/
def xlFrame (op index sub seg : Nat) (last : Bool) (total : Nat) (code : Word) (data : Bytes) : Bytes :=
  [BitVec.ofNat 8 op, BitVec.ofNat 8 (bit last)] ++ leBytes 2 index ++ [BitVec.ofNat 8 sub, 0] ++ leBytes 2 seg ++
    leBytes 4 total ++ leBytes 4 code.toNat ++ data

/-- A block frame without object data: ACK, DONE, ABORT. -/
def xlBare (op index sub seg : Nat) (code : Word) : Bytes := xlFrame op index sub seg false 0 code []

/-- Segments sent while fewer than 4 are unacknowledged. -/
def xlFill (now : Nat) : Nat → Can → Can
  | 0, k => k
  | n + 1, k =>
    match k.xl with
    | none => k
    | some x =>
      if x.isWrite || decide (4 ≤ x.unacked) || decide (xlSegs x ≤ x.nextSeg) then k
      else
        let last := x.nextSeg + 1 == xlSegs x
        let code : Word := if last then BitVec.ofNat 32 (crc32 x.data) else 0
        xlFill now n { k with
          tx := k.tx ++ [.xl x.session (xlFrame 3 x.index x.sub x.nextSeg last (if x.nextSeg = 0 then x.total else 0) code
            ((x.data.drop (xlSeg * x.nextSeg)).take xlSeg))]
          xl := some { x with nextSeg := x.nextSeg + 1, unacked := x.unacked + 1, lastAt := now } }

/-! ## Answers -/

/-- A frame that the controller may send: it is on the bus, not bus-off, and its NMT state is not stopped (log 56). -/
def Can.talks (k : Can) : Bool := k.en && k.bus != 2 && k.nmt != 4

/-- The answer of an access on CAN: an SDO or USDO response, or the frames of the XL session. -/
def canAnswer (now : Nat) (a : Answer) (k : Can) : Can :=
  if !k.talks then { k with xl := none }
  else if k.gen ≠ 2 then { k with tx := k.tx ++ [.sdo a.index a.sub a.abort a.data] }
  else match k.xl with
    | none => k
    | some x =>
      if x.index ≠ a.index ∨ x.sub ≠ a.sub ∨ (x.isWrite && !x.finished) then k
      else if a.abort ≠ 0 then { k with xl := none, tx := k.tx ++ [.xl x.session (xlBare 0x7F x.index x.sub 0 a.abort)] }
      else if x.isWrite then { k with xl := none, tx := k.tx ++ [.xl x.session (xlBare 5 x.index x.sub 0 0)] }
      else xlFill now 4 { k with xl := some { x with total := a.data.length, data := a.data } }

/-- The answer of an access on SDIO: OD_STATUS is DONE or ABORTED, EVT bit 18 is set (R568, R569). -/
def sdAnswer (read : Bool) (a : Answer) (x : Sd) : Sd :=
  let x := { x with odSeq := x.odSeq + 1, evt := x.evt ||| BitVec.ofNat 32 (2 ^ 18) }
  if a.abort ≠ 0 then { x with odStatus := 3, odAbort := a.abort, fifo := [] }
  else if read then { x with odStatus := 2, odLen := a.data.length, fifo := a.data }
  else { x with odStatus := 2, fifo := [] }

/-- The answer given at a port. While the I/O cluster is in reset there is none (R560), nor is there one at a port that is
bound to no interface: before the configuration record is in force, and in recovery boot (R629, R630). -/
def answerAt (s : State) (p : Port) (read : Bool) (a : Answer) : State :=
  if s.faults.inReset.toNat.testBit 29 || decide (4 ≤ s.ifOf p) then s
  else
    let s := s.modPort p fun x => { x with answer := some a }
    match s.ifOf p with
    | 0 => s.modSd .sda (sdAnswer read a)
    | 1 => s.modSd .sdb (sdAnswer read a)
    | 2 => s.modCan .cn0 (canAnswer s.now a)
    | 3 => s.modCan .cn1 (canAnswer s.now a)
    | _ => s

/-- A write whose XL session has ended is no longer owed an answer (R580). -/
def forget (s : State) (p : Port) (w : ObjWrite) : State := s.modPort p fun x => { x with ended := x.ended.erase w }

/-- A write answered: 0 for success, else the abort code. -/
def answerWrite (s : State) (p : Port) (w : ObjWrite) (code : Nat) : State :=
  if (s.port p).ended.contains w then forget s p w
  else answerAt s p false { index := w.index, sub := w.sub, abort := BitVec.ofNat 32 code, data := [] }

/-- The writes of a port that wait for SEM or hold it. -/
def portWrites (s : State) (p : Port) : List ObjWrite :=
  ((if s.sem.lost then [] else s.sem.holder.toList) ++ s.sem.waiting).filterMap fun x => if x.1 = p then some x.2 else none

/-- A controller's XL session ends: what its port still waits for is answered to nobody (R580). -/
def endXl (n : CanIf) (s : State) : State :=
  let open_ := (s.can n).xl.isSome
  let s := s.modCan n fun k => { k with xl := none }
  match open_, s.portOf (canIdx n) with
  | true, some p => s.modPort p fun x =>
      { x with ended := portWrites s p, cust := x.cust.map fun q => { q with lost := true } }
  | _, _ => s

/-! ## Stop orders and run orders (R558, R559) -/

/-- What a run order acts on: a context, or the part (none). -/
def runOrder (w : ObjWrite) : Option (Option CtxId) :=
  if w.data.length ≠ 1 then none
  else
    let v := leNat w.data
    match objCtx w.index with
    | (some c, 0x2000) => if w.sub = 1 ∧ v = 1 then some (some c) else none
    | (some c, 0x2301) => if w.sub = 5 then some (some c) else none
    | (none, 0x2300) => if w.sub = 4 then some none else none
    | (none, 0x2700) => if w.sub = 0x10 ∧ (v = 1 ∨ v = 4) then some none else none
    | _ => none

/-- What a stop order acts on: a context, or the part (none). -/
def stopOrder (w : ObjWrite) : Option (Option CtxId) :=
  if w.data.length ≠ 1 then none
  else
    let v := leNat w.data
    match objCtx w.index with
    | (some c, 0x2000) => if w.sub = 1 ∧ v = 2 then some (some c) else none
    | (some c, 0x2301) => if w.sub = 4 ∧ v = 1 then some (some c) else none
    | (none, 0x2300) => if w.sub = 3 ∧ v = 1 then some none else none
    | (none, 0x2700) => if w.sub = 0x10 ∧ (v = 2 ∨ v = 5) then some none else none
    | _ => none

/-- A run order that an accepted stop order defeats: for the same context, or any if the stop order is for the part. -/
def beats (target : Option CtxId) (w : ObjWrite) : Bool :=
  match runOrder w with
  | some r => target.isNone || r == target
  | none => false

/-- SEM goes to the oldest waiting write at the edge at which it is released (R554). -/
def semNext (s : State) : State :=
  match s.sem.holder, s.sem.waiting with
  | none, x :: rest => { s with sem := { s.sem with holder := some x, lost := false, waiting := rest } }
  | _, _ => s

/-- A stop order is accepted: the run orders that wait for SEM or hold it are refused and counted (R559); one whose
answer a reset of the I/O cluster has lost gets none (R560). -/
def stopWins (target : Option CtxId) (s : State) : State :=
  let holds : List (Port × ObjWrite) := s.sem.holder.toList
  let lose := (holds ++ s.sem.waiting).filter fun x => beats target x.2
  let keep := fun (x : Port × ObjWrite) => !beats target x.2
  let silent := if s.sem.lost then holds else []
  let s := { s with sem := { s.sem with
    holder := s.sem.holder.filter keep, waiting := s.sem.waiting.filter keep
    stopWins := satAdd 65535 s.sem.stopWins lose.length } }
  semNext ((lose.filter fun x => !silent.contains x).foldl (fun s x => answerWrite s x.1 x.2 0x08000022) s)

/-! ## Asking for SEM (R554, R555) -/

/-- One write asks for SEM: granted where it is free, otherwise it waits, behind those that asked before. -/
def askOne (s : State) (p : Port) (w : ObjWrite) : State :=
  let s := semNext s
  match s.sem.holder with
  | none => { s with sem := { s.sem with holder := some (p, w), lost := false } }
  | some _ => { s with sem := { s.sem with waiting := s.sem.waiting ++ [(p, w)] } }

/-- Writes of both ports ask at one edge: TIE decides and toggles, the loser is refused (R555; log 74). -/
def askBoth (s : State) (a b : ObjWrite) : State :=
  let tie := s.sem.tie
  let s := { s with sem := { s.sem with tie := !tie, ties := satAdd 65535 s.sem.ties 1 } }
  if tie then answerWrite (askOne s .b b) .a a 0x08000022 else answerWrite (askOne s .a a) .b b 0x08000022

end Sys2Proof.Machine
end

