-- ==== Sys2Proof/Machine/WorldTree.lean ====
section
/-! DEFINITION. The world tree (R56-R77): places, lookups, exact distances, updates, coarsening and pruning. Lengths are in
the edge-table unit of 0.25 mm. -/

namespace Sys2Proof.Machine

/-- A point of the cell frame in 0.25 mm. -/
structure V3 where
  x : Int
  y : Int
  z : Int
deriving DecidableEq, Repr, Inhabited

def V3.add (a b : V3) : V3 := ⟨a.x + b.x, a.y + b.y, a.z + b.z⟩
def V3.sub (a b : V3) : V3 := ⟨a.x - b.x, a.y - b.y, a.z - b.z⟩
def V3.scale (k : Int) (a : V3) : V3 := ⟨k * a.x, k * a.y, k * a.z⟩
/-- Each coordinate divided by `k`, rounded down. -/
def V3.cut (k : Int) (a : V3) : V3 := ⟨a.x.fdiv k, a.y.fdiv k, a.z.fdiv k⟩
def V3.all (p : Int → Bool) (a : V3) : Bool := p a.x && p a.y && p a.z
/-- The point shifted by `k` along every axis. -/
def V3.shift (k : Int) (a : V3) : V3 := a.add ⟨k, k, k⟩

/-- A packed region word: bits [7:0] X, [15:8] Y, [23:16] Z (R98). -/
def unpack3 (v : Nat) : V3 := ⟨fld v 0 8, fld v 8 8, fld v 16 8⟩

/-! ## Geometry -/

def Geom.lo (g : Geom) : V3 := ⟨320 * g.boxLoX, 320 * g.boxLoY, 320 * g.boxLoZ⟩
def Geom.size (g : Geom) : V3 := ⟨320 * g.sizeX, 320 * g.sizeY, 320 * g.sizeZ⟩
def Geom.nx (g : Geom) : Nat := ceilDiv g.sizeX 4
def Geom.ny (g : Geom) : Nat := ceilDiv g.sizeY 4
def Geom.nz (g : Geom) : Nat := ceilDiv g.sizeZ 4
/-- The point lies in the workspace box (R57, R58). -/
def Geom.inside (g : Geom) (p : V3) : Bool :=
  let u := p.sub g.lo
  let z := g.size
  (u.all fun a => decide (0 ≤ a)) && decide (u.x < z.x) && decide (u.y < z.y) && decide (u.z < z.z)
/-- The number of a crown cell (R60). -/
def Geom.cellOf (g : Geom) (k : V3) : Nat := (k.x + g.nx * k.y + g.nx * g.ny * k.z).toNat
/-- The coordinates of a crown cell. -/
def Geom.cellAt (g : Geom) (c : Nat) : V3 := ⟨c % g.nx, c / g.nx % g.ny, c / (g.nx * g.ny)⟩
/-- A cell lies in a region box given in crown cells; size 0 means none. -/
def inRegion (lo size : Nat) (k : V3) : Bool :=
  let d := k.sub (unpack3 lo)
  let z := unpack3 size
  (d.all fun a => decide (0 ≤ a)) && decide (d.x < z.x) && decide (d.y < z.y) && decide (d.z < z.z)
/-- The level at which a crown cell is built (R59). -/
def Geom.level (g : Geom) (c : Nat) : Nat :=
  let k := g.cellAt c
  if inRegion g.l0Lo g.l0Size k then 0 else if inRegion g.l1Lo g.l1Size k then 1 else 2
/-- EXP_LVL of a level. -/
def Geom.expOf (g : Geom) (l : Nat) : Nat := fld g.expLvl (4 * l) 4
/-- HORIZON in 0.25 mm. -/
def Geom.hor (g : Geom) : Nat := 4 * g.horizon
/-- A voxel value counts as occupied (R65). -/
def Geom.occ (g : Geom) (l : Int) : Bool := decide (g.lOcc ≤ l) || (l == -128 && g.unknownAs == 0)

/-- The edge of a brick and of a voxel of a level. -/
def brickEdge (l : Nat) : Nat := 320 * 2 ^ l
def voxEdge (l : Nat) : Nat := 40 * 2 ^ l

/-- An octant or voxel offset: bit or base-8 digits x, y, z. -/
def digits (b i : Nat) : V3 := ⟨i % b, i / b % b, i / (b * b) % b⟩

/-- A place of the tree: the level of the brick it may hold, crown cell, octants. -/
structure Place where
  lvl : Nat
  c : Nat
  o1 : Nat
  o0 : Nat
deriving DecidableEq, Repr, Inhabited

/-- The lower corner of a place. -/
def Geom.origin (g : Geom) (p : Place) : V3 :=
  let a := g.lo.add ((g.cellAt p.c).scale 1280)
  let a := if p.lvl ≤ 1 then a.add ((digits 2 p.o1).scale 640) else a
  if p.lvl = 0 then a.add ((digits 2 p.o0).scale 320) else a

/-- A voxel descriptor (R115). -/
def Place.desc (p : Place) (i : Nat) : Nat := p.lvl * 2 ^ 30 + p.c * 2 ^ 15 + p.o1 * 2 ^ 12 + p.o0 * 2 ^ 9 + i
def descPlace (d : Nat) : Place := ⟨fld d 30 2, fld d 15 15, fld d 12 3, fld d 9 3⟩

/-- The lower corner of voxel i of a brick at a place, and its centre. -/
def Geom.voxLo (g : Geom) (p : Place) (i : Nat) : V3 := (g.origin p).add ((digits 8 i).scale (voxEdge p.lvl))
def Geom.voxMid (g : Geom) (p : Place) (i : Nat) : V3 := (g.voxLo p i).shift (voxEdge p.lvl / 2)

/-- The place, at level `l` of its crown cell, and the voxel that contain a point of the box. -/
def Geom.voxAt (g : Geom) (l : Nat) (p : V3) : Place × Nat :=
  let u := p.sub g.lo
  let k := u.cut 1280
  let r := u.sub (k.scale 1280)
  let o1 := r.cut 640
  let r1 := r.sub (o1.scale 640)
  let o0 := r1.cut 320
  let r0 := r1.sub (o0.scale 320)
  let oct := fun (v : V3) => (v.x + 2 * v.y + 4 * v.z).toNat
  let vox := fun (v : V3) => (v.x + 8 * v.y + 64 * v.z).toNat
  let c := g.cellOf k
  match l with
  | 0 => (⟨0, c, oct o1, oct o0⟩, vox (r0.cut 40))
  | 1 => (⟨1, c, oct o1, 0⟩, vox (r1.cut 80))
  | _ => (⟨2, c, 0, 0⟩, vox (r.cut 160))

/-- The descriptor of the voxel that contains a point, at the level that R59 gives; none outside the box. -/
def Geom.target (g : Geom) (p : V3) : Option Nat :=
  if g.inside p then
    let l := g.level (g.cellOf ((p.sub g.lo).cut 1280))
    let (q, i) := g.voxAt l p
    some (q.desc i)
  else none

/-! ## Entries -/

/-- Never observed: UNKNOWN = 1, VALUE = 0xFF, EXP = EXP_LVL of the level (R71, R76, R86). -/
def Geom.unknown (g : Geom) (l : Nat) : Uni := ⟨-1, g.expOf l, true⟩

/-- The entry of a crown cell; a cell not listed holds the initial entry. -/
def Geom.entry (g : Geom) (cr : Crown) (c : Nat) : CrownEntry := amGetD cr c (.uniform (g.unknown 2))

/-- The uniform regions and bricks below a crown entry, with their places (R61). -/
def leavesOf (c : Nat) : CrownEntry → List (Place × L0Entry)
  | .uniform u => [(⟨2, c, 0, 0⟩, .uniform u)]
  | .brick b => [(⟨2, c, 0, 0⟩, .brick b)]
  | .refined ch => ch.zipIdx.flatMap fun (e, o1) => match e with
    | .uniform u => [(⟨1, c, o1, 0⟩, .uniform u)]
    | .brick b => [(⟨1, c, o1, 0⟩, .brick b)]
    | .refined ch0 => ch0.zipIdx.map fun (x, o0) => (⟨0, c, o1, o0⟩, x)

/-- The leaf that contains a point of the box, with its place (R61). -/
def Geom.leafAt (g : Geom) (cr : Crown) (p : V3) : Place × L0Entry :=
  let q1 := (g.voxAt 1 p).1
  let q0 := (g.voxAt 0 p).1
  match g.entry cr q0.c with
  | .uniform u => (⟨2, q0.c, 0, 0⟩, .uniform u)
  | .brick b => (⟨2, q0.c, 0, 0⟩, .brick b)
  | .refined ch => match ch[q0.o1]? with
    | some (.uniform u) => (q1, .uniform u)
    | some (.brick b) => (q1, .brick b)
    | some (.refined ch0) => (q0, ch0[q0.o0]?.getD (.uniform (g.unknown 0)))
    | none => (q1, .uniform (g.unknown 1))

/-- The number of a place: bits [31:9] of its descriptors (R115). -/
def Place.num (p : Place) : Nat := p.desc 0 / 512

/-- The places whose entries a lookup reads on its way to a leaf, the crown entry first (R61). -/
def Place.path (p : Place) : List Place :=
  ⟨2, p.c, 0, 0⟩ :: (if p.lvl ≤ 1 then [⟨1, p.c, p.o1, 0⟩] else []) ++ (if p.lvl = 0 then [p] else [])

/-- A lookup (R61, R62): the SDF8 value and the exponent, or none for OUTSIDE. `bad` lists the places (by number) whose tree
entry is a world fault: the first of them on the way is read as UNIFORM with UNKNOWN = 1. DESIGN CHOICE (log 124): its EXP is EXP_LVL
of the place's level, as at any other UNKNOWN entry. -/
def Geom.lookup (g : Geom) (cr : Crown) (bad : List Nat) (p : V3) : Option (Int × Nat) :=
  if g.inside p then
    let (q, e) := g.leafAt cr p
    match q.path.find? fun x => bad.contains x.num with
    | some x => some (-1, g.expOf x.lvl)
    | none => match e with
      | .uniform u => if u.unknown then some (-1, u.exp) else some (u.value, u.exp)
      | .brick b => some (b.sdf[(g.voxAt q.lvl p).2]?.getD (-1), b.exp)
  else none

/-- Whether a point of the box lies in occupied space (R65), and the edge of the voxel or region it lies in. -/
def Geom.occAt (g : Geom) (cr : Crown) (p : V3) : Bool × Nat :=
  let (q, e) := g.leafAt cr p
  match e with
  | .uniform u => (u.unknown, brickEdge q.lvl)
  | .brick b => (g.occ (b.occ[(g.voxAt q.lvl p).2]?.getD (-128)), voxEdge q.lvl)

/-! ## Distances (R67-R69) -/

/-- A cube that is wholly occupied or wholly free. -/
structure Cube where
  lo : V3
  edge : Nat
  occ : Bool
deriving DecidableEq, Repr, Inhabited

/-- The cubes of a leaf: the voxels of a brick that lie in the box, or a region as one cube (R65, R67). Outside the box
nothing takes part: a region none of whose voxels lies in the box has no cube. -/
def Geom.cubes (g : Geom) (p : Place) : L0Entry → List Cube
  | .uniform u => if g.inside (g.origin p) then [⟨g.origin p, brickEdge p.lvl, u.unknown⟩] else []
  | .brick b => b.occ.zipIdx.filterMap fun (l, i) =>
    let lo := g.voxLo p i
    if g.inside lo then some ⟨lo, voxEdge p.lvl, g.occ l⟩ else none

/-- The gap between a coordinate and a closed interval. -/
def gap1 (a lo : Int) (e : Nat) : Int := if a < lo then lo - a else if lo + e < a then a - (lo + e) else 0

/-- The squared distance from a point to a cube. -/
def Cube.d2 (k : Cube) (p : V3) : Nat :=
  let a := gap1 p.x k.lo.x k.edge
  let b := gap1 p.y k.lo.y k.edge
  let c := gap1 p.z k.lo.z k.edge
  (a * a + b * b + c * c).toNat

/-- The crown cells that come within `h` of a point. -/
def Geom.cellsNear (g : Geom) (p : V3) (h : Nat) : List Nat :=
  let u := p.sub g.lo
  let a := (u.shift (-(h : Int))).cut 1280
  let b := (u.shift h).cut 1280
  let span := fun (lo hi : Int) (n : Nat) => (List.range n).filter fun (k : Nat) => decide (lo ≤ (k : Int)) && decide ((k : Int) ≤ hi)
  (span a.z b.z g.nz).flatMap fun z => (span a.y b.y g.ny).flatMap fun y => (span a.x b.x g.nx).map fun x =>
    x + g.nx * y + g.nx * g.ny * z

/-- The least squared distance from a point to an occupied cube (or a free one), HORIZON squared at most. -/
def Geom.nearest (g : Geom) (cr : Crown) (occ : Bool) (p : V3) : Nat :=
  (g.cellsNear p g.hor).foldl (fun best c =>
    (leavesOf c (g.entry cr c)).foldl (fun best (q, e) =>
      (g.cubes q e).foldl (fun best k => if k.occ = occ then min best (k.d2 p) else best) best) best)
    (g.hor * g.hor)

/-- The code of a distance of `sqrt n` units, or minus that, at exponent e (R68): rounded down, held to ±127. -/
def sdfCode (neg : Bool) (n e : Nat) : Int :=
  let num := 1024 * n
  let den := 15625 * 4 ^ e
  let k := isqrt (num / den)
  if neg then clampI (-127) 127 (-(if k * k * den = num then (k : Int) else (k : Int) + 1)) else clampI (-127) 127 k

/-- The distance of a voxel or cell centre (R67): its sign and its square. -/
def Geom.dist (g : Geom) (cr : Crown) (occ : Bool) (mid : V3) : Bool × Nat := (occ, g.nearest cr (!occ) mid)

/-- The smallest exponent from `lo` on that reaches every listed distance (R69). -/
def sdfExp (lo : Nat) (ns : List Nat) : Nat :=
  let m := ns.foldl max 0
  ((List.range 16).find? fun e => decide (lo ≤ e) && decide (1024 * m ≤ (15875 * 2 ^ e) ^ 2)).getD 15

/-- A brick with its SDF plane and exponent recomputed (R67-R70). -/
def Geom.sdfOf (g : Geom) (cr : Crown) (p : Place) (b : Brick) : Brick :=
  let ds := b.occ.zipIdx.map fun (l, i) =>
    if g.inside (g.voxLo p i) then some (g.dist cr (g.occ l) (g.voxMid p i)) else none
  let e := sdfExp (g.expOf p.lvl) (ds.filterMap fun d => d.map (·.2))
  { b with exp := e, sdf := ds.map fun d => match d with
    | some (neg, n) => sdfCode neg n e
    | none => 127 }

/-- The centres in the box of the voxels that a brick at a place would hold. -/
def Geom.mids (g : Geom) (p : Place) : List V3 :=
  ((List.range 512).filter fun i => g.inside (g.voxLo p i)).map (g.voxMid p)

/-- VALUE of a free uniform region recomputed (R70). -/
def Geom.uniValue (g : Geom) (cr : Crown) (p : Place) (u : Uni) : Uni :=
  let e := g.expOf p.lvl
  { u with exp := e, value := (g.mids p).foldl (fun m q => min m (sdfCode false (g.nearest cr true q) e)) 127 }

/-! ## Updates -/

/-- A brick allocated for a uniform region (R72). -/
def Geom.fresh (g : Geom) (ep : Word) (l : Nat) (u : Uni) : Brick :=
  { lastEpoch := ep, exp := g.expOf l, coarsened := false, external := false,
    occ := List.replicate 512 (if u.unknown then -128 else g.lPrune), stat := List.replicate 512 false,
    sdf := List.replicate 512 (-1) }

/-- A change `f` of log-odds and static bit applied to voxel i of a brick, at the publication of epoch `ep` (R63 header). -/
def brickPut (ep : Word) (ext : Bool) (f : Int → Bool → Int × Bool) (i : Nat) (b : Brick) : Brick :=
  let l := b.occ[i]?.getD (-128)
  let t := b.stat[i]?.getD false
  let (l', t') := f l t
  if l' = l ∧ t' = t then b else { b with lastEpoch := ep, occ := b.occ.set i l', stat := b.stat.set i t', external := ext }

/-- A coarsened brick split again (R76): the octant `o` of the parent, whose voxels take the parent's values. -/
def octantBrick (ep : Word) (o : Nat) (co : Bool) (b : Brick) : Brick :=
  let at_ := fun (i : Nat) =>
    let v := digits 8 i
    let h := digits 2 o
    let w := fun (a k : Int) => (a + 8 * k) / 2
    (w v.x h.x + 8 * w v.y h.y + 64 * w v.z h.z).toNat
  { b with
    lastEpoch := ep
    coarsened := co
    occ := (List.range 512).map fun i => b.occ[at_ i]?.getD (-128)
    stat := (List.range 512).map fun i => b.stat[at_ i]?.getD false }

/-- What an update of one voxel found: the new entry and the bricks it took, or that it needs a brick. -/
abbrev Upd (α : Type) := Option (α × Nat)

/-- An update at a place that may hold a brick of its own. -/
def updLeaf (g : Geom) (ep : Word) (avail l i : Nat) (ext skip : Bool) (f : Int → Bool → Int × Bool) : L0Entry → Upd L0Entry
  | .uniform v =>
    if skip && !v.unknown then some (.uniform v, 0)
    else if avail = 0 then none
    else some (.brick (brickPut ep ext f i (g.fresh ep l v)), 1)
  | .brick b => some (.brick (brickPut ep ext f i b), 0)

/-- An update below an L1 child, at target level `l` (0 or 1); `i1` is the voxel at level 1, `i0` at level 0. -/
def updL1 (g : Geom) (ep : Word) (avail l o0 i1 i0 : Nat) (ext skip : Bool) (f : Int → Bool → Int × Bool) : L1Entry → Upd L1Entry
  | .uniform v =>
    if skip && !v.unknown then some (.uniform v, 0)
    else if l = 1 then
      if avail = 0 then none else some (.brick (brickPut ep ext f i1 (g.fresh ep 1 v)), 1)
    else
      (updLeaf g ep avail 0 i0 ext skip f (.uniform v)).map fun (x, n) =>
        (.refined ((List.replicate 8 (.uniform v)).set o0 x), n)
  | .brick b =>
    if l = 0 ∧ 8 ≤ avail then
      let ch := (List.range 8).map fun o => L0Entry.brick (octantBrick ep o false b)
      (updLeaf g ep (avail - 8) 0 i0 ext skip f (ch[o0]?.getD (.brick b))).map fun (x, n) => (.refined (ch.set o0 x), n + 8)
    else some (.brick (brickPut ep ext f i1 b), 0)
  | .refined ch =>
    (updLeaf g ep avail 0 i0 ext skip f (ch[o0]?.getD (.uniform (g.unknown 0)))).map fun (x, n) => (.refined (ch.set o0 x), n)

/-- An update below a crown entry, at target level `l`. DESIGN CHOICE (log 107): an image's entry at a static voxel touches the
brick too, so a coarsened one splits (R76) although the entry then leaves the voxel alone (R111). -/
def updCrown (g : Geom) (ep : Word) (avail l o1 o0 i2 i1 i0 : Nat) (ext skip : Bool) (f : Int → Bool → Int × Bool) :
    CrownEntry → Upd CrownEntry
  | .uniform v =>
    if skip && !v.unknown then some (.uniform v, 0)
    else if l = 2 then
      if avail = 0 then none else some (.brick (brickPut ep ext f i2 (g.fresh ep 2 v)), 1)
    else
      (updL1 g ep avail l o0 i1 i0 ext skip f (.uniform v)).map fun (x, n) =>
        (.refined ((List.replicate 8 (.uniform v)).set o1 x), n)
  | .brick b =>
    if l < 2 ∧ 8 ≤ avail then
      let ch := (List.range 8).map fun o => L1Entry.brick (octantBrick ep o (decide (l = 0)) b)
      (updL1 g ep (avail - 8) l o0 i1 i0 ext skip f (ch[o1]?.getD (.brick b))).map fun (x, n) =>
        (.refined (ch.set o1 x), n + 8)
    else some (.brick (brickPut ep ext f i2 b), 0)
  | .refined ch =>
    (updL1 g ep avail l o0 i1 i0 ext skip f (ch[o1]?.getD (.uniform (g.unknown 1)))).map fun (x, n) =>
      (.refined (ch.set o1 x), n)

/-! ## The pool within one publication (R74-R76) -/

/-- The world while a publication of epoch `epoch` is made: `room` is the number of bricks that R74 still lets it allocate; `blocked` the
places of R76. -/
structure PubW where
  g : Geom
  epoch : Word
  cr : Crown
  room : Nat
  blocked : List Place
  coarsened : Nat
  failed : Nat
  rejected : Nat
deriving DecidableEq, Repr, Inhabited

def bricksOf (cr : Crown) : List (Place × Brick) :=
  cr.flatMap fun (c, e) => (leavesOf c e).filterMap fun (p, x) => match x with
    | .brick b => some (p, b)
    | .uniform _ => none

/-- The largest LAST_EPOCH of the bricks below the children of a node, if there is any. -/
def nodeEpoch (ch : List L0Entry) : Option Nat :=
  ch.foldl (fun m e => match e with
    | .brick b => some (max (m.getD 0) b.lastEpoch.toNat)
    | .uniform _ => m) none

/-- The log-odds and static bit of a voxel of a child leaf. DESIGN CHOICE (log 107): a UNIFORM child lends the values that R72
would give a brick in its place, under either UNKNOWN_AS. -/
def leafVox (g : Geom) (i : Nat) : L0Entry → Int × Bool
  | .uniform v => (if v.unknown then -128 else g.lPrune, false)
  | .brick b => (b.occ[i]?.getD (-128), b.stat[i]?.getD false)

/-- A parent voxel formed from its 8 children (R75). -/
def mergeVox (g : Geom) (vs : List (Int × Bool)) : Int × Bool :=
  let m := vs.foldl (fun m v => max m v.1) (-128)
  (if vs.any fun v => g.occ v.1 then m else if vs.any fun v => v.1 == -128 then -128 else m, vs.all fun v => v.2)

/-- The parent brick of 8 children (R75). -/
def mergeBrick (g : Geom) (ep : Word) (l : Nat) (ch : List L0Entry) : Brick :=
  let vs := (List.range 512).map fun i =>
    let v := digits 8 i
    let o := v.cut 4
    let r := (v.sub (o.scale 4)).scale 2
    let kid := ch[(o.x + 2 * o.y + 4 * o.z).toNat]?.getD (.uniform (g.unknown l))
    mergeVox g ((List.range 8).map fun k =>
      let w := r.add (digits 2 k)
      leafVox g (w.x + 8 * w.y + 64 * w.z).toNat kid)
  { lastEpoch := ep, exp := g.expOf l, coarsened := true, external := false, occ := vs.map (·.1), stat := vs.map (·.2),
    sdf := List.replicate 512 (-1) }

/-- An L1 child as a leaf; a refined one lends the voxels that its L0 children give (R75). -/
def l1Leaf (g : Geom) : L1Entry → L0Entry
  | .uniform v => .uniform v
  | .brick b => .brick b
  | .refined ch => .brick (mergeBrick g 0 1 ch)

/-- The nodes of L0 bricks: key, crown cell, octant. -/
def coarsenL1 (cr : Crown) : List (Nat × Nat × Nat) :=
  cr.flatMap fun (c, e) => match e with
    | .refined ch => ch.zipIdx.filterMap fun (x, o1) => match x with
      | .refined ch0 => (nodeEpoch ch0).map fun k => (k, c, o1)
      | _ => none
    | _ => []

/-- The crown nodes of L1 bricks without L0 bricks below: key, crown cell. -/
def coarsenCrown (cr : Crown) : List (Nat × Nat) :=
  cr.filterMap fun (c, e) => match e with
    | .refined ch =>
      if ch.any fun x => match x with
        | .refined ch0 => (nodeEpoch ch0).isSome
        | _ => false
      then none
      else
        (nodeEpoch (ch.filterMap fun x => match x with
          | .brick b => some (.brick b)
          | _ => none)).map fun k => (k, c)
    | _ => none

/-- The first of the entries with the smallest key; the list is in the order of ties. -/
def leastKey {α : Type} (l : List (Nat × α)) : Option (Nat × α) :=
  l.foldl (fun best x => match best with
    | none => some x
    | some b => if x.1 < b.1 then some x else some b) none

/-- One node coarsened (R75): the slots of its children count toward the need of this publication (log 25). -/
def PubW.coarsen (w : PubW) : Option PubW :=
  match leastKey (coarsenL1 w.cr) with
  | some (_, c, o1) =>
    match amGet w.cr c with
    | some (.refined ch) => match ch[o1]? with
      | some (.refined ch0) =>
        let n := (ch0.filter fun e => match e with
          | .brick _ => true
          | .uniform _ => false).length
        some { w with
          cr := amPut w.cr c (.refined (ch.set o1 (.brick (mergeBrick w.g w.epoch 1 ch0))))
          room := w.room + n - 1, coarsened := w.coarsened + 1 }
      | _ => none
    | _ => none
  | none => match leastKey (coarsenCrown w.cr) with
    | some (_, c) => match amGet w.cr c with
      | some (.refined ch) =>
        let n := (ch.filter fun e => match e with
          | .brick _ => true
          | _ => false).length
        some { w with
          cr := amPut w.cr c (.brick (mergeBrick w.g w.epoch 2 (ch.map (l1Leaf w.g))))
          room := w.room + n - 1, coarsened := w.coarsened + 1 }
      | _ => none
    | none => none

/-- The entry of a place set to never observed (R76). -/
def blockPlace (g : Geom) (p : Place) (e : CrownEntry) : CrownEntry :=
  let below := fun (x : L1Entry) =>
    if p.lvl = 1 then L1Entry.uniform (g.unknown 1)
    else match x with
      | .refined ch => .refined (ch.set p.o0 (.uniform (g.unknown 0)))
      | .uniform v => .refined ((List.replicate 8 (.uniform v)).set p.o0 (.uniform (g.unknown 0)))
      | .brick b => .brick b
  if p.lvl = 2 then .uniform (g.unknown 2)
  else match e with
    | .refined ch => .refined (ch.set p.o1 (below (ch[p.o1]?.getD (.uniform (g.unknown 1)))))
    | .uniform v =>
      .refined ((List.replicate 8 (.uniform v)).set p.o1 (below (.uniform v)))
    | .brick b => .brick b

/-- The update of one voxel, coarsening until it has its brick (R72, R74-R76). -/
def PubW.put (w : PubW) (desc : Nat) (ext skip : Bool) (f : Int → Bool → Int × Bool) : Nat → PubW
  | 0 => w
  | fuel + 1 =>
    let p := descPlace desc
    if w.blocked.contains p then w
    else
      let mid := w.g.voxMid p (desc % 512)
      let i2 := (w.g.voxAt 2 mid).2
      let i1 := (w.g.voxAt 1 mid).2
      let i0 := (w.g.voxAt 0 mid).2
      match updCrown w.g w.epoch w.room p.lvl p.o1 p.o0 i2 i1 i0 ext skip f (w.g.entry w.cr p.c) with
      | some (e, n) => { w with cr := amPut w.cr p.c e, room := w.room - n }
      | none => match w.coarsen with
        | some w' => w'.put desc ext skip f fuel
        | none =>
          { w with
            cr := amPut w.cr p.c (blockPlace w.g p (w.g.entry w.cr p.c)), blocked := w.blocked ++ [p]
            failed := w.failed + 1 }

/-- The steps that coarsening can take: every refinement node once. -/
def putFuel : Nat := 16386

/-! ## After the updates: distances, pruning, epochs -/

/-- Both bricks hold the same content, LAST_EPOCH apart. -/
def sameBrick (a b : Brick) : Bool := { a with lastEpoch := 0 } == { b with lastEpoch := 0 }

/-- The cubes whose occupied state differs between two trees (R70), in the finer of the two divisions. -/
def changedCubes (g : Geom) (old new : Crown) : List Cube :=
  let cells := (new.filter fun (c, e) => g.entry old c != e).map (·.1)
  cells.flatMap fun c =>
    let side := fun (a b : Crown) => (leavesOf c (g.entry a c)).flatMap fun (p, e) => (g.cubes p e).filter fun k =>
      let m := k.lo.shift (k.edge / 2)
      let (o, w) := g.occAt b m
      decide (k.edge ≤ w) && o != k.occ
    side new old ++ side old new

/-- A centre of the listed points lies within HORIZON of a changed cube. -/
def nearAny (g : Geom) (ks : List Cube) (ps : List V3) : Bool :=
  ks.any fun k => ps.any fun p => decide (k.d2 p ≤ g.hor * g.hor)

/-- The leaf at a place of another tree, if that tree has one there. -/
def leafSame (g : Geom) (cr : Crown) (p : Place) : Option L0Entry :=
  ((leavesOf p.c (g.entry cr p.c)).find? fun x => x.1 == p).map (·.2)

/-- One leaf after the updates: distances recomputed (R70). A uniform region that was part of a larger one keeps the values
that it took from that one (R76; log 89). -/
def finishLeaf (g : Geom) (old new : Crown) (ks : List Cube) (p : Place) : L0Entry → L0Entry
  | .uniform v =>
    if v.unknown then .uniform v
    else match (g.leafAt old (g.voxMid p 0)).2 with
      | .uniform v' =>
        if v' = v && !nearAny g ks (g.mids p) then .uniform v else .uniform (g.uniValue new p v)
      | .brick _ => .uniform (g.uniValue new p v)
  | .brick b =>
    match leafSame g old p with
    | some (.brick b') => if sameBrick b' b && !nearAny g ks (g.mids p) then .brick b else .brick (g.sdfOf new p b)
    | _ => .brick (g.sdfOf new p b)

/-- A brick pruned to a uniform region, if R71 says so. -/
def pruneLeaf (g : Geom) (p : Place) : L0Entry → L0Entry
  | .uniform v => .uniform v
  | .brick b =>
    if b.stat.any id then .brick b
    else if b.occ.all fun l => l == -128 then
      if g.unknownAs = 0 then .uniform (g.unknown p.lvl) else .brick b
    else if b.occ.all fun l => !g.occ l && l != -128 && decide (l ≤ g.lPrune) then
      let e := g.expOf p.lvl
      let v := (b.sdf.foldl min 127 * (2 ^ b.exp : Nat)).fdiv (2 ^ e : Nat)
      .uniform ⟨clampI (-127) 127 v, e, false⟩
    else .brick b

/-- LAST_EPOCH of a brick that this publication changed (R63). -/
def stampLeaf (g : Geom) (old : Crown) (epoch : Word) (p : Place) : L0Entry → L0Entry
  | .uniform v => .uniform v
  | .brick b => match leafSame g old p with
    | some (.brick b') => if sameBrick b b' then .brick b' else .brick { b with lastEpoch := epoch }
    | _ => .brick { b with lastEpoch := epoch }

def mapL0 (f : L0Entry → L0Entry) : L1Entry → L1Entry
  | .uniform v => match f (.uniform v) with
    | .uniform x => .uniform x
    | .brick b => .brick b
  | .brick b => match f (.brick b) with
    | .uniform x => .uniform x
    | .brick b => .brick b
  | .refined ch => .refined (ch.map f)

/-- Every leaf of a crown entry changed. -/
def mapLeaves (c : Nat) (f : Place → L0Entry → L0Entry) : CrownEntry → CrownEntry
  | .uniform v => match f ⟨2, c, 0, 0⟩ (.uniform v) with
    | .uniform x => .uniform x
    | .brick b => .brick b
  | .brick b => match f ⟨2, c, 0, 0⟩ (.brick b) with
    | .uniform x => .uniform x
    | .brick b => .brick b
  | .refined ch => .refined (ch.zipIdx.map fun (x, o1) => match x with
    | .uniform v => mapL0 (f ⟨1, c, o1, 0⟩) (.uniform v)
    | .brick b => mapL0 (f ⟨1, c, o1, 0⟩) (.brick b)
    | .refined ch0 => .refined (ch0.zipIdx.map fun (y, o0) => f ⟨0, c, o1, o0⟩ y))

/-- The tree after the updates of a publication: distances, then pruning, then epochs. -/
def finishTree (g : Geom) (old new : Crown) (epoch : Word) : Crown :=
  let ks := changedCubes g old new
  let t := new.map fun (c, e) => (c, mapLeaves c (finishLeaf g old new ks) e)
  t.map fun (c, e) => (c, mapLeaves c (fun p x => stampLeaf g old epoch p (pruneLeaf g p x)) e)

/-! ## Numbers of the pools (R60, R73) -/

/-- The refinement nodes of a tree, by the place that they refine, with what they hold. -/
def nodesOf (cr : Crown) : List (Nat × CrownEntry) :=
  cr.flatMap fun (c, e) => match e with
    | .refined ch => ((⟨2, c, 0, 0⟩ : Place).num, e) :: ch.zipIdx.filterMap fun (x, o1) => match x with
      | .refined _ => some ((⟨1, c, o1, 0⟩ : Place).num, .refined [x])
      | _ => none
    | _ => []

/-- The k-th number, from 0, that a rising list does not hold. -/
def kthFree (k : Nat) : List Nat → Nat
  | [] => k
  | u :: us => if u ≤ k then kthFree (k + 1) us else k

/-- Numbers for the listed keys out of a pool of `n`, none of them in use; `pool` is 0 bricks, 1 nodes, 2 crown pages. DESIGN CHOICE
(log 108): where no place is free, the next number past the pool. -/
def takeNumbers (pool n tick : Nat) : List Nat → List Nat → List (Nat × Nat)
  | _, [] => []
  | used, k :: ks =>
    let x := kthFree (Config.freePlace pool tick k % max 1 (n - used.length)) used
    (k, x) :: takeNumbers pool n tick (insBy (fun a b => decide (a < b)) x used) ks

/-- One pool at a publication: `gone` are the keys whose version is superseded, `new` those that get a new one, `held` the
numbers that older versions keep. The numbers in force, and those of the superseded versions. -/
def renumber (pool n tick : Nat) (m : List (Nat × Nat)) (held gone new : List Nat) : List (Nat × Nat) × List Nat :=
  let old := (m.filter fun x => gone.contains x.1).map (·.2)
  let kept := m.filter fun x => !gone.contains x.1
  let used := sortBy (fun a b => decide (a < b)) (m.map (·.2) ++ held)
  ((takeNumbers pool n tick used new).foldl (fun m x => amPut m x.1 x.2) kept, old)

/-- The places of the bricks of a tree that another tree does not hold unchanged at the same place. -/
def changedBricks (g : Geom) (old new : Crown) : List Nat :=
  ((bricksOf old).filter fun (p, b) => leafSame g new p != some (.brick b)).map fun x => x.1.num

/-- How many they are. -/
def superseded (g : Geom) (old new : Crown) : Nat := (changedBricks g old new).length

/-- The nodes of a tree that another tree does not hold unchanged. -/
def changedNodes (old new : Crown) : List Nat :=
  let there := nodesOf new
  ((nodesOf old).filter fun x => !there.contains x).map (·.1)

/-- The crown pages that differ between two trees. -/
def changedPages (g : Geom) (old new : Crown) : List Nat :=
  (((new ++ old).filter fun (c, _) => g.entry old c != g.entry new c).map fun x => x.1 / 256).eraseDups

/-! ## The Verifier's bitmap (R123) -/

/-- A 2 cm cell, by its coordinates from BOX_LO, is set in the bitmap of a tree. -/
def Geom.bmp (g : Geom) (cr : Crown) (k : V3) : Bool :=
  let lo := g.lo.add (k.scale 80)
  g.inside lo && (List.range 8).any fun i => (g.occAt cr ((lo.add ((digits 2 i).scale 40)).shift 20)).1

/-! ## The dynamic box and the forecast (R90-R96) -/

/-- The dynamic box: lower corner, and cells of 4 cm on each axis. -/
def Geom.dynLoP (g : Geom) : V3 := g.lo.add ((unpack3 g.dynLo).scale 1280)
def Geom.dynN (g : Geom) : V3 := ⟨fld g.dynSize 0 10, fld g.dynSize 10 10, fld g.dynSize 20 10⟩
def Geom.dynCells (g : Geom) : Nat := (g.dynN.x * g.dynN.y * g.dynN.z).toNat
/-- The dynamic cell that holds a point, x fastest; none outside the dynamic box. -/
def Geom.dynCell (g : Geom) (p : V3) : Option Nat :=
  let k := (p.sub g.dynLoP).cut 160
  let n := g.dynN
  if (k.all fun a => decide (0 ≤ a)) && decide (k.x < n.x) && decide (k.y < n.y) && decide (k.z < n.z) then
    some (k.x + n.x * k.y + n.x * n.y * k.z).toNat
  else none
/-- The lower corner of a dynamic cell. -/
def Geom.dynLoOf (g : Geom) (i : Nat) : V3 :=
  let n := g.dynN
  g.dynLoP.add ((⟨(i : Int) % n.x, (i : Int) / n.x % n.y, (i : Int) / (n.x * n.y)⟩ : V3).scale 160)

/-- The dynamic grid of a tree (R90): the cells whose m is not 0. -/
def Geom.grid (g : Geom) (cr : Crown) : List (Nat × Nat) :=
  let best := (bricksOf cr).foldl (fun m (p, b) =>
    ((b.occ.zip b.stat).zipIdx).foldl (fun m ((l, t), i) =>
      if g.occ l && l != -128 && !t then
        -- the cells that the voxel covers: an L2 voxel is one cell, a finer voxel lies in one
        match g.dynCell (g.voxMid p i) with
        | some k => amPut m k (match amGet m k with
          | some x => max x l
          | none => l)
        | none => m
      else m) m) ([] : List (Nat × Int))
  best.filterMap fun (k, l) =>
    let v := if 0 ≤ l then l.toNat else Config.gridNegative l
    if v = 0 then none else some (k, v)

/-- The code at EXP 3 of a slice of a forecast at a point (R93, R96); `none` is a stale forecast. -/
def Geom.sliceCode (g : Geom) (cells : Option (List Nat)) (p : V3) : Int :=
  match g.dynCell p with
  | none =>
    let lo := g.dynLoP
    let n := g.dynN
    let a := gap1 p.x lo.x (160 * n.x).toNat
    let b := gap1 p.y lo.y (160 * n.y).toNat
    let c := gap1 p.z lo.z (160 * n.z).toNat
    sdfCode false (a * a + b * b + c * c).toNat 3
  | some i => match cells with
    | none => -1
    | some occ =>
      let mid := (g.dynLoOf i).shift 80
      let inOcc := occ.contains i
      let all := if inOcc then (List.range g.dynCells).filter fun k => !occ.contains k else occ
      let n := all.foldl (fun m k => min m (Cube.d2 ⟨g.dynLoOf k, 160, true⟩ mid)) (g.hor * g.hor)
      sdfCode inOcc n 3

end Sys2Proof.Machine
end

