-- ==== Sys2Proof/Machine/Operands.lean ====
section
/-! DEFINITION. The operand forms: camera records (R104, R105), external update messages (R78, R571), joint samples (R572),
Tag records (R644), the coding of image lines (R428), and exact values of FP32 patterns. -/

namespace Sys2Proof.Machine

/-! ## Exact values of FP32 patterns -/

/-- A finite FP32 pattern as a multiple of 2^-149. -/
def f32q (a : Nat) : Option Int :=
  match unpack fp32 a with
  | .fin s m e => let v := m * 2 ^ (e + 149).toNat; some (if s then -(v : Int) else v)
  | _ => none

/-- A finite FP32 pattern. -/
def f32fin (a : Nat) : Bool := (f32q a).isSome

/-- The REAL32 patterns of a message. -/
def words (bs : Bytes) (off n : Nat) : List Word := (List.range n).map fun i => BitVec.ofNat 32 (u bs (off + 4 * i) 4)

/-! ## Camera records -/

/-- The fields of a camera record (R104). -/
def parseCam (bs : Bytes) : CamRec :=
  { rx := u bs 0 1, vc := u bs 1 1, dtConf := u bs 2 1, trMode := u bs 3 1, width := u bs 4 2, height := u bs 6 2,
    depthUnit := u bs 8 2, rangeMin := u bs 10 2, rangeMax := u bs 12 2, cMin := u bs 14 1, decim := u bs 15 1,
    rayStride := u bs 16 1, missGuard := u bs 17 1, lossAction := u bs 18 1, expoOffset := u bs 20 4,
    ageMax := u bs 24 4, streamTimeout := u bs 28 4, fx := BitVec.ofNat 32 (u bs 32 4),
    fy := BitVec.ofNat 32 (u bs 36 4), cx := BitVec.ofNat 32 (u bs 40 4), cy := BitVec.ofNat 32 (u bs 44 4),
    rot := words bs 48 9, trans := words bs 84 3, trPattern := u bs 96 4, coverLo := u bs 100 4,
    coverSize := u bs 104 4, raw := bs }

/-- A number lies in a range. -/
def within (lo hi n : Nat) : Bool := decide (lo ≤ n) && decide (n ≤ hi)

/-- ROT is orthonormal with determinant +1 within R105. -/
def rotOk (rot : List Word) : Bool :=
  let q := rot.map fun w => f32q w.toNat
  if q.any Option.isNone then false
  else
    let m := fun (i j : Nat) => (q[3 * i + j]?.bind id).getD 0
    let one : Int := 2 ^ 298
    let orth := (List.range 3).all fun i => (List.range 3).all fun j =>
      let s := m 0 i * m 0 j + m 1 i * m 1 j + m 2 i * m 2 j
      decide ((s - if i = j then one else 0).natAbs * 10000 ≤ one.toNat)
    let det := m 0 0 * (m 1 1 * m 2 2 - m 1 2 * m 2 1) - m 0 1 * (m 1 0 * m 2 2 - m 1 2 * m 2 0) +
      m 0 2 * (m 1 0 * m 2 1 - m 1 1 * m 2 0)
    orth && decide (0 < det)

/-- A packed region lies wholly within the workspace box (R99, R105): a crown cell is 32 cm, BOX_SIZE counts 8 cm. -/
def regionInBox (g : Geom) (lo size : Nat) : Bool :=
  let a := unpack3 lo
  let z := unpack3 size
  decide (4 * (a.x + z.x) ≤ g.sizeX) && decide (4 * (a.y + z.y) ≤ g.sizeY) && decide (4 * (a.z + z.z) ≤ g.sizeZ)

/-- A camera record is accepted for stream `st` (R105). -/
def camOk (g : Geom) (st : Nat) (bs : Bytes) : Bool :=
  let r := parseCam bs
  bs.length == 128 && r.rx == st / 4 && r.vc == st % 4 && (r.dtConf == 0 || within 0x30 0x37 r.dtConf) &&
    within 0 1 r.trMode && within 8 2048 r.width && within 8 2048 r.height && within 1 10000 r.depthUnit &&
    decide (50 ≤ r.rangeMin) && decide (r.rangeMin < r.rangeMax) && decide (r.rangeMax ≤ 20000) &&
    [1, 2, 4].contains r.decim && [0, 1, 2, 4, 8].contains r.rayStride && within 0 100 r.missGuard &&
    within 0 1 r.lossAction && u bs 19 1 == 0 && within 0 100000 r.expoOffset && within 1000 200000 r.ageMax &&
    within 10000 1000000 r.streamTimeout && flt fp32 (num 0) (num r.fx.toNat) && flt fp32 (num 0) (num r.fy.toNat) &&
    rotOk r.rot && (r.coverSize == 0 || regionInBox g r.coverLo r.coverSize) && allZero (slice bs 108 20)

/-! ## External update messages -/

/-- An entry of an external update message (R78). -/
def parseUpd (bs : Bytes) : UpdEntry :=
  { x := si bs 0 2, y := si bs 2 2, z := si bs 4 2, op := u bs 6 1, value := si bs 7 1 }

/-- One message: source, sequence number, entries, and its bytes. -/
structure ExtMsg where
  source : Nat
  seq : Nat
  entries : List UpdEntry
  raw : Bytes
deriving DecidableEq, Repr, Inhabited

/-- The whole messages at the front of a transfer, and the number of bytes discarded at its end (R571). -/
def parseExt : Nat → Bytes → List ExtMsg × Nat
  | 0, bs => ([], bs.length)
  | fuel + 1, bs =>
    if bs.isEmpty then ([], 0)
    else
      let n := u bs 6 2
      let len := 16 + 8 * n
      if bs.length < 16 ∨ n = 0 ∨ 4096 < n ∨ bs.length < len then ([], bs.length)
      else
        let body := bs.take len
        let (ms, bad) := parseExt fuel (bs.drop len)
        (⟨u body 0 2, u body 2 4, (chunks 8 n (body.drop 16)).map parseUpd, body⟩ :: ms, bad)

/-! ## Joint samples (R572) -/

structure Joint where
  ctx : Nat
  axes : Nat
  delay : Nat
  seq : Nat
  pos : List Word
deriving DecidableEq, Repr, Inhabited

def parseJoint (bs : Bytes) : Joint :=
  { ctx := u bs 0 1, axes := u bs 1 1, delay := u bs 2 2, seq := u bs 4 4, pos := words bs 8 12 }

/-! ## Lines of an IMAGE entry (R428) -/

/-- Bits packed into bytes, bit 0 of each byte first; the last byte is filled with zeros. -/
def packBits : Nat → List Bool → Bytes
  | 0, _ => []
  | fuel + 1, l =>
    if l.isEmpty then []
    else BitVec.ofNat 8 (ofBits (((l.take 8).zipIdx.filter (·.1)).map (·.2))) :: packBits fuel (l.drop 8)

def natBits (w v : Nat) : List Bool := (List.range w).map v.testBit

/-- The zigzag differences of a block, from the pixel before it. -/
def zigzag : Nat → List Nat → List Nat
  | _, [] => []
  | p, d :: t => (if p ≤ d then 2 * (d - p) else 2 * (p - d) - 1) :: zigzag d t

/-- A block of pixels coded with parameter k, or raw where k is 15 or a quotient is above 32. -/
def codeBlock (k p : Nat) (px : List Nat) : List Bool :=
  let z := zigzag p px
  if k < 15 ∧ z.all fun v => decide (v / 2 ^ k ≤ 32) then
    natBits 4 k ++ z.flatMap fun v => List.replicate (v / 2 ^ k) true ++ [false] ++ natBits k v
  else natBits 4 15 ++ px.flatMap (natBits 16)

/-- A depth line coded; `ks` gives the parameter of each block. -/
def codeLine (ks : Nat → Nat) (px : List Nat) : Bytes :=
  let blocks := chunks 32 (px.length / 32 + 1) px
  let prev := fun (j : Nat) => if j = 0 then 0 else px[32 * j - 1]?.getD 0
  let bits := blocks.zipIdx.flatMap fun (b, j) => codeBlock (ks j) (prev j) b
  packBits (bits.length / 8 + 1) bits

/-- The value of `w` bits from a position of a byte string, bit 0 first. -/
def bitsAt (bs : Bytes) (pos w : Nat) : Nat :=
  ofBits ((List.range w).filter fun i => (bs[(pos + i) / 8]?.getD 0).toNat.testBit ((pos + i) % 8))

/-- The number of 1 bits from a position on, `fuel` at most. -/
def onesAt (bs : Bytes) (pos : Nat) : Nat → Nat
  | 0 => 0
  | fuel + 1 => if bitsAt bs pos 1 = 1 then onesAt bs (pos + 1) fuel + 1 else 0

/-- `n` pixels of a block decoded from a position: the pixels, newest first, and the position after them. -/
def decodePx (bs : Bytes) (k : Nat) : Nat → Nat → Nat → List Nat → List Nat × Nat
  | 0, pos, _, acc => (acc, pos)
  | n + 1, pos, p, acc =>
    if k = 15 then
      let d := bitsAt bs pos 16
      decodePx bs k n (pos + 16) d (d :: acc)
    else
      let q := onesAt bs pos 33
      let z := q * 2 ^ k + bitsAt bs (pos + q + 1) k
      let d := if z % 2 = 0 then p + z / 2 else p - (z + 1) / 2
      decodePx bs k n (pos + q + 1 + k) d (d :: acc)

/-- A line of `w` pixels decoded from a bit position: the pixels, newest first, and the position after it. -/
def decodeLine (bs : Bytes) : Nat → Nat → Nat → List Nat → List Nat × Nat
  | 0, _, pos, acc => (acc, pos)
  | fuel + 1, w, pos, acc =>
    if w = 0 then (acc, (pos + 7) / 8 * 8)
    else
      let n := min 32 w
      let k := bitsAt bs pos 4
      let (acc, pos) := decodePx bs k n (pos + 4) (acc.head?.getD 0) acc
      decodeLine bs fuel (w - n) pos acc

end Sys2Proof.Machine
end

