-- ==== Sys2Proof/Machine/World.lean ====
section
/-! DEFINITION. Ticks, publications, the dynamic grid and forecast launches (R70-R99, R120, R122, R123, R712, R713). -/

namespace Sys2Proof.Machine

/-! ## Small shared operations on tiles -/

/-- A tile made known to the TDS, under the next handle of 32 bits (R44, R369, R409). -/
def addTile (s : State) (t : Tile) : State :=
  { s with tds := { s.tds with
      tiles := s.tds.tiles ++ [{ t with handle := s.tds.nextHandle }], nextHandle := (s.tds.nextHandle + 1) % 2 ^ 32 } }

/-- The Fuse domain is held in reset. -/
def State.fuseReset (s : State) : Bool := s.faults.inReset.toNat.testBit 18

/-- The geometry and encoding that the objects hold (R98, R712). -/
def geomOf (s : State) : Geom :=
  { boxLoX := wInt16 s 1, boxLoY := wInt16 s 2, boxLoZ := wInt16 s 3, sizeX := wNat s 4, sizeY := wNat s 5,
    sizeZ := wNat s 6, l1Lo := wNat s 7, l1Size := wNat s 8, l0Lo := wNat s 9, l0Size := wNat s 10,
    expLvl := wNat s 11, horizon := wNat s 12, lOcc := wInt8 s 0x11, lPrune := wInt8 s 0x12, unknownAs := wNat s 0x13,
    dynLo := wNat s 0x17, dynSize := wNat s 0x18 }

/-! ## OD_APPLY entries (R427) -/

/-- The payload of an OD_APPLY entry: FRAME and the items. -/
def odApplyBytes (frame : Nat) (items : List (Nat × Nat × Bytes)) : Bytes :=
  leBytes 6 frame ++ items.flatMap fun (i, sub, v) => leBytes 2 i ++ leBytes 1 sub ++ leBytes 2 v.length ++ v

/-- The live objects of an index take effect and are recorded (R16, R427). -/
def applyRecorded (s : State) (index src frame : Nat) : State :=
  let items := (pendingLive s index).map fun (sub, v) => (index, sub, v)
  let s := applyLive s index
  if items.isEmpty then s else record s s.world.tick 0x07 src (odApplyBytes frame items)

/-! ## Inputs applied (R64, R78, R85, R111, R120) -/

/-- The limits and steps of the log-odds in force (R63, R64, R89). -/
structure LogOdds where
  hit : Int
  miss : Int
  lo : Int
  hi : Int
deriving DecidableEq, Repr

def logOdds (s : State) : LogOdds := ⟨wInt8 s 0x0D, wInt8 s 0x0E, wInt8 s 0x0F, wInt8 s 0x10⟩

/-- A depth update of one voxel (R64); a static voxel is left alone (R111). DESIGN CHOICE (log 124): the 0 that replaces -128 is not
itself held to [L_MIN, L_MAX] before the step is added. -/
def depthVox (o : LogOdds) (hit : Bool) (l : Int) (st : Bool) : Int × Bool :=
  if st then (l, st)
  else
    let l := if l = -128 then 0 else l
    (clampI o.lo o.hi (l + if hit then o.hit else o.miss), st)

/-- An external operation on one voxel (R78). -/
def extVox (o : LogOdds) (op : Nat) (v l : Int) (st : Bool) : Int × Bool :=
  match op with
  | 0 => (clampI o.lo o.hi ((if l = -128 then 0 else l) + v), st)
  | 1 => (clampI o.lo o.hi v, st)
  | 2 => (-128, st)
  | 3 => (clampI o.lo o.hi v, true)
  | _ => (l, false)

/-- An entry that R58 or R78 rejects. -/
def extBad (g : Geom) (e : UpdEntry) : Bool :=
  decide (4 < e.op) || (e.value == -128 && (e.op == 0 || e.op == 1 || e.op == 3)) ||
    !g.inside ⟨40 * e.x, 40 * e.y, 40 * e.z⟩

/-- One external entry applied, or rejected and counted. -/
def applyExt (o : LogOdds) (w : PubW) (e : UpdEntry) : PubW :=
  match (if extBad w.g e then none else w.g.target ⟨40 * e.x, 40 * e.y, 40 * e.z⟩) with
  | none => { w with rejected := w.rejected + 1 }
  | some d => w.put d true false (extVox o e.op e.value) putFuel

/-- The update set of an image applied, in the order of the descriptors (R111; log 26). -/
def applyImage (o : LogOdds) (w : PubW) (set : List (Nat × Bool)) : PubW :=
  set.foldl (fun w (d, hit) => w.put d false (!hit) (depthVox o hit) putFuel) w

/-- A brick with other log-odds and static bits; where none differs, the publication leaves it alone (R63). -/
def setVoxels (ep : Word) (b : Brick) (occ : List Int) (stat : List Bool) : Brick :=
  if occ = b.occ ∧ stat = b.stat then b else { b with lastEpoch := ep, occ := occ, stat := stat, external := false }

/-- A leaf of a region set to unknown by a loss marker (R120). -/
def loseLeaf (g : Geom) (ep : Word) (p : Place) : L0Entry → L0Entry
  | .uniform _ => .uniform (g.unknown p.lvl)
  | .brick b => .brick (setVoxels ep b ((b.occ.zip b.stat).map fun (l, t) => if t then l else -128) b.stat)

/-- A loss marker with LOSS_ACTION = 1 applied to its cover box (R120). -/
def applyLoss (w : PubW) (coverLo coverSize : Nat) : PubW :=
  { w with cr := w.cr.map fun (c, e) =>
      if coverSize = 0 || inRegion coverLo coverSize (w.g.cellAt c) then (c, mapLeaves c (loseLeaf w.g w.epoch) e) else (c, e) }

/-- One input applied. -/
def applyInput (s : State) (o : LogOdds) (w : PubW) : Input → PubW
  | .ext _ _ _ es => es.foldl (applyExt o) w
  | .image _ _ _ set => applyImage o w set
  | .loss _ st _ => match s.fus.streams[st].rec_ with
    | some r => if r.lossAction = 1 then applyLoss w r.coverLo r.coverSize else w
    | none => w

def Input.tick : Input → Nat
  | .ext t _ _ _ => t
  | .image t _ _ _ => t
  | .loss t _ _ => t

/-- The place of an input in the order of R85 and R119. DESIGN CHOICE (log 107): two messages with one SOURCE and SEQ keep the
order in which they arrived. -/
def Input.key : Input → Nat × Nat × Nat
  | .ext _ src seq _ => (0, src, seq)
  | .image _ st fcnt _ => (1, st.val, fcnt)
  | .loss _ st _ => (1, st.val, 2 ^ 32)

def Input.before (a b : Input) : Bool :=
  let x := a.key
  let y := b.key
  decide (x.1 < y.1) || (x.1 == y.1 && (decide (x.2.1 < y.2.1) || (x.2.1 == y.2.1 && decide (x.2.2 < y.2.2))))

/-- A brick with an uncorrectable error set to unknown (R77). -/
def eccLeaf (ep : Word) : L0Entry → L0Entry
  | .uniform v => .uniform v
  | .brick b => .brick (setVoxels ep b (List.replicate 512 (-128)) (List.replicate 512 false))

/-! ## Pool accounting (R73, R74, R432) -/

/-- The pools of brick slots, refinement nodes and crown pages (R60, R73). -/
def poolSlots : Nat := 131072
def nodeSlots : Nat := 16384
def pageSlots : Nat := 1024
def liveBricks (w : World) : Nat := (bricksOf w.crown).length
def heldCount (w : World) : Nat := (w.heldSlots.map fun h => h.bricks.length).sum
/-- POOL_FREE. -/
def poolFree (w : World) : Nat := poolSlots - liveBricks w - heldCount w

/-- The longest PERIOD among the running contexts (R73). -/
def longestPeriod (s : State) : Nat := (s.runningCtxs.map fun c => cNat s c 0x04).foldl max 0

/-! ## Publications (R84-R88) -/

/-- The epoch after one that changes the world (R86). -/
def nextEpoch (e : Word) : Word := if e = 0xFFFFFFFF then 1 else e + 1

/-- Some frame in progress reads the publication of a tick; in replay also the one on which it will be verified (R436). -/
def pubInUse (s : State) (t : Nat) : Bool :=
  allCtx.any fun c => match (s.ctx c).run with
    | some r => r.tf == t || (r.verifying && r.tv == t) || r.tvRec == some t
    | none => false

/-- Superseded versions whose freeing tick has come are freed (R73, R283). DESIGN CHOICE (log 107): while RUN = 0, when no
publication is made, the tick alone frees them. -/
def freeOld (s : State) : State :=
  let w := s.world
  { s with world := { w with
      heldSlots := w.heldSlots.filter fun h => decide (w.nt < h.freeNT)
      pubs := w.pubs.filter fun p => (match p.freeNT with
        | some n => decide (w.nt < n)
        | none => true) || pubInUse s p.tick } }

/-- The forecast computed from a launch with the threshold in force (R92, R93). -/
def forecastOf (s : State) (image : Bytes) (l : Launch) : Forecast :=
  let th := (fconv fp32 fp16 (num (wNat s 0x1B))).bits
  { base := l.tick, baseNT := l.nt
    cells := (List.range 4).map fun k => (List.range s.world.geom.dynCells).filter fun i =>
      let z := (Config.forecastLogit image l.grids k i).toNat
      isNan fp16 z || fle fp16 (num th) (num z) }

/-- The bytes of a VALID image of a kind whose SHA-512 is still the one taken at registration (R642, R663). -/
def goodImage (s : State) (kind handle : Nat) : Option Bytes :=
  match s.images.toList.find? fun e => e.handle == handle && e.st == 2 && e.kind == kind with
  | some e =>
    let bs := psramRead s e.offset e.length
    if sha512 bs = e.digest then some bs else none
  | none => none

/-- The launch whose result is integrated at the present tick (R91). -/
def dueLaunch (s : State) : Option Launch :=
  s.world.launches.find? fun l => l.tick + wNat s 0x1A == s.world.tick

/-- The records of bricks with an uncorrectable error: CTX 0xFE, domain 20, the slot (R77, R516). -/
def eccRecords (s : State) (slots : List Nat) : State := slots.foldl (fun s v => fault s 0xFE 20 0x0202 0x1F 0x1F 0 v) s

/-- Every frame's pools after a publication that turns tree `old` into `new` (R60, R73): what changed takes new numbers, and the
numbers of what it superseded are held until `free`. -/
def repool (s : State) (new : Crown) (free : Nat) : Pools × List OldVersions :=
  let w := s.world
  let old := w.crown
  let (bs, ob) := renumber 0 poolSlots w.tick w.pools.bricks (w.heldSlots.flatMap (·.bricks) ++ pinned s (·.bricks))
    (changedBricks w.geom old new) (changedBricks w.geom new old)
  let (ns, on) := renumber 1 nodeSlots w.tick w.pools.nodes (w.heldSlots.flatMap (·.nodes) ++ pinned s (·.nodes))
    (changedNodes old new) (changedNodes new old)
  let (ps, op) := renumber 2 pageSlots w.tick w.pools.pages (w.heldSlots.flatMap (·.pages) ++ pinned s (·.pages))
    (changedPages w.geom old new) (changedPages w.geom old new)
  (⟨bs, ns, ps⟩, if ob.isEmpty && on.isEmpty && op.isEmpty then w.heldSlots else w.heldSlots ++ [⟨free, ob, on, op⟩])

/-- A pool has too few numbers for `need` new versions while the seeds' pins stand. -/
def pinsInTheWay (s : State) (n need : Nat) (sel : Pools → List (Nat × Nat)) (held : List Nat) : Bool :=
  let pins := (pinned s sel).filter fun k => !held.contains k
  !pins.isEmpty && decide (n < (sel s.world.pools).length + held.length + pins.length + need)

/-- A publication that turns the tree into `new` needs a slot that a seed pins (R432). -/
def needsPinned (s : State) (new : Crown) : Bool :=
  let w := s.world
  pinsInTheWay s poolSlots (superseded w.geom new w.crown) (·.bricks) (w.heldSlots.flatMap (·.bricks)) ||
    pinsInTheWay s nodeSlots (changedNodes new w.crown).length (·.nodes) (w.heldSlots.flatMap (·.nodes)) ||
    pinsInTheWay s pageSlots (changedPages w.geom w.crown new).length (·.pages) (w.heldSlots.flatMap (·.pages))

/-- The publication of the present tick put into the list; it supersedes the one before (R73, R283). Every SQU's line cache is
cleared (R337). `hurt`: a brick was reset in it (R77). -/
def putPub (s : State) (free : Nat) (wait : Option Nat) (hurt : Bool) : State :=
  let w := s.world
  { s with
    engines := s.engines.map fun e => { e with core := { e.core with lines := [] } }
    world := { w with
      pubs := (w.pubs.map fun p => if p.freeNT = none then { p with freeNT := some free } else p) ++
        [{ tick := w.tick, nt := w.nt, epoch := w.epoch, geom := w.geom, crown := w.crown, fc := w.fc, freeNT := none,
           wait := wait, at_ := s.now, hurt := hurt }] } }

/-- The bitmap of the world as it stands is written (R123, R324). -/
def writeBitmap (s : State) : State := { s with vfy := { s.vfy with bmpEpoch := s.world.epoch } }

/-- The publication of the present tick (R84-R86, R122, R123). `ecc` lists bricks found with an uncorrectable error. DESIGN CHOICE
(log 107): those are reset before the publication's inputs apply, and the copy-on-write versions that this publication writes
do not lower the free count by which it judges new bricks. DESIGN CHOICE (log 124): a loss marker is an input like the others
(R119), so it advances the epoch under LOSS_ACTION = 0 too. -/
def publish (s : State) (ecc : List Nat) : State :=
  let w := s.world
  let lag := wNat s 0x15
  -- in replay the recorded FUSE_RESET stands in place of the part's own (R435)
  let held := s.fuseReset && !s.replaying
  let due := if held then [] else sortBy Input.before (w.inputs.filter fun i => i.tick + lag == w.tick)
  let launch := if held then none else dueLaunch s
  let hurt := (bricksOf w.crown).filter fun (p, _) => ecc.contains (p.desc 0 / 512)
  let o := logOdds s
  let changes := !due.isEmpty || launch.isSome || !hurt.isEmpty
  let epoch := if changes then nextEpoch w.epoch else w.epoch
  let p0 : PubW :=
    { g := w.geom, epoch := epoch
      cr := if hurt.isEmpty then w.crown else w.crown.map fun (c, e) =>
        (c, mapLeaves c (fun p x => if ecc.contains (p.desc 0 / 512) then eccLeaf epoch x else x) e)
      room := poolFree w - wNat s 0x14, blocked := [], coarsened := 0, failed := 0, rejected := 0 }
  let p := due.foldl (applyInput s o) p0
  let crown := if changes then finishTree w.geom w.crown p.cr epoch else w.crown
  let free := w.nt + longestPeriod s + w.period
  let s := if needsPinned s crown then abandonSeeds s else s
  let s := eccRecords s (hurt.map fun x => amGetD w.pools.bricks x.1.num 0)
  let (pools, held) := repool s crown free
  let s := { s with world := { w with
    crown := crown, epoch := epoch
    inputs := w.inputs.filter fun i => decide (w.tick < i.tick + lag)
    launches := w.launches.filter fun l => decide (w.tick < l.tick + wNat s 0x1A) || (!l.done && launch == some l)
    fc := match launch with
      | some l => some (forecastOf s ((goodImage s 3 (wNat s 0x1F)).getD []) l)
      | none => w.fc
    pools := pools, heldSlots := held
    coarsenCount := (w.coarsenCount + p.coarsened) % 2 ^ 32
    allocFail := (w.allocFail + p.failed) % 2 ^ 32
    updReject := (w.updReject + p.rejected) % 2 ^ 32 } }
  putPub (writeBitmap s) free ((s.world.launches.find? fun l => decide (l.tick + wNat s 0x1A ≤ s.world.tick)).map (·.tick))
    (!hurt.isEmpty)

/-- A change of the throttle step takes effect at a tick and is recorded (R423, R427). In replay the recorded step is the
step in force, and on a member the top root's (R610). -/
def throttleTick (s : State) : State :=
  if s.power.step = s.power.inForce ∨ s.replaying ∨ isMember s then s
  else record { s with power := { s.power with inForce := s.power.step } } s.world.tick 0x0C 0 (leBytes 1 s.power.step)

/-- The report of a publication kept; a member sends it to the top root (R611). -/
def hedgeReport (s : State) : State :=
  if !(leads s || isMember s) then s
  else
    let d := digest128 s.hedge.heads
    let s := { s with hedge := { s.hedge with
      heads := [], digests := (s.hedge.digests ++ [(s.world.tick, s.world.epoch, d)]).drop (s.hedge.digests.length - 63) } }
    if isMember s then sendTo s 0 tyReport 0xFF (leBytes 6 s.world.tick ++ leBytes 4 s.world.epoch.toNat ++ d) else s

/-- A world tick (R82; the first has number 1, log 97): the counters advance, live world objects apply (R89), superseded
versions are freed (R73), the Fuse unit publishes while it runs (R713), and a seed that is due is captured (R431). `period` is P of this tick. -/
def tickWorld (s : State) (period : Nat) (ecc : List Nat) : State :=
  let w := s.world
  let w := { w with
    started := true, tick := (w.tick + 1) % 2 ^ 48, nt := if w.started then (w.nt + w.period) % 2 ^ 64 else w.nt, period := period }
  let s := throttleTick { s with world := w }
  let s := applyRecorded s 0x2100 0xFF (match s.pacing with
    | some c => (s.ctx c).frameNo
    | none => 0)
  let s := freeOld s
  -- while RUN = 0 no publication is made; a frame reads the world as it stands, under the epoch that it keeps (R713; log 37)
  let s := if s.fus.run then hedgeReport (publish s ecc) else putPub s (s.world.nt + longestPeriod s + s.world.period) none false
  let s := captureSeed s
  -- a frame that starts at this ACLK edge reads this tick's publication (R87)
  allCtx.foldl (fun s c => match (s.ctx c).run with
    | some r => if r.f = s.now ∧ !r.snapped then s.modRun c fun r => { r with tf := s.world.tick } else s
    | none => s) s

/-! ## GRID_TICK (R90, R91) -/

/-- The four grids of a launch at tick t, oldest first, if all have been built (R91). -/
def launchGrids (s : State) (t : Nat) : Option (List (List (Nat × Nat))) :=
  let n := wNat s 0x19
  let get := fun k => if k * n ≤ t then (s.world.grids.find? fun g => g.tick == t - k * n).map (·.cells) else none
  match get 3, get 2, get 1, get 0 with
  | some a, some b, some c, some d => some [a, b, c, d]
  | _, _, _, _ => none

/-- A FORECAST tile: station 1, keyed by context 16 and the launch tick (R92, R420; log 15). -/
def forecastTile (t : Nat) : Tile :=
  { (default : Tile) with ctx := 16, frame := t, station := 1, status := .ready }

/-- GRID_TICK: at a grid tick the Fuse unit builds the grid, and FORECAST launches when the last four grids exist (R90, R91). At any
other tick, a second time at one tick, while RUN = 0 or in reset, nothing happens; a member of a hedge
makes no tile of its own, since the top root deals them, and its copy of the world takes the result at its tick (R613; log 76). DESIGN CHOICE (log 124): without a good forecast image nothing launches. -/
def gridTickEffect (s : State) : State :=
  let t := s.world.tick
  if !s.world.started || t % wNat s 0x19 != 0 || s.world.lastGrid == some t || !s.fus.run || s.fuseReset then s
  else
    let gr := (s.world.grids ++ [{ tick := t, cells := s.world.geom.grid s.world.crown }])
    let s := { s with world := { s.world with lastGrid := some t, grids := gr.drop (gr.length - 4) } }
    match launchGrids s t with
    | some gs =>
      if (goodImage s 3 (wNat s 0x1F)).isNone then s
      else
        let s := { s with world := { s.world with
          launches := s.world.launches ++
            [{ tick := t, nt := s.world.nt, grids := gs, handle := s.tds.nextHandle, done := isMember s }] } }
        if isMember s then s else addTile s (forecastTile t)
    | none => s

def execGridTick (s : State) : Out := .next (gridTickEffect s)

/-- A FORECAST tile commits: its launch is done, and publications that waited for it are complete (R84, R87, R91). -/
def forecastCommit (s : State) (launch : Nat) : State :=
  let w := s.world
  { s with world := { w with
      launches := (w.launches.map fun l => if l.tick = launch then { l with done := true } else l).filter fun l =>
        !(l.done && decide (l.tick + wNat s 0x1A ≤ w.tick))
      pubs := w.pubs.map fun p => if p.wait = some launch then { p with wait := none } else p } }

/-! ## FUS_CTRL (R124, R712, R713) -/

/-- The world rebuilt to epoch 0 (R712); ticks, NT and the counters continue. Until the next tick a frame reads the initial
world (log 37). DESIGN CHOICE (log 107): inputs that wait for their publication are discarded and not counted. -/
def rebuildWorld (s : State) (g : Geom) : State :=
  let s := { s with world := { s.world with
      geom := g, crown := [], fc := none, epoch := 0, pubs := [], pools := ⟨[], [], []⟩, heldSlots := [], inputs := [], grids := [],
      launches := [], lastGrid := none } }
  -- the versions that a seed being written reads are gone, and no replay from an earlier seed comes past this tick
  let s := abandonSeeds { s with recorder := { s.recorder with
    due := none, rebuilds := if s.recorder.st = 1 then s.recorder.rebuilds ++ [s.world.tick] else s.recorder.rebuilds } }
  if s.world.started then putPub s 0 none false else s

/-- A write of FUS_CTRL. DESIGN CHOICE (log 107): forecast launches that wait are cleared at every rise of RUN. -/
def fusCtrlEffect (v : Word) (s : State) : State :=
  let run := v.toNat.testBit 0
  if !run && s.anyRuns then s.busErr
  else if run = s.fus.run then s.okBus
  else if run then
    let s := if geomOf s = s.world.geom then s else rebuildWorld s (geomOf s)
    -- the stream timers, which stood at `timerFrom` ACLK, run on (R713); no grid of an earlier run counts (R91)
    State.okBus { s with
      fus := { s.fus with run := true, streams := s.fus.streams.map fun x => { x with timerFrom := s.now - x.timerFrom } }
      world := { s.world with grids := [], launches := [], fcStale := wNat s 0x1C, fcImage := wNat s 0x1F } }
  else State.okBus { s with fus := { s.fus with
    run := false, streams := s.fus.streams.map fun x => { x with timerFrom := s.now - x.timerFrom } } }


/-- What a reset of the Fuse domain does (R122), when it begins: every input that is not yet published is discarded. DESIGN
CHOICE (log 107): a forecast launch under way is dropped with its result. -/
def fuseResetEffect (s : State) : State :=
  let n := (s.world.inputs.map fun i => match i with
    | .ext _ _ _ es => es.length
    | _ => 0).sum
  let s := { s with
    world := { s.world with
      inputs := [], launches := [], updReject := (s.world.updReject + n) % 2 ^ 32
      pubs := s.world.pubs.map fun p => { p with wait := none } }
    fus := { s.fus with streams := s.fus.streams.map fun x =>
      if x.en then { x with st := .wait, tlFails := 0, img := none, refImg := none } else x } }
  record s s.world.tick 0x0D 0 []

end Sys2Proof.Machine
end

