-- ==== Sys2Proof/Machine/Tools.lean ====
section
/-! DEFINITION. Tag records, tool slots, the tool set in force and the envelopes of roadmap images (R143, R146-R150,
R644, R645). -/

namespace Sys2Proof.Machine

/-- A sphere of 8 B (R143). -/
def parseSphere (bs : Bytes) : Sphere := ⟨si bs 0 2, si bs 2 2, si bs 4 2, u bs 6 2⟩

/-- `n` spheres from an offset. -/
def spheresAt (bs : Bytes) (off n : Nat) : List Sphere := (List.range n).map fun i => parseSphere (slice bs (off + 8 * i) 8)

/-- A sphere within the ranges of R143. -/
def sphereOk (x : Sphere) : Bool :=
  decide (-32767 ≤ x.x) && decide (-32767 ≤ x.y) && decide (-32767 ≤ x.z) && within 1 16000 x.r

/-- The variant table's counts (R644). -/
def tagCounts (bs : Bytes) : List Nat := (List.range (u bs 25 1)).map fun v => u bs (64 + 8 * u bs 24 1 + 8 * v) 1

/-- The variants' spheres, from an offset on. -/
def variantsAt (bs : Bytes) : Nat → List Nat → List (List Sphere)
  | _, [] => []
  | off, n :: t => spheresAt bs off n :: variantsAt bs (off + 8 * n) t

/-- The fields of a Tag record that the rules use (R644). -/
def parseTag (bs : Bytes) : TagRec :=
  let n := u bs 24 1
  { kind := u bs 5 1, cls := u bs 8 4, vendor := u bs 12 4, serial := u bs 16 4, spheres := spheresAt bs 64 n,
    variants := variantsAt bs (64 + 8 * n + 8 * u bs 25 1) (tagCounts bs), raw := bs }

/-- The form of a Tag record (R644, R645), its signature apart. -/
def tagForm (bs : Bytes) : Bool :=
  let n := u bs 24 1
  let v := u bs 25 1
  let cs := tagCounts bs
  let t := parseTag bs
  let tab := 64 + 8 * n
  bs.length == u bs 6 2 && within 128 4096 bs.length && u bs 0 4 == 0x31474154 && u bs 4 1 == 1 && within 1 2 (u bs 5 1) &&
    u bs 8 4 != 0 && decide (n ≤ 24) && (u bs 5 1 != 1 || decide (1 ≤ n)) && decide (v ≤ 15) && decide (u bs 26 1 ≤ 7) &&
    u bs 27 1 == 0 && u bs 60 4 == 0 && cs.all (within 1 24) && bs.length == 128 + 8 * (n + v + cs.sum) &&
    (words bs 28 7).all (fun w => f32fin w.toNat) &&
    ((List.range v).all fun k => allZero (slice bs (tab + 8 * k + 1) 3) && f32fin (u bs (tab + 8 * k + 4) 4)) &&
    t.spheres.all sphereOk && t.variants.all fun l => l.all sphereOk

/-- A Tag record is valid: its form and the signature by its module key (R645). -/
def tagOk (keys : List Bytes) (bs : Bytes) : Bool :=
  tagForm bs && signedBy (keys[u bs 26 1]?.getD []) bs

/-- The tool slot of a context (R646). -/
def State.toolSlot (s : State) (c : CtxId) : Option Nat :=
  s.boot.cfg.fixedSlots.findIdx? fun x => x.ctx == c.val

/-- The tool set of a context with tool slot `has`, mounted tool and PAYLOAD_ID (R147); none: no tool set in force. -/
def toolSetOf (has : Bool) (tool : Option TagRec) (payload : Nat) : Option (List Sphere) :=
  if has then
    match tool with
    | none => none
    | some t =>
      let v := if payload = 0 then some [] else t.variants[payload - 1]?
      match v with
      | some l => if (t.spheres ++ l).length ≤ 24 then some (t.spheres ++ l) else none
      | none => none
  else if payload = 0 then some [] else none

def State.toolSet (s : State) (c : CtxId) : Option (List Sphere) :=
  toolSetOf (s.toolSlot c).isSome (s.ctx c).tool (rmNat s c 0x07)

/-- The header of a registered roadmap image (R150). -/
structure RmHeader where
  toolClass : Nat
  axes : Nat
  qexp : List Nat
  nCount : Nat
  eCount : Nat
  env : List Sphere
  planId : Bytes
deriving DecidableEq, Repr, Inhabited

def parseRmHeader (bs : Bytes) : RmHeader :=
  { toolClass := u bs 4 4, axes := u bs 8 1, qexp := (List.range 12).map fun i => u bs (12 + i) 1, nCount := u bs 24 4,
    eCount := u bs 28 4, env := spheresAt bs 32 (min 8 (u bs 9 1)), planId := slice bs 96 16 }

/-- The header of the active image of a context, if any. -/
def State.activeHeader (s : State) (c : CtxId) : Option RmHeader :=
  let rm := (s.ctx c).rm
  if rm.active then
    match s.images.toList.find? fun e => e.handle == (rm.parts[rm.activePart]?.getD default).handle && e.st == 2 with
    | some e => some (parseRmHeader (psramRead s e.offset 256))
    | none => none
  else none

/-- The tool spheres that the self-mask uses (R80, R148). -/
def State.maskTool (s : State) (c : CtxId) : List Sphere :=
  match s.toolSlot c, (s.ctx c).tool with
  | none, _ => []
  | some _, some t => (s.toolSet c).getD t.spheres
  | some _, none => match s.activeHeader c with
    | some h => h.env
    | none => []

end Sys2Proof.Machine
end

