-- ==== Sys2Proof/Machine/Ingress.lean ====
section
/-! DEFINITION. Depth ingress (R80, R81, R100-R131) and external update messages (R78, R571). -/

namespace Sys2Proof.Machine

/-! ## The self-mask (R80, R81, R108) -/

/-- The joint-state samples that bracket a moment: the last at or before it and the first after it, the latest standing in
for a later one that does not exist (R80, R108). -/
def bracket (js : List (Nat × List Word)) (t : Int) : Option (List Word × List Word) :=
  let before := js.filter fun j => decide ((j.1 : Int) ≤ t)
  let after := js.filter fun j => decide (t < (j.1 : Int))
  match before.getLast?, after.head? with
  | some a, some b => some (a.2, b.2)
  | some a, none => some (a.2, a.2)
  | none, _ => none

/-- R81: a running context without a sample within SELF_STALE before the mid-exposure time. -/
def selfStale (s : State) (mid : Int) : Bool :=
  s.runningCtxs.any fun c =>
    !((s.ctx c).joints.any fun j => decide ((j.1 : Int) ≤ mid) && decide (mid ≤ j.1 + us (wNat s 0x1E)))

/-- The body and tool spheres of the running contexts at the two bracketing samples (R80). -/
def maskSpheres (s : State) (mid : Int) : List FSphere :=
  s.runningCtxs.flatMap fun c =>
    match (s.ctx c).plan, bracket (s.ctx c).joints mid with
    | some p, some (a, b) =>
      [a, b].flatMap fun q => Config.bodySpheres p.kinModel q ++
        (s.maskTool c).map fun t => { c := Config.placeInFlange p.kinModel q t, r := t.r }
    | _, _ => []

/-- A point within a sphere grown by a margin in mm; exact on the FP32 values (log 27). -/
def inSphere (p : FPoint) (k : FSphere) (margin : Nat) : Bool :=
  match f32q p.x.toNat, f32q p.y.toNat, f32q p.z.toNat, f32q k.c.x.toNat, f32q k.c.y.toNat, f32q k.c.z.toNat with
  | some a, some b, some c, some x, some y, some z =>
    let d := (a - x) ^ 2 + (b - y) ^ 2 + (c - z) ^ 2
    decide (d * 16000000 ≤ ((k.r + 4 * margin) ^ 2 * 2 ^ 298 : Nat))
  | _, _, _, _, _, _ => false

/-! ## From pixel to voxel (R110-R112) -/

def fNeg6 : Num := num 0x358637BD
def fNeg3 : Num := num 0x3A83126F
def fInt (n : Int) : Num := ofInt fp32 n
def ofWord (w : Word) : Num := num w.toNat

/-- A sum of three terms, left to right, each operation rounding (log 28). -/
def sum3 (a b c : Num) : Num := fadd fp32 (fadd fp32 a b) c

/-- The world point of a pixel with depth z. -/
def worldPoint (r : CamRec) (px py : Nat) (z : Num) : FPoint :=
  let pc := fun (k : Nat) (c f : Word) => fdiv fp32 (fmul fp32 (fsub fp32 (fInt k) (ofWord c)) z) (ofWord f)
  let x := pc px r.cx r.fx
  let y := pc py r.cy r.fy
  let m := fun (i : Nat) => ofWord (r.rot[i]?.getD 0)
  let row := fun (i : Nat) =>
    fadd fp32 (sum3 (fmul fp32 (m (3 * i)) x) (fmul fp32 (m (3 * i + 1)) y) (fmul fp32 (m (3 * i + 2)) z))
      (ofWord (r.trans[i]?.getD 0))
  ⟨w32 (row 0), w32 (row 1), w32 (row 2)⟩

/-- round_half_even of 4,000 times a coordinate is the conversion of R363. -/
def quarter (a : Word) : Int := toCoord fp32 a.toNat
def quarterP (p : FPoint) : V3 := ⟨quarter p.x, quarter p.y, quarter p.z⟩

/-- The segment from `a` by `d` meets the open cube (R112), decided exactly. -/
def meetsOpen (a d lo : V3) (e : Nat) : Bool :=
  let axis := fun (p v l : Int) =>
    -- bounds of the parameter as fractions with a positive denominator; none: never; no bounds: always
    if v = 0 then (if l < p ∧ p < l + e then some ([], []) else none)
    else if 0 < v then some ([(l - p, v)], [(l + e - p, v)])
    else some ([(p - (l + e), -v)], [(p - l, -v)])
  match axis a.x d.x lo.x, axis a.y d.y lo.y, axis a.z d.z lo.z with
  | some (l1, u1), some (l2, u2), some (l3, u3) =>
    let ls := l1 ++ l2 ++ l3
    let us := u1 ++ u2 ++ u3
    (ls.all fun l => decide (l.1 < l.2) && us.all fun x => decide (l.1 * x.2 < x.1 * l.2)) &&
      us.all fun x => decide (0 < x.1)
  | _, _, _ => false

/-- The descriptors of the voxels whose open cube meets a segment (R112). -/
def rayVoxels (g : Geom) (a b : V3) : List Nat :=
  let lo : V3 := ⟨min a.x b.x, min a.y b.y, min a.z b.z⟩
  let hi : V3 := ⟨max a.x b.x, max a.y b.y, max a.z b.z⟩
  let d := b.sub a
  let cells := (List.range (g.nx * g.ny * g.nz)).filter fun c =>
    let o := g.lo.add ((g.cellAt c).scale 1280)
    decide (o.x < hi.x + 1) && decide (lo.x < o.x + 1280) && decide (o.y < hi.y + 1) && decide (lo.y < o.y + 1280) &&
      decide (o.z < hi.z + 1) && decide (lo.z < o.z + 1280) && meetsOpen a d o 1280
  cells.flatMap fun c =>
    let l := g.level c
    let places := match l with
      | 0 => (List.range 64).map fun k => (⟨0, c, k / 8, k % 8⟩ : Place)
      | 1 => (List.range 8).map fun k => (⟨1, c, k, 0⟩ : Place)
      | _ => [⟨2, c, 0, 0⟩]
    places.flatMap fun p => (List.range 512).filterMap fun i =>
      let v := g.voxLo p i
      if g.inside v && meetsOpen a d v (voxEdge l) then some (p.desc i) else none

/-- What a pixel gives: nothing, where decimation skips it; a point dropped for a reason of R115 (1 invalid, 2 confidence, 3 range,
4 self, 5 outside the box); or its hit and its misses. -/
inductive Shot where
  | skipped
  | dropped (reason : Nat)
  | hit (d : Nat) (misses : List Nat)
deriving DecidableEq, Repr

/-- The depth of a code, in metres. -/
def depthOf (r : CamRec) (D : Nat) : Num := fmul fp32 (fInt D) (fmul fp32 (fInt r.depthUnit) fNeg6)

/-- The pixel (px, py) with depth code D and confidence C, decimation apart. -/
def shootAt (g : Geom) (r : CamRec) (spheres : List FSphere) (margin px py D C : Nat) : Shot :=
  if D = 0 ∨ D = 0xFFFF then .dropped 1
  else if C < r.cMin then .dropped 2
  else
    let z := depthOf r D
    if flt fp32 z (fmul fp32 (fInt r.rangeMin) fNeg3) || flt fp32 (fmul fp32 (fInt r.rangeMax) fNeg3) z then .dropped 3
    else
      let pw := worldPoint r px py z
      if spheres.any fun k => inSphere pw k margin then .dropped 4
      else match g.target (quarterP pw) with
        | none => .dropped 5
        | some d =>
          if r.rayStride = 0 ∨ px % (r.decim * r.rayStride) ≠ 0 ∨ py % (r.decim * r.rayStride) ≠ 0 then .hit d []
          else
            let t := fun (i : Nat) => ofWord (r.trans[i]?.getD 0)
            let v := fun (a : Word) (i : Nat) => fsub fp32 (ofWord a) (t i)
            let (x, y, w) := (v pw.x 0, v pw.y 1, v pw.z 2)
            let len := fsqrt fp32 (sum3 (fmul fp32 x x) (fmul fp32 y y) (fmul fp32 w w))
            let guard := fmul fp32 (fInt r.missGuard) fNeg3
            if flt fp32 guard len then
              let k := fdiv fp32 guard len
              let gp := fun (a : Word) (d : Num) => w32 (fsub fp32 (ofWord a) (fmul fp32 d k))
              let b : FPoint := ⟨gp pw.x x, gp pw.y y, gp pw.z w⟩
              let o : FPoint := ⟨r.trans[0]?.getD 0, r.trans[1]?.getD 0, r.trans[2]?.getD 0⟩
              .hit d (rayVoxels g (quarterP o) (quarterP b))
            else .hit d []

/-- The pixel (px, py) of an image. -/
def shoot (g : Geom) (r : CamRec) (spheres : List FSphere) (margin px py D C : Nat) : Shot :=
  if px % r.decim ≠ 0 ∨ py % r.decim ≠ 0 then .skipped else shootAt g r spheres margin px py D C

/-! ## The test line (R113-R115) -/

/-- The depth code of test pixel k for a sensor frame counter, of 16 bits on its RAW16 line (R114). -/
def testDepth (r : CamRec) (fcnt k : Nat) : Nat :=
  let a : Int := ceilDiv (r.rangeMin * 1000) r.depthUnit
  let b : Int := (r.rangeMax * 1000 / r.depthUnit : Nat)
  let m : Int := (41 * k + 13 * (fcnt % 4)) % 64
  if k = 0 then 0 else ((a + m * (b - a) / 63) % 65536).toNat

def testConf (k : Nat) : Nat := if k % 8 = 7 then 0 else 255
def testCol (r : CamRec) (k : Nat) : Nat := k * r.width / 64
def testRow (r : CamRec) : Nat := r.height / 2

/-- The one sphere of the line's self-mask: 50 mm about the world point of pixel 32. -/
def testSphere (r : CamRec) (fcnt : Nat) : FSphere :=
  { c := worldPoint r (testCol r 32) (testRow r) (depthOf r (testDepth r fcnt 32)), r := 200 }

/-- Test pixel k through every stage: decimation does not apply. -/
def testShot (g : Geom) (r : CamRec) (margin fcnt k : Nat) : Shot :=
  shootAt g r [testSphere r fcnt] margin (testCol r k) (testRow r) (testDepth r fcnt k) (testConf k)

/-- The word and the ray crossings that a test pixel gives (R115). -/
def testWord (x : Shot) : Nat × Nat :=
  match x with
  | .hit d ms => (d, ms.length)
  | .dropped n => (0xFFFFFFF0 + n, 0)
  | .skipped => (0xFFFFFFF0, 0)

/-- The 64 words and ray-crossing counts of a sound line; AON expects them. -/
def testExpected (g : Geom) (r : CamRec) (margin fcnt : Nat) : List (Nat × Nat) :=
  (List.range 64).map fun k => testWord (testShot g r margin fcnt k)

/-- What the pipelines give: the sound line, but for the pixels that a defective one gives wrong. -/
def testGiven (wrong : List (Fin 64 × Word × Nat)) (sound : List (Nat × Nat)) : List (Nat × Nat) :=
  sound.zipIdx.map fun (x, k) => match wrong.find? fun w => w.1.val == k with
    | some w => (w.2.1.toNat, w.2.2)
    | none => x

/-- Signature and ray crossings of pipeline j, over its pixels 16j to 16j + 15 in order of k (log 117). -/
def pipeSig (l : List (Nat × Nat)) (j : Nat) : Nat := crc32 (((l.drop (16 * j)).take 16).flatMap fun x => leBytes 4 x.1)
def pipeRays (l : List (Nat × Nat)) (j : Nat) : Nat := (((l.drop (16 * j)).take 16).map (·.2)).sum

/-- The pipelines whose signature or count differs from the expected one. A pipeline that gives no pixel wrong agrees. -/
def pipesFailing (wrong : List (Fin 64 × Word × Nat)) (sound : List (Nat × Nat)) : BitVec 4 :=
  let given := testGiven wrong sound
  BitVec.ofNat 4 (ofBits ((List.range 4).filter fun j => (wrong.any fun w => w.1.val / 16 == j) &&
    (pipeSig given j != pipeSig sound j || pipeRays given j != pipeRays sound j)))

/-- The update set of an image (R110) and the number of its points outside the box (R58). -/
def updateSet (g : Geom) (r : CamRec) (spheres : List FSphere) (margin : Nat) (depth conf : List (List Nat)) :
    List (Nat × Bool) × Nat :=
  depth.zipIdx.foldl (fun acc (line, py) =>
    line.zipIdx.foldl (fun (m, out) (D, px) =>
      let C := if r.dtConf = 0 then 255 else (conf[py]?.getD [])[px]?.getD 0
      match shoot g r spheres margin px py D C with
      | .dropped 5 => (m, out + 1)
      | .dropped _ => (m, out)
      | .skipped => (m, out)
      | .hit d ms =>
        let m := ms.foldl (fun m k => if (amGet m k).isSome then m else amPut m k false) m
        (amPut m d true, out)) acc) (([], 0) : List (Nat × Bool) × Nat)

/-! ## CSI-2 commands -/

def State.modStream (s : State) (st : StreamId) (f : Stream → Stream) : State :=
  { s with fus := { s.fus with streams := vupd s.fus.streams st f } }
def rxOf (st : StreamId) : RxId := Fin.ofNat 4 (st.val / 4)
def State.modRx (s : State) (n : RxId) (f : Rx → Rx) : State :=
  { s with fus := { s.fus with rx := vupd s.fus.rx n f } }

/-- A stream receives: its receiver and it are enabled and the Fuse domain is not held in reset; a member ignores its
receivers (R608). -/
def State.receives (s : State) (st : StreamId) : Bool :=
  s.fus.rx[rxOf st].en && s.fus.streams[st].en && !s.fuseReset && !isMember s

/-- A gap in the camera's own frame numbers; 0 means the camera does not count, and after 65,535 comes 1 (log 29). -/
def camGap (last : Option Nat) (n : Nat) : Bool :=
  match last with
  | none => false
  | some k => n != 0 && n != 1 && n != (k + 1) % 65536

/-- What a receiver sees of any packet: the state of its lanes, a header error that it corrects and counts (R107, R126, R129). -/
def seePacket (st : StreamId) (h : HdrEcc) (k : LaneState) (s : State) : State :=
  if !s.fus.rx[rxOf st].en || s.fuseReset || isMember s then s
  else
    let one := h == .corrected
    let s := s.modRx (rxOf st) fun x =>
      { x with stopState := k.stop, clkHs := k.clkHs, ecc1 := if one then satAdd 255 x.ecc1 1 else x.ecc1 }
    if one then { s with fus.irq := s.fus.irq ||| 32#6 } else s

/-- A header beyond repair: the image between its Frame Start and its Frame End is CORRUPT (R107). -/
def badHeader (st : StreamId) (s : State) : State :=
  s.modStream st fun x => { x with img := x.img.map fun i => if i.closed then i else { i with corrupt := true } }

/-- CSI_FRAME_START (R102, R106): counter, stamp, and a new image; one begun before the last one ended is CORRUPT.
DESIGN CHOICE (log 88): an image that has ended and is not complete when the next begins gives way to it, without a status. -/
def csiFrameStartEffect (st : StreamId) (n : Nat) (h : HdrEcc) (k : LaneState) (s : State) : State :=
  let s := seePacket st h k s
  if !s.receives st then s
  else if h = .bad then badHeader st s
  else s.modStream st fun x =>
    let open_ := match x.img with
      | some i => !i.closed
      | none => false
    { x with
      fcnt := x.fcnt + 1
      gaps := if camGap x.lastCam n then satAdd 65535 x.gaps 1 else x.gaps
      lastCam := some n
      img := some { (default : Img) with stamp := s.now, fcnt := (x.fcnt + 1).toNat, corrupt := open_ } }

def execCsiFrameStart (st : StreamId) (p : CsiStart) (s : State) : Out :=
  .next (csiFrameStartEffect st p.frame p.hdr p.lanes s)

/-- A long packet with a readable header put into its image (R101, R106, R107). DESIGN CHOICE (log 124): the low byte of a RAW16 pixel
comes first. -/
def takePacket (r : CamRec) (p : CsiPacket) (i : Img) : Img :=
  let i := { i with corrupt := i.corrupt || !p.crcOk, overrun := i.overrun || p.overrun }
  if p.dt = 0x2E then
    { i with
      depth := i.depth ++ [(List.range (p.payload.length / 2)).map fun k => u p.payload (2 * k) 2]
      formatBad := i.formatBad || p.payload.length != 2 * r.width || (r.dtConf != 0 && i.conf.length != i.depth.length) }
  else if p.dt = 0x12 then
    { i with embedded := i.embedded ++ [(i.depth.isEmpty, p.crcOk, p.payload)] }
  else
    { i with
      conf := i.conf ++ [p.payload.map (·.toNat)]
      formatBad := i.formatBad || p.payload.length != r.width || i.conf.length + 1 != i.depth.length }

/-- The data types that a stream takes: depth, embedded data, the confidence type of its record. -/
def dtTaken (x : Stream) (dt : Nat) : Bool :=
  dt == 0x2E || dt == 0x12 || x.rec_.any fun r => r.dtConf != 0 && dt == r.dtConf

/-- CSI_LONG_PACKET (R101, R106, R107, R129). A packet of another data type is ignored and counted wherever it comes; a depth,
confidence or embedded line outside an image is dropped (log 118). -/
def csiLongPacketEffect (st : StreamId) (p : CsiPacket) (s : State) : State :=
  let s := seePacket st p.hdr p.lanes s
  if !s.fus.rx[rxOf st].en || s.fuseReset || isMember s then s
  else if p.hdr = .bad then (if s.receives st then badHeader st s else s)
  else if !dtTaken s.fus.streams[st] p.dt then s.modRx (rxOf st) fun x => { x with dtIgn := satAdd 255 x.dtIgn 1 }
  else match s.fus.streams[st].img, s.fus.streams[st].rec_ with
    | some i, some r =>
      if !s.receives st || i.closed then s else s.modStream st fun x => { x with img := some (takePacket r p i) }
    | _, _ => s

def execCsiLongPacket (st : StreamId) (p : CsiPacket) (s : State) : Out := .next (csiLongPacketEffect st p s)

/-- CSI_FRAME_END (R106, R113): the image's data ends and its test line is injected. -/
def csiFrameEndEffect (st : StreamId) (h : HdrEcc) (k : LaneState) (s : State) : State :=
  let s := seePacket st h k s
  if !s.receives st then s
  else if h = .bad then badHeader st s
  else s.modStream st fun x => { x with img := x.img.map fun i => { i with closed := true } }

def execCsiFrameEnd (p : CsiEnd) (s : State) : Out := .next (csiFrameEndEffect p.st p.hdr p.lanes s)

/-! ## Loss markers (R119) -/

/-- Entry into LOST or FAILED: marker, record, fault record, EMCY. -/
def loseStream (st : StreamId) (failed : Bool) (s : State) : State :=
  let s := s.modStream st fun x => { x with st := if failed then .failed else .lost }
  let s := { s with fus.irq := s.fus.irq ||| (if failed then 4#6 else 2#6) }
  let s := { s with world := { s.world with inputs := s.world.inputs ++ [.loss s.world.tick st failed] } }
  let s := record s s.world.tick 0x02 st.val (leBytes 1 (bit failed))
  let s := fault s 0xFF 18 0x0302 0x1F 0x1F 0 (st.val + 256 * bit failed)
  emcy s 0xFF06 st.val (bit failed)

/-- STREAM_TIMEOUT (R118): only when the timer of a stream in WAIT or RUN exceeds STREAM_TIMEOUT; in
replay recorded markers take its place (R435). -/
def streamTimeoutEffect (st : StreamId) (s : State) : State :=
  let x := s.fus.streams[st]
  match x.rec_ with
  | some r =>
    if s.fus.run && !s.fuseReset && !s.replaying && !isMember s && (x.st == .wait || x.st == .run) &&
        decide (us r.streamTimeout < s.now - x.timerFrom) then loseStream st false s
    else s
  | none => s

def execStreamTimeout (st : StreamId) (s : State) : Out := .next (streamTimeoutEffect st s)

/-! ## IMAGE_COMPLETE (R107-R117) -/

/-- The embedded-data lines before the first depth line. -/
def Img.leading (i : Img) : List (Bool × Bool × Bytes) := i.embedded.filter fun e => e.1
/-- The embedded-data line that arrived with a correct header and CRC: the first such line (log 118). -/
def Img.goodLine (i : Img) : Option Bytes := (i.embedded.find? fun e => e.2.1).map (·.2.2)

/-- The sensor test row check (R117); true where it passes. -/
def testRowOk (r : CamRec) (x : Stream) (i : Img) : Bool :=
  r.trMode == 0 ||
    (match i.leading with
    | [(_, crcOk, e)] => crcOk && u e 0 4 == r.trPattern &&
        (match x.refImg with
        | none => true
        | some (n, cnt) => u e 4 4 == (cnt + i.fcnt + 2 ^ 32 - n) % 2 ^ 32)
    | _ => false)

/-- The status code of an image with an update set of `setLen` entries (R107). -/
def imageStatus (s : State) (r : CamRec) (x : Stream) (i : Img) (tlFail : Bool) (mid : Int) (setLen : Nat) : Nat :=
  if i.corrupt then 1
  else if i.formatBad || i.depth.length != r.height || (r.dtConf != 0 && i.conf.length != r.height) then 2
  else if !testRowOk r x i then 3
  else if tlFail then 4
  else if x.st == .failed then 5
  else if i.overrun then 6
  else if 1048576 < setLen then 7
  else if us r.ageMax < s.now - mid then 8
  else if selfStale s mid then 9
  else 0

/-- The payload of an IMAGE entry (R427, R428); the parameter of each block is the encoder's choice, a free value. -/
def imageBytesOf (r : CamRec) (i : Img) (status : Nat) (mid : Int) (base : Nat) : Bytes :=
  let head := leBytes 1 status ++ leBytes 4 i.fcnt ++ leBytes 8 (code 64 mid) ++ leBytes 2 r.width ++ leBytes 2 r.height
  if status ≠ 0 then head
  else
    let blocks := r.width / 32 + 1
    head ++ i.depth.zipIdx.flatMap fun (l, y) =>
      codeLine (fun j => (Config.freeBits 4 (base + y * blocks + j)).toNat) l ++
        (if r.dtConf = 0 then [] else (i.conf[y]?.getD []).map (BitVec.ofNat 8))

/-- The test line that follows an image runs and is compared (R113-R116, R125-R127). -/
def testLine (st : StreamId) (bad : BitVec 4) (given : List (Nat × Nat)) (s : State) : State :=
  let fail := bad != 0
  let s := { s with fus := { s.fus with
    tlSig := (List.range 4).map (pipeSig given), tlRays := (List.range 4).map (pipeRays given)
    pipeFault := bad, pipeFail := s.fus.pipeFail ||| bad, tlRuns := (s.fus.tlRuns + 1) % 65536
    irq := if fail then s.fus.irq ||| 8#6 else s.fus.irq } }
  let s := s.modStream st fun x => { x with tlFails := if fail then x.tlFails + 1 else 0 }
  if fail then fault s 0xFF 18 0x0301 0x1F 0x1F 0 (st.val + 256 * bad.toNat) else s

/-- IMAGE_COMPLETE: status, counters, entry, input, and FAILED after a second failed test line in a row. A member of a hedge ignores
its receivers, an image that had ended before its admission too (R608). DESIGN CHOICE (log 124): no test line runs, and none counts,
while RUN = 0, in replay or without an image. -/
def imageCompleteEffect (st : StreamId) (wrong : List (Fin 64 × Word × Nat)) (s : State) : State :=
  let x := s.fus.streams[st]
  match x.img, x.rec_ with
  | some i, some r =>
    if !i.closed || s.fuseReset then s
    else
      let s := s.modStream st fun x => { x with img := none }
      if !s.fus.run || s.replaying || isMember s then s
      else
        let mid : Int := (i.stamp : Int) - us r.expoOffset
        let sound := testExpected s.world.geom r (wNat s 0x1D) i.fcnt
        let bad := pipesFailing wrong sound
        let s := testLine st bad (testGiven wrong sound) s
        let early := imageStatus s r x i (bad != 0) mid 0
        let (set, out) := if early = 0 ∨ 8 ≤ early then
            updateSet s.world.geom r (maskSpheres s mid) (wNat s 0x1D) i.depth i.conf
          else ([], 0)
        let status := imageStatus s r x i (bad != 0) mid set.length
        let ok := status = 0
        let s := s.modStream st fun x => { x with
          lastCode := status
          acc := if ok then x.acc + 1 else x.acc
          st := if ok then .run else x.st
          timerFrom := if ok then s.now else x.timerFrom
          refImg := match i.goodLine with
            | some e => some (i.fcnt, u e 4 4)
            | none => x.refImg }
        let s := s.modRx (rxOf st) fun y => { y with bad := if status = 1 ∨ status = 2 then satAdd 255 y.bad 1 else y.bad }
        let irq := (if ok then 0#6 else 1#6) ||| (if status = 6 then 16#6 else 0#6)
        let s := { s with fus.irq := s.fus.irq ||| irq }
        let s := record s s.world.tick 0x01 st.val (imageBytesOf r i status mid s.freeCount)
        let s := if ok then
            { s with
              freeCount := s.freeCount + r.height * (r.width / 32 + 1)
              world := { s.world with
                inputs := s.world.inputs ++ [.image s.world.tick st i.fcnt set]
                updReject := (s.world.updReject + out) % 2 ^ 32 } }
          else s
        if bad != 0 && decide (2 ≤ s.fus.streams[st].tlFails) && s.fus.streams[st].st != .failed then loseStream st true s
        else s
  | _, _ => s

def execImageComplete (st : StreamId) (wrong : List (Fin 64 × Word × Nat)) (s : State) : Out :=
  .next (imageCompleteEffect st wrong s)

/-! ## EXT_UPDATE_MESSAGE (R78, R571) -/

/-- Function 2 of an interface works (R567, R570, R591). -/
def State.f2 (s : State) (i : SdIf) : Bool :=
  s.serves && (s.sd i).en && (s.sd i).f2En && !s.faults.inReset.toNat.testBit 29

/-- One message that has arrived (R83, R122, R427, R713). -/
def takeMessage (src : Nat) (s : State) (m : ExtMsg) : State :=
  if !s.fus.run || s.fuseReset then
    { s with world := { s.world with updReject := (s.world.updReject + m.entries.length) % 2 ^ 32 } }
  else
    let s := record s s.world.tick 0x03 src m.raw
    { s with world := { s.world with
        inputs := s.world.inputs ++ [.ext s.world.tick m.source m.seq m.entries] } }

/-- EXT_UPDATE_MESSAGE: one transfer to EXT_IN. In replay nothing is integrated (R434), nor on a member (R610). -/
def extUpdateEffect (i : SdIf) (data : Bytes) (s : State) : State :=
  if !s.f2 i then s
  else
    let (ms, bad) := parseExt (data.length / 24 + 1) data
    let s := s.modSd i fun x => { x with extBad := satAdd 255 x.extBad (if bad = 0 then 0 else 1) }
    if s.replaying || isMember s then s
    else
      let src := match s.portOf (sdIdx i) with
        | some .a => 0
        | some .b => 1
        | none => 0xFF
      ms.foldl (takeMessage src) s

def execExtUpdateMessage (i : SdIf) (data : Bytes) (s : State) : Out := .next (extUpdateEffect i data s)

/-! ## FUS_CSI_CTRL and FUS_STR_CTRL (R103, R118, R121, R128-R130) -/

/-- A write of FUS_CSI_CTRLn: LANES is frozen while EN = 1; counters clear when EN is written to 1. A domain held in reset
answers with a bus error (R507). DESIGN CHOICE (log 107): a write that leaves LANES as it is while EN = 1 is accepted. -/
def fusCsiCtrlEffect (n : RxId) (v : Word) (s : State) : State :=
  let x := s.fus.rx[n]
  let lanes := BitVec.ofNat 2 (fld v.toNat 1 2)
  let en := v.toNat.testBit 0
  if s.fuseReset || (x.en && lanes != x.lanes) then s.busErr
  else
    let clr := fun (k : Nat) => if en then 0 else k
    State.okBus (s.modRx n fun x =>
      { x with en := en, lanes := lanes, ecc1 := clr x.ecc1, bad := clr x.bad, dtIgn := clr x.dtIgn })


/-- A write of FUS_STR_CTRLm.EN: enabling needs a valid record, clears the counter and starts the timer. -/
def fusStrCtrlEffect (st : StreamId) (v : Word) (s : State) : State :=
  let x := s.fus.streams[st]
  let en := v.toNat.testBit 0
  if s.fuseReset || (en && x.rec_.isNone) then s.busErr
  else if en = x.en then s.okBus
  else if en then
    State.okBus (s.modStream st fun x => { x with
      en := true, st := .wait, fcnt := 0, lastCam := none, img := none, tlFails := 0, refImg := none
      timerFrom := if s.fus.run then s.now else 0 })
  else State.okBus (s.modStream st fun x => { x with en := false, st := .off, img := none })


end Sys2Proof.Machine
end

