-- ==== Sys2Proof/Machine/Roadmap.lean ====
section
/-! DEFINITION. Roadmap, node and edge tables, the loader, deltas, selection (R132-R171). -/

namespace Sys2Proof.Machine

/-! ## Entries -/

/-- A node entry (R138). -/
structure NodeEnt where
  q : List Int
  edgeFirst : Nat
  edgeCount : Nat
  nflags : Nat
  tcp : V3
deriving DecidableEq, Repr, Inhabited

def parseNode (bs : Bytes) : NodeEnt :=
  { q := (List.range 12).map fun i => si bs (2 * i) 2, edgeFirst := u bs 24 4, edgeCount := u bs 28 2, nflags := u bs 30 2,
    tcp := ⟨si bs 32 2, si bs 34 2, si bs 36 2⟩ }

def NodeEnt.disabled (n : NodeEnt) : Bool := n.nflags.testBit 0

/-- An edge entry (R140, R141, R143). -/
structure EdgeEnt where
  nodeA : Nat
  nodeB : Nat
  qa : List Int
  qb : List Int
  samples : Nat
  force : Bool
  npMargin : Nat
  sphCount : Nat
  duration : Nat
  hint : Nat
  eflags : Nat
  spheres : List Sphere
deriving DecidableEq, Repr, Inhabited

def parseEdge (bs : Bytes) : EdgeEnt :=
  let npd := u bs 52 4
  { nodeA := u bs 0 2, nodeB := u bs 2 2, qa := (List.range 12).map fun i => si bs (4 + 2 * i) 2,
    qb := (List.range 12).map fun i => si bs (28 + 2 * i) 2, samples := fld npd 0 5, force := npd.testBit 5,
    npMargin := fld npd 8 16, sphCount := fld npd 24 6, duration := u bs 56 4, hint := u bs 60 2, eflags := u bs 62 2,
    spheres := spheresAt bs 64 (min 56 (fld npd 24 6)) }

def EdgeEnt.disabled (e : EdgeEnt) : Bool := e.eflags.testBit 0

/-! ## The tables in the store (R132, R134, R135) -/

/-- First physical node and edge entry of partition `p` of a context. -/
def nodeFirst (s : State) (c : CtxId) (p : Nat) : Nat := rmNat s c 0x01 + p * rmNat s c 0x02
def edgeFirst (s : State) (c : CtxId) (p : Nat) : Nat := rmNat s c 0x03 + p * rmNat s c 0x04
def nodeAddr (s : State) (k : Nat) : Nat := s.boot.cfg.nodeBase + 64 * k
def edgeAddr (s : State) (k : Nat) : Nat := s.boot.cfg.edgeBase + 512 * k
def nodeBytes (s : State) (c : CtxId) (p k : Nat) : Bytes := memRead s.store (nodeAddr s (nodeFirst s c p + k)) 64
def edgeBytes (s : State) (c : CtxId) (p k : Nat) : Bytes := memRead s.store (edgeAddr s (edgeFirst s c p + k)) 512

/-- An entry of the active partition, by local number (R135). -/
def State.node (s : State) (c : CtxId) (k : Nat) : NodeEnt := parseNode (nodeBytes s c (s.ctx c).rm.activePart k)
def State.edge (s : State) (c : CtxId) (k : Nat) : EdgeEnt := parseEdge (edgeBytes s c (s.ctx c).rm.activePart k)

/-- The partition in force. -/
def Roadmap.cur (r : Roadmap) : RmPart := r.parts[r.activePart]?.getD default
/-- Partition `p` changed. -/
def Roadmap.modPart (r : Roadmap) (p : Nat) (f : RmPart → RmPart) : Roadmap :=
  { r with parts := vupd r.parts (Fin.ofNat 2 p) f }
def RmPart.empty : RmPart := { handle := 0, nCount := 0, eCount := 0, chain := List.replicate 16 0, st := 0 }

/-! ## Validation (R137-R143, R167) -/

/-- The first failure of a validation: REASON and local entry number. -/
abbrev Verdict := Option (Nat × Nat)
def noEntry : Nat := 0xFFFFFF
/-- The first of two verdicts. -/
def orElseV (a b : Verdict) : Verdict := if a.isSome then a else b
def failIf (b : Bool) (reason entry : Nat) : Verdict := if b then some (reason, entry) else none
/-- LOAD_STATUS of a verdict. -/
def statusWord (v : Nat × Nat) : Nat := v.1 * 2 ^ 24 + v.2

/-- The joint codes of a node (R137): −32,768 is refused, and 0 at and above AXES. -/
def qOk (axes : Nat) (q : List Int) : Bool :=
  q.zipIdx.all fun (v, i) => v != -32768 && (decide (i < axes) || v == 0)

def nodeCheck (axes eCount k : Nat) (bs : Bytes) : Verdict :=
  let n := parseNode bs
  orElseV
    (failIf (decide (512 < n.edgeCount) || !allZero (slice bs 38 10) || decide (1 < n.nflags) || !qOk axes n.q) 5 k)
    (failIf (decide (eCount < n.edgeFirst + n.edgeCount)) 6 k)

/-- An edge lies in the outgoing range of a node (R139). -/
def NodeEnt.owns (n : NodeEnt) (e : Nat) : Bool := decide (n.edgeFirst ≤ e) && decide (e < n.edgeFirst + n.edgeCount)

def edgeCheck (nodes : List NodeEnt) (k : Nat) (bs : Bytes) : Verdict :=
  let e := parseEdge bs
  let npd := u bs 52 4
  let nCount := nodes.length
  let a := nodes[e.nodeA]?.getD default
  let b := nodes[e.nodeB]?.getD default
  orElseV (failIf (decide (nCount ≤ e.nodeA) || decide (nCount ≤ e.nodeB) || e.nodeA == e.nodeB || !a.owns k ||
      decide ((nodes.filter fun n => n.owns k).length ≠ 1)) 6 k)
  (orElseV (failIf (decide (e.qa ≠ a.q) || decide (e.qb ≠ b.q)) 7 k)
  (orElseV (failIf (!within 1 56 e.sphCount || !within 1 16 e.samples || !within 1 10000000 e.duration ||
      fld npd 6 2 != 0 || fld npd 30 2 != 0 || decide (1 < e.eflags) || !e.spheres.all sphereOk ||
      !allZero (bs.drop (64 + 8 * e.sphCount))) 8 k)
  (failIf (isNan bf16 e.hint || flt bf16 (num e.hint) (num 0)) 9 k)))

/-- Every entry of a partition checked, in ascending order, nodes first (R167). -/
def entriesCheck (axes : Nat) (nodes edges : List Bytes) : Verdict :=
  let ns := nodes.map parseNode
  let v := nodes.zipIdx.foldl (fun v (bs, k) => orElseV v (nodeCheck axes edges.length k bs)) none
  edges.zipIdx.foldl (fun v (bs, k) => orElseV v (edgeCheck ns k bs)) v

/-- The header of an image (R150); true where it is well formed. -/
def headerFine (bs : Bytes) : Bool :=
  let h := parseRmHeader bs
  let n := u bs 9 1
  u bs 0 4 == 1 && within 1 12 h.axes && within 1 8 n && u bs 10 2 == 0 &&
    (h.qexp.zipIdx.all fun (q, i) => if i < h.axes then within 8 16 q else q == 0) && within 1 65536 h.nCount &&
    within 1 262144 h.eCount && h.env.all sphereOk && allZero (slice bs (32 + 8 * n) (64 - 8 * n)) &&
    allZero (slice bs 112 144) && bs.length == 256 + 64 * h.nCount + 512 * h.eCount + 64

def imageNodes (bs : Bytes) (n : Nat) : List Bytes := chunks 64 n (slice bs 256 (64 * n))
def imageEdges (bs : Bytes) (n e : Nat) : List Bytes := chunks 512 e (slice bs (256 + 64 * n) (512 * e))

/-- The checks of a load (R167), in the order of the table. -/
def loadCheck (s : State) (c : CtxId) (handle : Nat) : Verdict :=
  match goodImage s 2 handle with
  | none => some (1, noEntry)
  | some bs =>
    let h := parseRmHeader bs
    let plan := (s.ctx c).plan
    orElseV (failIf (!headerFine bs) 2 noEntry)
    (orElseV (failIf (decide (rmNat s c 0x02 < h.nCount) || decide (rmNat s c 0x04 < h.eCount)) 3 noEntry)
    (orElseV (failIf (match plan with
        | some p => decide (h.planId ≠ p.planId) || h.axes != p.axes
        | none => true) 4 noEntry)
    (entriesCheck h.axes (imageNodes bs h.nCount) (imageEdges bs h.nCount h.eCount))))

/-- Entries written into partition `p` of a context, from an image. -/
def writeImage (s : State) (c : CtxId) (p : Nat) (bs : Bytes) : State :=
  let h := parseRmHeader bs
  let m := memWrite s.store (nodeAddr s (nodeFirst s c p)) (slice bs 256 (64 * h.nCount))
  let m := memWrite m (edgeAddr s (edgeFirst s c p)) (slice bs (256 + 64 * h.nCount) (512 * h.eCount))
  let chain := digest128 (slice bs 0 (256 + 64 * h.nCount + 512 * h.eCount))
  State.modRm { s with store := m } c fun r =>
    r.modPart p fun x => { x with nCount := h.nCount, eCount := h.eCount, chain := chain, st := 1 }

/-! ## Selection (R147, R149, R151-R155) -/

/-- A tool set fits an envelope (R149). -/
def fits (tool env : List Sphere) : Bool :=
  tool.all fun a => env.any fun e =>
    decide (a.r ≤ e.r) &&
      decide ((a.x - e.x) ^ 2 + (a.y - e.y) ^ 2 + (a.z - e.z) ^ 2 ≤ (((e.r : Int) - a.r) ^ 2))

/-- An image qualifies for a context (R151). -/
def qualifies (s : State) (c : CtxId) (tool : List Sphere) (handle : Nat) : Bool :=
  let x := s.ctx c
  !x.rm.failed.contains handle && handle != 0 &&
    match s.images.toList.find? fun e => e.handle == handle && e.st == 2 && e.kind == 2, x.plan with
    | some e, some p =>
      let h := parseRmHeader (psramRead s e.offset 256)
      let cls := if (s.toolSlot c).isSome then (match x.tool with
        | some t => t.cls
        | none => 0) else 0
      h.toolClass == cls && h.planId == p.planId && h.axes == p.axes && fits tool h.env
    | _, _ => false

/-- The handles of LIBRARY in force. -/
def libraryOf (bs : Bytes) : List Nat := (List.range 16).map fun i => u bs (4 * i) 4

/-- The partition that a load goes into (R154). -/
def loadPart (s : State) (c : CtxId) : Nat :=
  if rmNat s c 0x05 = 1 then 1 - (s.ctx c).rm.activePart else (s.ctx c).rm.activePart

/-- A ROADMAP entry (R427): operation 1 switch, 2 delta, 3 preload, 4 audit. -/
def recordRoadmap (s : State) (c : CtxId) (frame op : Nat) (what : Bytes) : State :=
  record s s.world.tick 0x0A c.val (leBytes 6 frame ++ leBytes 1 op ++ what)

/-- The image in partition `p` becomes active at frame `frame` (R154, R158). -/
def activate (s : State) (c : CtxId) (p frame : Nat) : State :=
  let s := (s.modRm c fun r => { r with active := true, activePart := p, rmState := 1, selected := 0 }).modCtx c
    fun x => { x with freshImage := true }
  recordRoadmap s c frame 1 (leBytes 4 (s.ctx c).rm.cur.handle)

/-- Loads of a context that are queued and not begun for a selection that no longer stands. -/
def dropQueued (s : State) (c : CtxId) (keep : Nat) : State :=
  { s with loader := s.loader.filter fun j => match j.op with
      | .load d _ h sel => j.begun || !(d == c && sel && h != keep)
      | _ => true }

/-- A load of the image is queued or running for the context. -/
def loadQueued (s : State) (c : CtxId) (handle : Nat) : Bool :=
  s.loader.any fun j => match j.op with
    | .load d _ h _ => d == c && h == handle
    | _ => false

/-- A load that has completed becomes READY (R156). -/
def Roadmap.settle (r : Roadmap) : Roadmap :=
  match r.ready with
  | some p => { r.modPart p fun x => { x with st := 2 } with ready := none }
  | none => r

/-- The selection of R152 at a frame start. `may` tells which images may become active at it: in replay those recorded
(R157, R435). -/
def selectImage (s : State) (c : CtxId) (frame : Nat) (may : Nat → Bool) : State :=
  let x := s.ctx c
  let toRm := fun (s : State) (v : Nat) => (dropQueued s c 0).modRm c fun r => { r with rmState := v, selected := 0 }
  if (s.toolSlot c).isSome && x.tool.isNone then toRm s 3
  else match s.toolSet c with
    | none => toRm s 4
    | some tool =>
      if x.rm.active && qualifies s c tool x.rm.cur.handle then toRm s 1
      else match (libraryOf (forceVal s (0x2201 + c.val) 0x06)).find? fun h => qualifies s c tool h with
        | none => toRm s 4
        | some h =>
          let other := 1 - x.rm.activePart
          let q := x.rm.parts[other]?.getD default
          let held := rmNat s c 0x05 = 1 && q.st == 2 && q.handle == h
          if held && may h then activate (dropQueued s c h) c other frame
          else
            let s := (dropQueued s c h).modRm c fun r => { r with rmState := 2, selected := h }
            if held || loadQueued s c h || (s.ctx c).rm.ready.isSome && q.handle == h then s
            else { s with loader := s.loader ++ [{ op := .load c (loadPart s c) h true, begun := false }] }

/-- The writes of LIBRARY that take effect at an edge: those that completed before it (R14). What had failed to load when one of them
completed may qualify again (R151). -/
def forgive (r : Roadmap) (now : Nat) : Roadmap :=
  { r with
    failed := (r.forgiven.filter fun x => x.1 != now).foldl (fun l x => x.2.foldl List.erase l) r.failed
    forgiven := r.forgiven.filter fun x => x.1 == now }

/-- The roadmap's part of a frame start (R147, R150-R156, R159): a completed load becomes READY, and active where it was
selected; selection runs when its inputs changed; a PRELOAD that was written is accepted. -/
def roadmapAtFrame (s : State) (c : CtxId) (frame : Nat) (toolChanged : Bool) (may : Nat → Bool) : State :=
  let lib := forceVal s (0x2201 + c.val) 0x06
  let pay := rmNat s c 0x07
  let now := s.now
  let s := s.modRm c fun r => (forgive r now).settle
  let r := (s.ctx c).rm
  let s : State := match ([0, 1] : List Nat).find? fun p => (r.parts[p]?.getD default).st == 2 &&
      (r.parts[p]?.getD default).handle == r.selected with
    | some p => if r.selected ≠ 0 ∧ r.rmState = 2 ∧ may r.selected then activate s c p frame else s
    | none => s
  let r := (s.ctx c).rm
  let due := toolChanged || r.reselect || decide (r.lastLibrary ≠ lib) || r.lastPayload != pay
  let s := s.modRm c fun r => { r with reselect := false, lastLibrary := lib, lastPayload := pay }
  let s := if due then selectImage s c frame may else s
  -- a write that completes at this edge waits for the next frame start (R14)
  let h := (((s.ctx c).rm.preload.filter fun x => x.2 != s.now).getLast?.map (·.1)).getD 0
  let s := s.modRm c fun r => { r with preload := r.preload.filter fun x => x.2 == s.now, deltaHeld := false }
  let r := (s.ctx c).rm
  if h ≠ 0 ∧ rmNat s c 0x05 = 1 ∧ !(r.active && r.cur.handle == h) then
    let s := recordRoadmap s c frame 3 (leBytes 4 h)
    { s with loader := s.loader ++ [{ op := .load c (1 - r.activePart) h false, begun := false }] }
  else s

/-! ## Deltas (R161-R165) -/

/-- A delta message in its fields. -/
structure Delta where
  ctx : Nat
  version : Nat
  newN : Nat
  newE : Nat
  nNodes : Nat
  nEdges : Nat
  base : Bytes
  nodes : List (Nat × Bytes × Bytes)
  edges : List (Nat × Bytes × Bytes)
  len : Nat
deriving DecidableEq, Repr, Inhabited

def parseDelta (bs : Bytes) : Delta :=
  let n := u bs 12 2
  let e := u bs 14 2
  let rec_ := fun (off sz : Nat) => (u bs off 4, slice bs (off + 4) 4, slice bs (off + 8) sz)
  { ctx := u bs 0 1, version := u bs 1 1, newN := u bs 4 4, newE := u bs 8 4, nNodes := n, nEdges := e,
    base := slice bs 16 16, nodes := (List.range n).map fun i => rec_ (32 + 72 * i) 64,
    edges := (List.range e).map fun i => rec_ (32 + 72 * n + 520 * i) 512, len := 32 + 72 * n + 520 * e + 64 }

/-- R161 and R162 hold of a delta of context c. DESIGN CHOICE (log 124): its CTX field names the context of the DELTA_IN that it is
written to. -/
def deltaForm (c : CtxId) (nSize eSize : Nat) (bs : Bytes) : Bool :=
  let d := parseDelta bs
  let recs := fun (l : List (Nat × Bytes × Bytes)) (cnt : Nat) =>
    (l.all fun r => allZero r.2.1 && decide (r.1 < cnt)) && decide ((l.map (·.1)).Nodup)
  d.ctx == c.val && d.version == 1 && u bs 2 2 == 0 && within 1 nSize d.newN && within 1 eSize d.newE &&
    decide (d.nNodes ≤ 1024) && decide (d.nEdges ≤ 1024) && decide (1 ≤ d.nNodes + d.nEdges) && bs.length == d.len &&
    recs d.nodes d.newN && recs d.edges d.newE

/-- Entries of a partition overlaid with records and cut to a count (R163). DESIGN CHOICE (log 124): at a number beyond the old count
that no record names, the resulting entry is what the table holds there. -/
def overlay (read : Nat → Bytes) (recs : List (Nat × Bytes × Bytes)) (count : Nat) : List Bytes :=
  (List.range count).map fun k => match recs.find? fun r => r.1 == k with
    | some r => r.2.2
    | none => read k

/-- The checks of a delta (R163, R167). -/
def deltaCheck (s : State) (c : CtxId) (bs : Bytes) : Verdict :=
  let r := (s.ctx c).rm
  let d := parseDelta bs
  let axes := match (s.ctx c).plan with
    | some p => p.axes
    | none => 12
  orElseV (failIf (!signedBy s.boot.ownerKey bs) 1 noEntry)
  (orElseV (failIf (!deltaForm c (rmNat s c 0x02) (rmNat s c 0x04) bs) 0x0B noEntry)
  (orElseV (failIf (!r.active || decide (d.base ≠ r.cur.chain)) 0x0A noEntry)
  (entriesCheck axes (overlay (nodeBytes s c r.activePart) d.nodes d.newN)
    (overlay (edgeBytes s c r.activePart) d.edges d.newE))))

/-- Deltas of a context that are accepted and not yet in effect (R162), one already copied and in effect from the next F among them. -/
def deltasDue (s : State) (c : CtxId) : Nat :=
  (s.loader.filter fun j => match j.op with
    | .delta d _ => d == c
    | _ => false).length + bit (s.ctx c).rm.nextDelta.isSome + bit (s.ctx c).rm.deltaHeld

/-- What a write of DELTA_IN does once every check of R562 has passed (R162): the abort code, 0 for success. -/
def deltaInApply (c : CtxId) (data : Bytes) (s : State) : State × Nat :=
  if (s.ctx c).rm.rmState = 2 ∨ 4 ≤ deltasDue s c then (s, 0x08000022)
  else ({ s with loader := s.loader ++ [{ op := .delta c data, begun := false }] }, 0)

/-! ## Loader commands (R160) -/

/-- The partition that a load takes when it begins: a preload the inactive one, another load that of R154. -/
def startPart (s : State) (c : CtxId) (selected : Bool) : Nat :=
  if selected then loadPart s c else 1 - (s.ctx c).rm.activePart

/-- A load begins: its partition is LOADING, and a finished load that waited there for a frame start is overwritten. -/
def beginLoad (s : State) (c : CtxId) (p h : Nat) : State :=
  s.modRm c fun r =>
    let r := { r.modPart p fun _ => { RmPart.empty with handle := h, st := 1 } with
      ready := if r.ready = some p then none else r.ready }
    if r.active && r.activePart == p then { r with active := false } else r

/-- The selected image is loaded in partition `p` and waits there for a frame start. -/
def Roadmap.holds (r : Roadmap) (p : Nat) : Bool :=
  r.ready == some p && r.selected != 0 && (r.parts[p]?.getD default).handle == r.selected

/-- LOADER_OPERATION_START: the oldest accepted operation begins. A preload of an image that has become active is dropped
(R155); a load does not begin where the selected image waits for its frame start (log 109); a delta waits until the
last one of its context is in effect (R163, R164). -/
def loaderStartEffect (s : State) : State :=
  match s.loader with
  | [] => s
  | j :: rest =>
    if j.begun then s
    else
      let go := fun (s : State) => { s with loader := { j with begun := true } :: rest }
      match j.op with
      | .load c _ h sel =>
        let r := (s.ctx c).rm
        let p := startPart s c sel
        if !sel && r.active && r.cur.handle == h then { s with loader := rest }
        else if r.holds p then s
        else beginLoad { s with loader := ⟨.load c p h sel, true⟩ :: rest } c p h
      | .delta c _ => if (s.ctx c).rm.nextDelta.isSome || (s.ctx c).rm.deltaHeld then s else go s
      | .audit _ => go s

def execLoaderOperationStart (s : State) : Out := .next (loaderStartEffect s)

/-- LOAD_COMPLETE (R156, R163, R165, R167): the validation and the signature check of the load that runs have ended. -/
def loadCompleteEffect (s : State) : State :=
  match s.loader with
  | ⟨.load c p h _, true⟩ :: rest =>
    let s := { s with loader := rest }
    match loadCheck s c h with
    | none =>
      let s := writeImage s c p ((goodImage s 2 h).getD [])
      s.modRm c fun r => { r with loadStatus := 0, ready := some p }
    | some v =>
      s.modRm c fun r =>
        let r := { r.modPart p fun _ => RmPart.empty with loadStatus := statusWord v, failed := r.failed ++ [h] }
        if r.selected == h then { r with reselect := true, selected := 0 } else r
  | _ => s

def execLoadComplete (s : State) : Out := .next (loadCompleteEffect s)

/-- DELTA_VALIDATION_COMPLETE (R163, R164, R167). -/
def deltaValidationEffect (s : State) : State :=
  match s.loader with
  | ⟨.delta c bs, true⟩ :: rest =>
    let s := { s with loader := rest }
    match deltaCheck s c bs with
    | none => s.modRm c fun r => { r with loadStatus := 0, nextDelta := some (bs, (s.ctx c).frameNo) }
    | some v => s.modRm c fun r => { r with loadStatus := statusWord v, deltaRefused := wrapInc 32 r.deltaRefused }
  | _ => s

def execDeltaValidationComplete (s : State) : Out := .next (deltaValidationEffect s)

/-- The partition that a delta names by its BASE (R163): the active one, or the one that was active when it was validated. -/
def deltaPart (r : Roadmap) (bs : Bytes) : Nat :=
  let base := (parseDelta bs).base
  let other := 1 - r.activePart
  if r.cur.chain ≠ base ∧ (r.parts[other]?.getD default).chain = base then other else r.activePart

/-- The records of a delta copied into its partition; counts and chain digest follow (R164, R165). -/
def copyDelta (s : State) (c : CtxId) (bs : Bytes) : State :=
  let d := parseDelta bs
  let p := deltaPart (s.ctx c).rm bs
  let m := d.nodes.foldl (fun m r => memWrite m (nodeAddr s (nodeFirst s c p + r.1)) r.2.2) s.store
  let m := d.edges.foldl (fun m r => memWrite m (edgeAddr s (edgeFirst s c p + r.1)) r.2.2) m
  State.modRm { s with store := m } c fun r =>
    { r.modPart p fun x => { x with
        nCount := d.newN, eCount := d.newE, chain := digest128 (x.chain ++ bs.take (bs.length - 64)) } with
      nextDelta := none, deltaApplied := wrapInc 32 r.deltaApplied }

/-- DELTA_COPY (R164): after the RELEASE of frame k and before the snapshot of the next frame. -/
def deltaCopyEffect (c : CtxId) (s : State) : State :=
  match (s.ctx c).rm.nextDelta with
  | none => s
  | some (bs, k) =>
    let open_ := match (s.ctx c).run with
      | none => true
      | some r => r.frame != k && !r.snapped
    -- at most one delta a frame: the next one waits until this one is in effect
    let held := (s.ctx c).run.isNone
    if open_ then
      recordRoadmap ((copyDelta s c bs).modRm c fun r => { r with deltaHeld := held }) c ((k + 1) % 2 ^ 48) 2 bs
    else s

def execDeltaCopy (c : CtxId) (s : State) : Out := .next (deltaCopyEffect c s)

/-- What a write of 1 to AUDIT does (R170). -/
def auditApply (c : CtxId) (s : State) : State :=
  let s := recordRoadmap s c (s.ctx c).frameNo 4 (leBytes 4 (if (s.ctx c).rm.active then (s.ctx c).rm.cur.handle else 0))
  State.modRm { s with loader := s.loader ++ [{ op := .audit c, begun := false }] } c fun r => { r with auditing := true }

/-- AUDIT_COMPLETE (R170). -/
def auditCompleteEffect (s : State) : State :=
  match s.loader with
  | ⟨.audit c, true⟩ :: rest =>
    let r := (s.ctx c).rm
    let p := r.activePart
    let bs := if r.active then
        memRead s.store (nodeAddr s (nodeFirst s c p)) (64 * r.cur.nCount) ++
          memRead s.store (edgeAddr s (edgeFirst s c p)) (512 * r.cur.eCount)
      else []
    let again := rest.any fun j => j.op == .audit c
    State.modRm { s with loader := rest } c fun r => { r with content := digest128 bs, auditing := again }
  | _ => s

def execAuditComplete (s : State) : Out := .next (auditCompleteEffect s)

/-! ## Context stop (R166) -/

/-- Every load and delta of the context that is not in effect is discarded; a partition that a discarded load had begun
to write becomes EMPTY. Where the image selected was still to load, selection is due again (log 102). -/
def discardLoads (s : State) (c : CtxId) : State :=
  let mine := fun (j : LoadJob) => match j.op with
    | .load d _ _ _ => d == c
    | .delta d _ => d == c
    | .audit _ => false
  let begun := s.loader.filterMap fun j => match j.op with
    | .load d p _ _ => if d == c && j.begun then some p else none
    | _ => none
  let parts := begun ++ (match (s.ctx c).rm.ready with
    | some p => [p]
    | none => [])
  let s := { s with loader := s.loader.filter fun j => !mine j }
  s.modRm c fun r =>
    let r := parts.foldl (fun r p =>
      let r := r.modPart p fun _ => RmPart.empty
      if r.activePart == p then { r with active := false, rmState := 0 } else r) r
    { r with nextDelta := none, ready := none, selected := 0, preload := [], deltaHeld := false, reselect := r.reselect || r.selected != 0
             rmState := if r.rmState = 2 then (if r.active then 1 else 0) else r.rmState }

end Sys2Proof.Machine
end

