-- ==== Sys2Proof/Machine/Search.lean ====
section
/-! DEFINITION. Start, goal and key; the priority queue; the expansion of one wave; the warm suffix (R172-R194). -/

namespace Sys2Proof.Machine

/-! ## Start, goal and key (R172-R175) -/

def startNode (s : State) (c : CtxId) : Nat := cNat s c 0x20
def startDelay (s : State) (c : CtxId) : Nat := cNat s c 0x21
def goalMode (s : State) (c : CtxId) : Nat := cNat s c 0x22
def goalNode (s : State) (c : CtxId) : Nat := cNat s c 0x23
def goalXyz (s : State) (c : CtxId) : V3 :=
  let b := forceVal s (0x2000 + c.val) 0x24
  ⟨si b 0 2, si b 2 2, si b 4 2⟩

/-- The squared distance of two points. -/
def V3.d2 (a b : V3) : Nat := ((a.x - b.x) ^ 2 + (a.y - b.y) ^ 2 + (a.z - b.z) ^ 2).toNat

/-- The goal test of a node (R173). -/
def goalTest (s : State) (c : CtxId) (k : Nat) : Bool :=
  match goalMode s c with
  | 1 => k == goalNode s c
  | 2 => decide ((s.node c k).tcp.d2 (goalXyz s c) ≤ cNat s c 0x25 ^ 2)
  | _ => false

/-- 2^-q as an FP32 number. -/
def scaleDown (q : Nat) : Num := ofDyadic fp32 1 (-(q : Int))

/-- A product whose weight is 0 is 0 (R175). -/
def weighted (w x : Num) : Num := if feq fp32 w (num 0) then num 0 else fmul fp32 w x

/-- The exponents QEXP of the active roadmap. -/
def qexpOf (s : State) (c : CtxId) : List Nat := ((s.activeHeader c).map (·.qexp)).getD []

/-- dgoal of a node (R175). -/
def dgoal (s : State) (c : CtxId) (axes : Nat) (k : Nat) : Num :=
  if goalMode s c = 1 then
    let q := (s.node c k).q
    let g := (s.node c (goalNode s c)).q
    let vm := ((s.ctx c).plan.map (·.vmax)).getD []
    let e := qexpOf s c
    let terms := (List.range axes).map fun a =>
      let d := ((q[a]?.getD 0) - (g[a]?.getD 0)).natAbs
      fdiv fp32 (fmul fp32 (fInt d) (scaleDown (e[a]?.getD 0))) (ofWord (vm[a]?.getD 0))
    match terms with
    | [] => num 0
    | t :: ts => ts.foldl (fmax fp32) t
  else
    let s2 := (s.node c k).tcp.d2 (goalXyz s c)
    fdiv fp32 (fmul fp32 (fsqrt fp32 (fInt s2)) (num 0x3983126F)) (num (cNat s c 0x28))

/-- The heuristic of an edge with a hint to a node (R175); of an unreached node the hint is taken as 0. -/
def heuristic (s : State) (c : CtxId) (axes : Nat) (hint : Option Nat) (k : Nat) : Num :=
  let hw := match hint with
    | some b => weighted (num (cNat s c 0x26)) (fconv bf16 fp32 (num b))
    | none => num 0
  fadd fp32 hw (weighted (num (cNat s c 0x27)) (dgoal s c axes k))

/-- g after an edge (R175). -/
def gAfter (g : Num) (duration : Nat) : Num := fadd fp32 g (fmul fp32 (fInt duration) fNeg6)

/-! ## The priority queue (R178-R182) -/

/-- The order in which entries pop (R179). -/
def PqEntry.before (a b : PqEntry) : Bool :=
  flt fp32 (ofWord a.key) (ofWord b.key) || (feq fp32 (ofWord a.key) (ofWord b.key) && decide (a.seq < b.seq))

/-- A push under the quota (R181). -/
def pqPush (quota : Nat) (e : PqEntry) (r : FrameRun) : FrameRun :=
  let r := { r with nextSeq := r.nextSeq + 1 }
  let q := insBy PqEntry.before e r.pq
  if r.pq.length < quota then { r with pq := q }
  else { r with pq := q.take r.pq.length, evicts := r.evicts + 1 }

def FrameRun.nodeSt (r : FrameRun) (k : Nat) : NodeSt := amGetD r.nodes k ⟨false, 0x7F800000, 0xFFFFFFFF⟩
def FrameRun.cand (r : FrameRun) (cidx : Nat) : Option Cand := r.cands.find? fun x => x.cidx == cidx
def Cand.pass (x : Cand) : Bool := x.flags.toNat.testBit 0
def Cand.goal (x : Cand) : Bool := x.flags.toNat.testBit 2
def noVia : Nat := 0xFFFFFFFF

/-! ## Waves (R183-R189) -/

/-- The edges of a popped node that give a candidate (R145, R185). -/
def eligible (s : State) (c : CtxId) (r : FrameRun) (n : NodeEnt) (depth : Nat) : List Nat :=
  if n.disabled || depth == 31 then []
  else ((List.range n.edgeCount).map (n.edgeFirst + ·)).filter fun e =>
    let x := s.edge c e
    !x.disabled && !(s.node c x.nodeB).disabled && !(r.nodeSt x.nodeB).closed

/-- The key of the candidate of an edge that follows g, with the flags that its arithmetic raises (R175, R359). -/
def candKey (s : State) (c : CtxId) (axes e : Nat) (g : Num) : Num :=
  let x := s.edge c e
  fadd fp32 g (heuristic s c axes (some x.hint) x.nodeB)

/-- g of the candidate of an edge, reached through `via` (R175). -/
def candG (s : State) (c : CtxId) (r : FrameRun) (e via : Nat) : Num :=
  gAfter (match r.cand via with
    | some v => ofWord v.g
    | none => num 0) (s.edge c e).duration

/-- The candidate of an edge, reached through `via` (R174-R176). -/
def newCand (s : State) (c : CtxId) (r : FrameRun) (cidx e via : Nat) : Cand :=
  let v := r.cand via
  let g := candG s c r e via
  let t := match v with
    | some v => v.tEnter + (s.edge c v.edge).duration
    | none => startDelay s c
  { cidx := cidx, edge := e, via := via, tEnter := t, g := w32 g,
    key := w32 (candKey s c r.axes e g), clear := 0,
    depth := (match v with
      | some v => v.depth
      | none => 0) + 1, flags := 0 }

/-- The pops of one wave (R184-R187), from the number popped and the next slot on. `bad` lists nodes that are unreadable
from both copies (R169). -/
def popWave (s : State) (c : CtxId) (bad : List Nat) (w : Nat) : Nat → Nat → Nat → FrameRun → FrameRun
  | 0, _, _, r => r
  | fuel + 1, popped, slot, r =>
    if r.nodesPerWave ≤ popped ∨ r.cut then r
    else match r.pq with
      | [] => r
      | e :: q =>
        let st := r.nodeSt e.node
        if st.closed then popWave s c bad w fuel popped slot { r with pq := q }
        else
          let dep := match r.cand st.via with
            | some v => v.depth
            | none => 0
          let es := if bad.contains e.node then [] else eligible s c r (s.node c e.node) dep
          if r.candMax < r.cands.length + es.length then { r with cut := true }
          else
            let new := es.zipIdx.map fun (k, i) => newCand s c r (w * 2 ^ 24 + slot + i) k st.via
            popWave s c bad w fuel (popped + 1) (slot + es.length)
              { r with pq := q, nodes := amPut r.nodes e.node { st with closed := true }, cands := r.cands ++ new }

/-- The candidates of a wave, in canonical order. -/
def FrameRun.waveCands (r : FrameRun) (w : Nat) : List Cand := r.cands.filter fun x => x.cidx / 2 ^ 24 == w

/-- The pushes at the end of a wave (R189). -/
def pushWave (s : State) (c : CtxId) (r : FrameRun) (w : Nat) : FrameRun :=
  (r.waveCands w).foldl (fun r x =>
    let k := (s.edge c x.edge).nodeB
    let st := r.nodeSt k
    if x.pass && !x.goal && !st.closed && f32fin x.key.toNat && flt fp32 (ofWord x.key) (ofWord st.bestKey) then
      pqPush (cNat s c 0x2C) ⟨k, x.key, r.nextSeq⟩
        { r with nodes := amPut r.nodes k { st with bestKey := x.key, via := x.cidx } }
    else r) r

/-- The flags that GROW's arithmetic raises for the candidates of a wave (R175, R359). -/
def growFlags (s : State) (c : CtxId) (r : FrameRun) (w : Nat) : Nat :=
  (r.waveCands w).foldl (fun f x => f ||| (candKey s c r.axes x.edge (candG s c r x.edge x.via)).fl) 0

/-- The tiles of a wave's candidates: 512 slots each, under the next sequence numbers (R188). -/
def FrameRun.tilesOf (r : FrameRun) (w : Nat) : List (Nat × List Nat) :=
  let xs := (r.waveCands w).map (·.cidx)
  (chunks 512 (xs.length / 512 + 1) xs).zipIdx.map fun (t, i) => (r.nextTile + i, t)

/-! ## The warm path (R191, R192) -/

/-- An edge of the warm suffix that keeps candidate 0 from existing. -/
def warmBad (s : State) (c : CtxId) (e : Nat) : Bool :=
  let p := (s.ctx c).rm.cur
  let x := s.edge c e
  decide (p.eCount ≤ e) || x.disabled || decide (p.nCount ≤ x.nodeA) || decide (p.nCount ≤ x.nodeB) ||
    (s.node c x.nodeA).disabled || (s.node c x.nodeB).disabled

/-- The edges of candidate 0; the empty list where no candidate 0 exists. -/
def warmSuffix (s : State) (c : CtxId) (warm : List Nat) : List Nat :=
  let suf := warm.dropWhile fun e => (s.edge c e).nodeA != startNode s c
  if suf.any (warmBad s c) then [] else suf

/-- The chain of candidate 0 through its first `n` edges: g and key (R175, R193). -/
def chainKey (s : State) (c : CtxId) (axes : Nat) (edges : List Nat) (n : Nat) : Word × Word :=
  let es := edges.take n
  let g := es.foldl (fun g e => gAfter g (s.edge c e).duration) (num 0)
  match es.getLast? with
  | some e => (w32 g, w32 (fadd fp32 g (heuristic s c axes (some (s.edge c e).hint) (s.edge c e).nodeB)))
  | none => (w32 g, w32 (heuristic s c axes none (startNode s c)))

/-- Candidate 0 (R176, R193). -/
def warmCand (s : State) (c : CtxId) (axes : Nat) (edges : List Nat) : Cand :=
  let (g, key) := chainKey s c axes edges edges.length
  { cidx := 0, edge := 0xFFFFFFFF, via := noVia, tEnter := startDelay s c, g := g, key := key, clear := 0,
    depth := edges.length, flags := 0 }

/-- The state of the search at a snapshot: the start node pushed, candidate 0 in place (R182, R188, R194). -/
def startSearch (s : State) (c : CtxId) (r : FrameRun) : FrameRun :=
  let suf := warmSuffix s c (s.ctx c).warm
  let k := startNode s c
  let h := w32 (heuristic s c r.axes none k)
  let r := { r with
    suffix := suf, pq := [], nextSeq := 0, nodes := [], wave := 0, cut := false, nextTile := 1
    cands := if suf.isEmpty then [] else [warmCand s c r.axes suf]
    tileSlots := [(0, if suf.isEmpty then [] else [0])] }
  pqPush (cNat s c 0x2C) ⟨k, h, 0⟩ { r with nodes := [(k, ⟨false, h, noVia⟩)] }

end Sys2Proof.Machine
end

