-- ==== Sys2Proof/Machine/Check.lean ====
section
/-! DEFINITION. Sphere queries and the two phases of CHECK (R195-R207, R213). -/

namespace Sys2Proof.Machine

/-- What a frame's queries read (R87, R88, R94): the snapshot's geometry and tree, the forecast cells (none: stale), A in µs
and the places whose entry is a world fault, by number. -/
structure View where
  g : Geom
  cr : Crown
  fc : Option (List (List Nat))
  a : Nat
  bad : List Nat
deriving DecidableEq, Repr, Inhabited

/-- The answer to a query (R198): clearance, and which of tree, box and slices lie below the threshold. -/
structure Ans where
  clear : Int
  tree : Bool
  box : Bool
  slice : Bool
deriving DecidableEq, Repr, Inhabited

/-- Two answers combined: the least clearance and the union of the flags. -/
def Ans.join (a b : Ans) : Ans := ⟨min a.clear b.clear, a.tree || b.tree, a.box || b.box, a.slice || b.slice⟩

/-- An SDF8 code decoded (R197): floor(v × 125 × 2^(EXP−5)). -/
def sdfDecode (v : Int) (e : Nat) : Int := (v * 125 * (2 ^ e : Nat)).fdiv 32

/-- The half-diagonal at a level (R195). -/
def halfDiag : Nat → Int
  | 0 => 35
  | 1 => 70
  | _ => 139

/-- One sphere queried against the tree, the box and the listed slices (R195-R198). -/
def View.query (v : View) (c : V3) (r : Nat) (slices : List Nat) (thresh : Int) : Ans :=
  if 65535 < r then ⟨-65536, true, true, true⟩
  else
    let u := c.sub v.g.lo
    let z := v.g.size
    let b := min (min (min u.x (z.x - u.x)) (min u.y (z.y - u.y))) (min u.z (z.z - u.z))
    let below := fun (t : Int) => decide (t - r < thresh)
    match v.g.lookup v.cr v.bad c with
    | none => ⟨b - r, false, below b, false⟩
    | some (x, e) =>
      let q := (v.g.leafAt v.cr c).1
      let lvl := ((q.path.find? fun p => v.bad.contains p.num).getD q).lvl
      let t := sdfDecode x e - halfDiag lvl
      let ss := slices.map fun k => sdfDecode (v.g.sliceCode (v.fc.map fun f => f[k]?.getD []) c) 3 - 139
      ⟨min (ss.foldl min t) b - r, below t, below b, ss.any below⟩

/-- The slices that a window [lo, hi) of µs over `m` meets, A included (R94, R199, R200). -/
def slicesOf (a m lo hi : Nat) : List Nat :=
  let l := a * m + lo
  let h := a * m + hi
  let bounds := [(0, 60000), (60000, 120000), (120000, 240000)]
  if h ≤ l then []
  else ((bounds.zipIdx.filter fun ((x, y), _) => decide (l < y * m) && decide (x * m < h)).map (·.2)) ++
    (if 240000 * m < h then [3] else [])

/-- What an engine does with a candidate (R214): every query, the queries up to the first that fails it, or none. -/
inductive Liberty where
  | exact
  | early
  | skip
deriving DecidableEq, Repr, Inhabited

/-- The outcome of CHECK of one edge, with the flags that the arithmetic of its narrow phase raised (R359, R363). -/
structure EdgeRes where
  ans : Ans
  narrow : Bool
  pass : Bool
  fl : Nat
deriving DecidableEq, Repr, Inhabited

/-- The broad phase (R144, R201): the edge entered at `t` µs. -/
def broad (v : View) (e : EdgeEnt) (t clearMin : Nat) : Ans :=
  let n := e.sphCount
  (e.spheres.zipIdx.map fun (x, j) =>
    v.query ⟨x.x, x.y, x.z⟩ x.r (slicesOf v.a n (t * n + j * e.duration) (t * n + (j + 1) * e.duration)) clearMin).foldl
    Ans.join ⟨2147483647, false, false, false⟩

/-- The pose of sample k of S − 1 steps, scaled (R203). -/
def sampleNums (axes : Nat) (qexp : List Nat) (e : EdgeEnt) (steps k : Nat) : List Num :=
  (List.range axes).map fun a =>
    let qa := e.qa[a]?.getD 0
    let qb := e.qb[a]?.getD 0
    let p := fadd fp32 (fInt qa) (fdiv fp32 (fmul fp32 (fInt (qb - qa)) (fInt k)) (fInt steps))
    fmul fp32 p (scaleDown (qexp[a]?.getD 0))

def samplePose (axes : Nat) (qexp : List Nat) (e : EdgeEnt) (steps k : Nat) : List Word :=
  (sampleNums axes qexp e steps k).map w32

/-- A placed centre in 0.25 mm (R203, R363). -/
def coordP (p : FPoint) : V3 := ⟨toCoord fp32 p.x.toNat, toCoord fp32 p.y.toNat, toCoord fp32 p.z.toNat⟩

/-- The spheres placed at a pose: body spheres, then the tool set (R203). -/
def placed (plan : PlanImage) (tool : List Sphere) (pose : List Word) : List (V3 × Nat) :=
  (Config.bodySpheres plan.kinModel pose).map (fun k => (coordP k.c, k.r)) ++
    tool.map fun t => (coordP (Config.placeInFlange plan.kinModel pose t), t.r)

/-- The flags that placed centres raise: INVALID for a NaN (R363). -/
def coordFlags (p : FPoint) : Nat := [p.x, p.y, p.z].foldl (fun f w => f ||| (coordNum fp32 (ofWord w)).2) 0

/-- The flags of a narrow phase: the poses' arithmetic and the conversions of the centres. Those of the kinematics themselves
are open (log 5). -/
def narrowFlags (plan : PlanImage) (qexp : List Nat) (tool : List Sphere) (e : EdgeEnt) : Nat :=
  let steps := max e.samples 2 - 1
  (List.range (steps + 1)).foldl (fun f k =>
    let q := sampleNums plan.axes qexp e steps k
    let pose := q.map w32
    let cs := (Config.bodySpheres plan.kinModel pose).map (·.c) ++ tool.map (Config.placeInFlange plan.kinModel pose)
    cs.foldl (fun f p => f ||| coordFlags p) (q.foldl (fun f x => f ||| x.fl) f)) 0

/-- The least p with 4p² ≥ m (R204). -/
def chordPad (m : Nat) : Nat :=
  let k := isqrt (m / 4)
  if m ≤ 4 * k * k then k else k + 1

/-- Answers combined in their order; with `early`, up to the first below CLEAR_MIN (R214). -/
def joinAns (early : Bool) (clearMin : Nat) (l : List Ans) : Ans :=
  let (kept, rest) := l.span fun a => !early || decide ((clearMin : Int) ≤ a.clear)
  (kept ++ rest.take 1).foldl Ans.join ⟨2147483647, false, false, false⟩

/-- The narrow phase (R203-R205), sample by sample and sphere by sphere; the order matters only to a RELAXED engine that stops
early (log 111). -/
def narrow (v : View) (plan : PlanImage) (qexp : List Nat) (tool : List Sphere) (e : EdgeEnt) (t clearMin : Nat)
    (early : Bool) : Ans :=
  let steps := max e.samples 2 - 1
  let ps := (List.range (steps + 1)).map fun k => placed plan tool (samplePose plan.axes qexp e steps k)
  let m := 2 * steps
  let at_ := fun (k i : Nat) => ((ps[k]?.getD [])[i]?.getD (⟨0, 0, 0⟩, 0)).1
  joinAns early clearMin <| ps.zipIdx.flatMap fun (l, k) => l.zipIdx.map fun ((c, r), i) =>
    let d := max (if 0 < k then c.d2 (at_ (k - 1) i) else 0) (if k < steps then c.d2 (at_ (k + 1) i) else 0)
    let lo := if k = 0 then 0 else (2 * k - 1) * e.duration
    let hi := min ((2 * k + 1) * e.duration) (m * e.duration)
    v.query c (r + chordPad d + plan.npPad) (slicesOf v.a m (t * m + lo) (t * m + hi)) clearMin

/-- CHECK of one edge (R202, R205, R213). What an engine that stops early has flagged is left to the free flags (log 5). -/
def checkEdge (v : View) (plan : PlanImage) (qexp : List Nat) (tool : List Sphere) (e : EdgeEnt) (t clearMin : Nat)
    (early : Bool) : EdgeRes :=
  let b := broad v e t clearMin
  if !e.force && decide ((clearMin : Int) ≤ b.clear) && decide ((e.npMargin : Int) ≤ b.clear) then ⟨b, false, true, 0⟩
  else
    let n := narrow v plan qexp tool e t clearMin early
    ⟨n, true, decide ((clearMin : Int) ≤ n.clear), if early then 0 else narrowFlags plan qexp tool e⟩

/-- The clearance of a candidate with an unreadable edge (R169). -/
def tableClear : Int := -2147483648

/-- The results of a candidate: edges checked, whether one was unreadable (R193), their number and the narrow phases. -/
structure CandRes where
  edges : List EdgeRes
  table : Bool
deriving DecidableEq, Repr, Inhabited

/-- CHECK along the edges of a candidate, each at its own entry time; it ends at an unreadable one (R169, R193), and with
`early` at the first that fails (R214). -/
def checkChain (s : State) (c : CtxId) (v : View) (plan : PlanImage) (qexp : List Nat) (tool : List Sphere)
    (unread : List Nat) (early : Bool) : Nat → List Nat → CandRes
  | _, [] => ⟨[], false⟩
  | t, e :: es =>
    if unread.contains e then ⟨[], true⟩
    else
      let x := s.edge c e
      let here := checkEdge v plan qexp tool x t (cNat s c 0x29) early
      if early && !here.pass then ⟨[here], false⟩
      else
        let r := checkChain s c v plan qexp tool unread early (t + x.duration) es
        ⟨here :: r.edges, r.table⟩

/-- CFLAGS and CLEAR of a candidate (R176, R193, R206, R207). -/
def candFlags (goal : Bool) (r : CandRes) : BitVec 16 × Int :=
  let a := (r.edges.map (·.ans)).foldl Ans.join ⟨2147483647, false, false, false⟩
  let pass := !r.table && r.edges.all (·.pass)
  (BitVec.ofNat 16 (bit pass + 2 * bit (r.edges.any (·.narrow)) + 4 * bit goal + 16 * bit a.tree + 32 * bit a.slice +
    64 * bit a.box + 128 * bit r.table), if r.table then tableClear else a.clear)

/-- The record of a candidate after CHECK by a sound engine. One that is skipped is ABANDONED, without PASS (R214). -/
def checkCand (s : State) (c : CtxId) (v : View) (plan : PlanImage) (qexp : List Nat) (r : FrameRun) (unread : List Nat)
    (l : Liberty) (x : Cand) : Cand :=
  if l = .skip then { x with flags := 0x200 } else
  let edges := if x.cidx = 0 then r.suffix else [x.edge]
  let res := checkChain s c v plan qexp r.tool unread (l == .early) x.tEnter edges
  let last := match edges.getLast? with
    | some e => (s.edge c e).nodeB
    | none => 0
  let goal := goalTest s c last && !(x.cidx == 0 && res.table)
  let (fl, cl) := candFlags goal res
  let (g, key) := if x.cidx = 0 && res.table then chainKey s c r.axes edges res.edges.length else (x.g, x.key)
  { x with flags := fl, clear := cl, g := g, key := key }

/-- The narrow phases behind a candidate's record: their number (R219) and the flags they raised. -/
def narrowOf (s : State) (c : CtxId) (v : View) (plan : PlanImage) (qexp : List Nat) (r : FrameRun)
    (unread : List Nat) (l : Liberty) (x : Cand) : Nat × Nat :=
  if l = .skip then (0, 0) else
  let edges := if x.cidx = 0 then r.suffix else [x.edge]
  let es := (checkChain s c v plan qexp r.tool unread (l == .early) x.tEnter edges).edges.filter (·.narrow)
  (es.length, es.foldl (fun f e => f ||| e.fl) 0)

end Sys2Proof.Machine
end

