-- ==== Sys2Proof/Machine/Score.lean ====
section
/-! DEFINITION. The feature vector, the cost network, the cost, rank keys, lists and merges (R220-R240). -/

namespace Sys2Proof.Machine

/-! ## Features (R223) -/

def us2s (n : Nat) : Num := fmul fp32 (fInt n) fNeg6
def fBool (b : Bool) : Num := if b then num 0x3F800000 else num 0

/-- The edge that the features of a candidate describe: its own, or the last of candidate 0's suffix. -/
def featEdge (r : FrameRun) (x : Cand) : Nat := if x.cidx = 0 then r.suffix.getLast?.getD 0 else x.edge

/-- The 64 features of a candidate in BF16. -/
def features (s : State) (c : CtxId) (r : FrameRun) (x : Cand) : List Num :=
  let e := s.edge c (featEdge r x)
  let qe := qexpOf s c
  let ax := List.range 12
  let pose := fun (a : Nat) => fmul fp32 (fInt (e.qb[a]?.getD 0)) (scaleDown (qe[a]?.getD 0))
  let rate := fun (a : Nat) =>
    fdiv fp32 (fmul fp32 (fInt ((e.qb[a]?.getD 0) - (e.qa[a]?.getD 0))) (scaleDown (qe[a]?.getD 0))) (us2s e.duration)
  let fl := x.flags.toNat
  let user := words (forceVal s (0x2000 + c.val) 0x48) 0 24
  let l : List Num :=
    [ofWord x.g, ofWord x.key, if goalMode s c = 0 then num 0 else dgoal s c r.axes e.nodeB, fconv bf16 fp32 (num e.hint),
     fmul fp32 (fInt x.clear) (num 0x3983126F), fInt x.depth, fBool (fl.testBit 2), fBool (fl.testBit 1),
     fBool (fl.testBit 5), fBool (fl.testBit 4), fBool (x.cidx == 0), us2s x.tEnter, us2s e.duration, us2s r.a,
     fInt (rmNat s c 0x07), num 0] ++
    ax.map (fun a => if a < r.axes then pose a else num 0) ++ ax.map (fun a => if a < r.axes then rate a else num 0) ++
    user.map ofWord
  l.map (fconv fp32 bf16)

/-! ## The cost network (R224, R225, R335) -/

/-- The array's pass over weights in FP8-E4M3 and activations in BF16 (R334, R335). -/
def arrayDot (ws : List Byte) (h : List Num) : Num :=
  (arrayPass .e4m3 .bf16 (ws.map fun w => num w.toNat) h).getD (num 0)

/-- A hidden layer. -/
def hidden (w : List (List Byte)) (sc b : List Word) (h : List Num) : List Num :=
  w.zipIdx.map fun (row, o) =>
    let y := ffma fp32 (ofWord (sc[o]?.getD 0)) (arrayDot row h) (ofWord (b[o]?.getD 0))
    fconv fp32 bf16 (if flt fp32 (num 0) y || isNan fp32 y.bits then y else ⟨0, y.fl⟩)

/-- The network's output. -/
def netOut (n : CostNet) (x : List Num) : Num :=
  let h := hidden n.w3 n.s3 n.b3 (hidden n.w2 n.s2 n.b2 (hidden n.w1 n.s1 n.b1 x))
  (n.v.zip h).foldl (fun acc (v, a) => ffma fp32 (ofWord v) (fconv bf16 fp32 a) acc) (ofWord n.bOut)

/-! ## The cost (R227, R228) -/

def nanCost : Word := 0x7FC00000

/-- The cost of a candidate with the flags its arithmetic raised (R227, R228). -/
def costNum (s : State) (c : CtxId) (r : FrameRun) (plan : PlanImage) (x : Cand) : Num :=
  let o := fun (sub : Nat) => num (cNat s c sub)
  let net := netOut plan.net (features s c r x)
  let clamp := o 0x45
  let n := if isNan fp32 net.bits then net else fmin fp32 (fmax fp32 net (fneg fp32 clamp)) clamp
  let p := ((cNat s c 0x42 : Int) - x.clear).toNat
  let t1 := weighted (o 0x41) (ofWord x.key)
  let t2 := weighted (o 0x43) (fmul fp32 (fInt p) (num 0x3983126F))
  let t3 := weighted (o 0x44) n
  let t4 := if x.goal then num 0 else o 0x46
  let t5 := if x.cidx = 0 then o 0x47 else num 0
  fsub fp32 (fadd fp32 (fadd fp32 (fadd fp32 t1 t2) t3) t4) t5

/-- A cost as it is written (R228). -/
def canonCost (n : Num) : Word :=
  if isNan fp32 n.bits then nanCost else if feq fp32 n (num 0) then 0 else w32 n

/-! ## Rank keys and lists (R230-R235) -/

def ordOf (b : Word) : Nat := if b.toNat.testBit 31 then (~~~b).toNat else b.toNat + 2 ^ 31
def rankKey (x : Word × Nat) : Nat := ordOf x.1 * 2 ^ 32 + x.2
def noKey : Nat := 2 ^ 64 - 1
def emptyList : RankList := ⟨[], noKey⟩

/-- The k best of some entries, and the key of the best one left out. -/
def bestOf (k : Nat) (xs : List (Word × Nat)) : RankList :=
  let l := sortBy (fun a b => decide (rankKey a < rankKey b)) xs
  ⟨l.take k, match l.drop k with
    | x :: _ => rankKey x
    | [] => noKey⟩

/-- The pairs of entries with one EDGE under different canonical indices: the higher index of each (R235). -/
def dupHigher (edgeOf : Nat → Nat) (xs : List (Word × Nat)) : List (Nat × Nat) :=
  xs.filterMap fun (_, i) =>
    if edgeOf i = 0xFFFFFFFF then none
    else (xs.find? fun y => decide (y.2 < i) && edgeOf y.2 == edgeOf i).map fun y => (i, y.2)

/-- A merge (R232, R235): the list, and the dropped entries, each with the entry kept. -/
def mergeLists (k : Nat) (edgeOf : Nat → Nat) (p q : RankList) : RankList × List (Nat × Nat) :=
  let union := p.entries ++ q.entries.filter fun x => !p.entries.contains x
  let dups := dupHigher edgeOf union
  let l := bestOf k (union.filter fun x => !(dups.any fun d => d.1 == x.2))
  (⟨l.entries, min l.overflow (min p.overflow q.overflow)⟩, dups)

/-- The tree level of the root with T tiles (R233). -/
def rootLevel (t : Nat) : Nat := ((List.range 20).find? fun l => decide (t ≤ 2 ^ l)).getD 20

/-- The list of a node of the tree, if it exists. -/
def FrameRun.listAt (r : FrameRun) (level node : Nat) : Option RankList :=
  match r.lists.find? fun x => x.1 == level && x.2.1 == node with
  | some x => some x.2.2
  | none => if level = 0 ∧ r.searchDone ∧ r.nextTile ≤ node then some emptyList else none

/-- TIE_AT_K (R238). -/
def tieAtK (k : Nat) (l : RankList) : Bool :=
  l.entries.length == k && l.overflow != noKey && decide (0 < k) &&
    l.overflow / 2 ^ 32 == ordOf ((l.entries[k - 1]?.map (·.1)).getD 0)

/-- An entry of the rank list as bytes (R239). -/
def rankBytes (x : Word × Nat) : Bytes := leBytes 4 x.1.toNat ++ leBytes 4 x.2
/-- The rank list of 1,024 entries (R237, R239). -/
def rankListBytes (l : List (Word × Nat)) : Bytes :=
  (l ++ List.replicate (1024 - l.length) (nanCost, 0xFFFFFFFF)).flatMap rankBytes

/-! ## Regions that host software may read (R176, R222, R239) -/

/-- Bytes written into a context's store region of a kind, where the configuration places one. -/
def storePut (s : State) (kind : Nat) (c : CtxId) (off : Nat) (bs : Bytes) : State :=
  match s.region kind c.val with
  | some r => { s with store := memWrite s.store (storeBase + r.offset + off) bs }
  | none => s

/-- A candidate record (R176). -/
def Cand.bytes (x : Cand) : Bytes :=
  leBytes 4 x.cidx ++ leBytes 4 x.edge ++ leBytes 4 x.via ++ leBytes 4 x.tEnter ++ leBytes 4 x.g.toNat ++
    leBytes 4 x.key.toNat ++ leBytes 4 (code 32 x.clear) ++ leBytes 1 x.depth ++ [0] ++ leBytes 2 x.flags.toNat

/-- The position of a candidate among the frame's records. -/
def FrameRun.posOf (r : FrameRun) (cidx : Nat) : Nat := r.cands.findIdx fun x => x.cidx == cidx

end Sys2Proof.Machine
end

