-- ==== Sys2Proof/Machine/Smooth.lean ====
section
/-! DEFINITION. The trajectory smoothing solver (R245-R279): allocation, the QP, factorisation and its cache, the iteration,
the output check, the fallback. Numbers carry the flags that their arithmetic raised. -/

namespace Sys2Proof.Machine

def at_ (l : List Num) (i : Nat) : Num := l[i]?.getD (num 0)
def at2 (l : List (List Num)) (i : Nat) : List Num := l[i]?.getD []
/-- A result that sets the overflow condition (R268). -/
def bad32 (n : Num) : Bool := isNan fp32 n.bits || isInf fp32 n.bits
def bad64 (n : Num) : Bool := isNan fp64 n.bits || isInf fp64 n.bits
def to64 (n : Num) : Num := fconv fp32 fp64 n
def to32 (n : Num) : Num := fconv fp64 fp32 n
def int64 (i : Int) : Num := ofInt fp64 i
/-- The flags behind some results (R359). -/
def orFlags (l : List Num) : Nat := l.foldl (fun a n => a ||| n.fl) 0

/-! ## Inputs (R245-R249) -/

/-- The edges of a candidate's path, first edge first (R241, R245). -/
def pathOf (r : FrameRun) : Nat → Nat → List Nat
  | 0, _ => []
  | fuel + 1, cidx =>
    if cidx = 0 then r.suffix
    else match r.cand cidx with
      | some x => (if x.via = noVia then [] else pathOf r fuel x.via) ++ [x.edge]
      | none => []

/-- What an attempt works on: the waypoints (by waypoint, then axis), durations, start time and the values in force. -/
structure SolveIn where
  axes : Nat
  way : List (List Num)
  durs : List Nat
  t0 : Nat
  vmax : List Num
  amax : List Num
  jmax : List Num
  corridor : List Num
  bvel : List Num
  bacc : List Num
  frac : Num
  wSmooth : Num
  wDev : Num
  rho : Num
  tol : Num
  hStep : Nat
  mMax : Nat
  iters : Nat
  forced : Bool
deriving DecidableEq, Repr

/-- The inputs of an attempt for a path (R245-R249, R279). -/
def solveIn (s : State) (c : CtxId) (plan : PlanImage) (path : List Nat) (t0 : Nat) : SolveIn :=
  let qe := qexpOf s c
  let es := path.map (s.edge c)
  let pose := fun (q : List Int) => (List.range plan.axes).map fun a =>
    fmul fp32 (fInt (q[a]?.getD 0)) (scaleDown (qe[a]?.getD 0))
  let o := fun (sub : Nat) => num (cNat s c sub)
  let arr := fun (sub : Nat) => (words (forceVal s (0x2000 + c.val) sub) 0 12).map ofWord
  let sc := o 0x68
  let sc2 := fmul fp32 sc sc
  let sc3 := fmul fp32 sc2 sc
  { axes := plan.axes
    way := (match es with
      | e :: _ => [pose e.qa]
      | [] => []) ++ es.map (fun e => pose e.qb)
    durs := es.map (·.duration), t0 := t0
    vmax := plan.vmax.map fun w => fmul fp32 sc (ofWord w)
    amax := plan.amax.map fun w => fmul fp32 sc2 (ofWord w)
    jmax := plan.jmax.map fun w => fmul fp32 sc3 (ofWord w)
    corridor := plan.corridor.map ofWord, bvel := arr 0x6E, bacc := arr 0x6F, frac := o 0x69, wSmooth := o 0x6A,
    wDev := o 0x6B, rho := o 0x6C, tol := o 0x6D, hStep := plan.hStep, mMax := plan.mMax, iters := cNat s c 0x60,
    forced := cNat s c 0x70 == 1 }

/-! ## Allocation (R250-R252) -/

/-- The chord of segment i on axis a, in FP64. -/
def SolveIn.chord (p : SolveIn) (i a : Nat) : Num :=
  fabs fp64 (fsub fp64 (to64 (at_ (at2 p.way (i + 1)) a)) (to64 (at_ (at2 p.way i) a)))

/-- The quotients of R250 for a segment, in µs. -/
def SolveIn.minTimes (p : SolveIn) (i : Nat) : List Num :=
  (List.range p.axes).map fun a =>
    fmul fp64 (fdiv fp64 (p.chord i a) (fmul fp64 (to64 p.frac) (to64 (at_ p.vmax a)))) (int64 1000000)

/-- T_i (R250). -/
def SolveIn.segTime (p : SolveIn) (i : Nat) : Nat :=
  let m := (p.minTimes i).foldl (fmax fp64) (num 0)
  max (p.durs[i]?.getD 0) ((ceilScaled fp64 m.bits 1).getD 0).toNat

/-- The interval counts at grid step h (R251). -/
def gridCounts (ts : List Nat) (h : Nat) : List Nat :=
  let ns := ts.map fun t => max (ceilDiv t h) 2
  let k := ns.sum
  if k < 8 then ns.dropLast ++ [ns.getLastD 0 + (8 - k)] else ns

/-- The grid found (R251): e, h and the counts. -/
def findGrid (p : SolveIn) (ts : List Nat) : Option (Nat × Nat × List Nat) :=
  ((List.range 9).map fun e => (e, p.hStep * 2 ^ e, gridCounts ts (p.hStep * 2 ^ e))).find? fun g =>
    decide (g.2.2.sum + 1 ≤ p.mMax)

/-- K_0 to K_N (R252). -/
def gridIdx (ns : List Nat) : List Nat := ns.foldl (fun l n => l ++ [l.getLastD 0 + n]) [0]

/-- The reference of an axis (R253). -/
def reference (p : SolveIn) (ns : List Nat) (a : Nat) : List Num :=
  (ns.zipIdx.flatMap fun (n, i) =>
    let q := at_ (at2 p.way i) a
    let q' := at_ (at2 p.way (i + 1)) a
    (List.range n).map fun (k : Nat) => fadd fp32 q (fmul fp32 (fsub fp32 q' q) (fdiv fp32 (fInt k) (fInt n)))) ++
  [at_ (at2 p.way ns.length) a]

/-! ## The rows of A (R254) -/

/-- The groups P, V, A, J as 0 to 3: the number of rows and the coefficients of a row, from its own sample on. -/
def rowCount (m g : Nat) : Nat := m - g
def coefs : Nat → List Int
  | 0 => [1]
  | 1 => [-1, 1]
  | 2 => [1, -2, 1]
  | _ => [-1, 3, -3, 1]
def coef (g k j : Nat) : Int := if j < k then 0 else (coefs g)[j - k]?.getD 0

/-- An equality row (R254). -/
def eqRow (m g k : Nat) : Bool := decide (g < 3) && (k == 0 || k + 1 == rowCount m g)

/-- The value of a row of A·x in FP32 (R254, R263). -/
def rowVal (x : List Num) (g k : Nat) : Num :=
  let f := fun (i : Nat) => at_ x (k + i)
  let three := fInt 3
  match g with
  | 0 => f 0
  | 1 => fsub fp32 (f 1) (f 0)
  | 2 => fadd fp32 (fsub fp32 (f 2) (fmul fp32 (fInt 2) (f 1))) (f 0)
  | _ => fsub fp32 (fadd fp32 (fsub fp32 (f 3) (fmul fp32 three (f 2))) (fmul fp32 three (f 1))) (f 0)

/-- A·x, by group and row. -/
def applyA (m : Nat) (x : List Num) : List (List Num) :=
  (List.range 4).map fun g => (List.range (rowCount m g)).map (rowVal x g)

/-- A value of each row by group and row. -/
def rows {α : Type} (m : Nat) (f : Nat → Nat → α) : List (List α) :=
  (List.range 4).map fun g => (List.range (rowCount m g)).map (f g)

/-- Row (g, k) of a table of rows. -/
def rowAt (t : List (List Num)) (g k : Nat) : Num := at_ (at2 t g) k

/-- The half-widths of the groups of an axis (R254, R265). -/
def halfWidths (p : SolveIn) (hs : Num) (a : Nat) : List Num :=
  let mul := fun (x : Num) => fmul fp32 x hs
  [at_ p.corridor a, mul (at_ p.vmax a), mul (mul (at_ p.amax a)), mul (mul (mul (at_ p.jmax a)))]

/-- The bounds of a row (R254). -/
def rowBounds (p : SolveIn) (hs : Num) (a m : Nat) (r : List Num) (g k : Nat) : Num × Num :=
  let hw := at_ (halfWidths p hs a) g
  let first := k == 0
  let eq := fun (x : Num) => (x, x)
  if eqRow m g k then
    match g with
    | 0 => eq (at_ r (if first then 0 else m - 1))
    | 1 => eq (if first then fmul fp32 (at_ p.bvel a) hs else num 0)
    | _ => eq (if first then fmul fp32 (fmul fp32 (at_ p.bacc a) hs) hs else num 0)
  else if g = 0 then (fsub fp32 (at_ r k) hw, fadd fp32 (at_ r k) hw)
  else (fneg fp32 hw, hw)

/-! ## K (R255, R256) -/

def sigma : Num := ofDyadic fp32 1 (-20)
def alpha : Num := num 0x3FCCCCCD
def oneMinusAlpha : Num := fsub fp32 (fInt 1) alpha
def rhoEq (p : SolveIn) : Num := fmul fp32 (fInt 1000) p.rho
def rhoRow (p : SolveIn) (m g k : Nat) : Num := if eqRow m g k then rhoEq p else p.rho

/-- The rows of a group that touch both samples i ≤ j, ascending. -/
def touching (m g i j : Nat) : List Nat :=
  (List.range (g + 1)).filterMap fun d =>
    -- rows j - g to j
    if j + d < g then none
    else
      let k := j + d - g
      if k < rowCount m g ∧ k ≤ i then some k else none

/-- The entry (j, i) of K, i ≤ j (R256). -/
def kEntry (p : SolveIn) (m j i : Nat) : Num :=
  let dj : Int := ((touching m 3 i j).map fun k => coef 3 k i * coef 3 k j).foldl (· + ·) 0
  let smooth := fmul fp64 (to64 p.wSmooth) (int64 dj)
  let start := if i = j then fadd fp64 (fadd fp64 (to64 p.wDev) (to64 sigma)) smooth else smooth
  (List.range 4).foldl (fun acc g =>
    (touching m g i j).foldl (fun acc k =>
      fadd fp64 acc (fmul fp64 (to64 (rhoRow p m g k)) (int64 (coef g k i * coef g k j)))) acc) start

/-- The lower band of K: row j lists the entries j − 3 to j that exist (R256). -/
def kRow (p : SolveIn) (m j : Nat) : List Num := (List.range (min j 3 + 1)).map fun d => kEntry p m j (j - min j 3 + d)

/-- The largest diagonal entry. -/
def maxDiag (k : List (List Num)) : Num := k.foldl (fun a row => fmax fp64 a (row.getLastD (num 0))) (num 0)

/-! ## Factorisation (R257-R260) -/

/-- The rows done so far: L (entries j − 3 to j − 1) and D; which pivots were replaced; whether a result of the factorisation is
an infinity or a NaN; the flags raised. -/
structure Fact where
  l : List (List Num)
  d : List Num
  fixed : List Bool
  bad : Bool
  fl : Nat
deriving DecidableEq, Repr

/-- L[j][i]. -/
def Fact.at (f : Fact) (j i : Nat) : Num := at_ (at2 f.l j) (i - (j - min j 3))

/-- One row (R257, R258). The pivot is judged before it is replaced: -∞ is an overflow too (R268). -/
def factRow (delta : Num) (f : Fact) (j : Nat) (krow : List Num) : Fact :=
  let lo := j - min j 3
  let row := (List.range (j - lo)).foldl (fun (row : List Num) t =>
    let i := lo + t
    let s := (List.range t).foldl (fun s u =>
      fsub fp64 s (fmul fp64 (fmul fp64 (at_ row u) (at_ f.d (lo + u))) (if i - min i 3 ≤ lo + u then f.at i (lo + u) else num 0)))
      (at_ krow t)
    row ++ [fdiv fp64 s (at_ f.d i)]) []
  let d := (List.range (j - lo)).foldl (fun d u =>
    fsub fp64 d (fmul fp64 (fmul fp64 (at_ row u) (at_ f.d (lo + u))) (at_ row u))) (krow.getLastD (num 0))
  let fix := flt fp64 d delta
  { l := f.l ++ [row], d := f.d ++ [if fix then delta else d], fixed := f.fixed ++ [fix]
    bad := f.bad || row.any bad64 || bad64 d, fl := f.fl ||| orFlags (d :: row) }

/-- Rows from `j` on, stopping after a row that overflows. -/
def factFrom (delta : Num) : Nat → List (List Num) → Fact → Fact
  | _, [], f => f
  | j, row :: rest, f =>
    let f := factRow delta f j row
    if f.bad then f else factFrom delta (j + 1) rest f

def toBits64 (l : List Num) : List (BitVec 64) := l.map fun n => BitVec.ofNat 64 n.bits
def ofBits64 (l : List (BitVec 64)) : List Num := l.map fun b => num b.toNat

/-- The rows before the first that differs from an earlier K of the same largest diagonal entry (R259). -/
def keptRows (was : Option FactBase) (k : List (List Num)) : Nat :=
  match was with
  | none => 0
  | some c =>
    if c.diag.toNat ≠ (maxDiag k).bits then 0
    else ((k.map toBits64).zip c.k).findIdx fun x => x.1 != x.2

/-- K of an attempt with m samples, as a later attempt compares with it (R256, R259). -/
def baseOf (k : List (List Num)) : FactBase := ⟨k.map toBits64, BitVec.ofNat 64 (maxDiag k).bits⟩

/-- The K of the attempt before, of which the number of samples is known, 0 for none: with the frozen weights that is all of K (R256). -/
def kBefore (p : SolveIn) (m : Nat) : Option FactBase :=
  if m = 0 then none else some (baseOf ((List.range m).map (kRow p m)))

/-! ## The iteration (R262, R263) -/

/-- Aᵀw at a sample, in FP64. -/
def aTw (m : Nat) (w : List (List Num)) (j : Nat) : Num :=
  let terms := (List.range 4).flatMap fun g => (touching m g j j).map fun k =>
    fmul fp64 (to64 (rowAt w g k)) (int64 (coef g k j))
  match terms with
  | [] => num 0
  | t :: ts => ts.foldl (fadd fp64) t

/-- The FP64 solve by forward substitution, division and back substitution. -/
def solve (f : Fact) (b : List Num) : List Num :=
  let m := b.length
  let y := (List.range m).foldl (fun (y : List Num) j =>
    let lo := j - min j 3
    y ++ [(List.range (j - lo)).foldl (fun s t => fsub fp64 s (fmul fp64 (f.at j (lo + t)) (at_ y (lo + t)))) (at_ b j)]) []
  let z := (List.range m).map fun j => fdiv fp64 (at_ y j) (at_ f.d j)
  (List.range m).reverse.foldl (fun (x : List Num) j =>
    -- x holds the samples after j
    let n := min 3 (m - 1 - j)
    (List.range n).foldl (fun s t => fsub fp64 s (fmul fp64 (f.at (j + 1 + t) j) (at_ x t))) (at_ z j) :: x) []

/-- The iterates of one axis. -/
structure Iter where
  x : List Num
  z : List (List Num)
  y : List (List Num)
deriving DecidableEq, Repr

/-- One iteration (R262), whether a result of it is an infinity or a NaN (R268), and its flags. -/
def iterate (p : SolveIn) (hs : Num) (a m : Nat) (f : Fact) (r : List Num) (t : Iter) : Iter × Bool × Nat :=
  let rho := rhoRow p m
  let w := rows m fun g k => fsub fp32 (fmul fp32 (rho g k) (rowAt t.z g k)) (rowAt t.y g k)
  let q := r.map fun v => fmul fp32 (fneg fp32 p.wDev) v
  let b := (List.range m).map fun j =>
    fadd fp64 (fsub fp64 (to64 (fmul fp32 sigma (at_ t.x j))) (to64 (at_ q j))) (aTw m w j)
  let v := solve f b
  let xt := v.map to32
  let zt := applyA m xt
  let mix := fun (n o : Num) => fadd fp32 (fmul fp32 alpha n) (fmul fp32 oneMinusAlpha o)
  let x := (List.range m).map fun j => mix (at_ xt j) (at_ t.x j)
  let zh := rows m fun g k => mix (rowAt zt g k) (rowAt t.z g k)
  let yr := rows m fun g k => fdiv fp32 (rowAt t.y g k) (rho g k)
  let zy := rows m fun g k => fadd fp32 (rowAt zh g k) (rowAt yr g k)
  let zn := rows m fun g k =>
    let (l, h) := rowBounds p hs a m r g k
    fmin fp32 (fmax fp32 (rowAt zy g k) l) h
  let y := rows m fun g k =>
    fadd fp32 (rowAt t.y g k) (fmul fp32 (rho g k) (fsub fp32 (rowAt zh g k) (rowAt zn g k)))
  let tabs := [w, zt, zh, yr, zy, zn, y]
  (⟨x, zn, y⟩, b.any bad64 || v.any bad64 || xt.any bad32 || x.any bad32 || tabs.any fun l => l.any fun g => g.any bad32,
    orFlags (b ++ v ++ xt ++ x ++ (tabs.flatMap fun l => l.flatten)))

/-- Every axis iterated, all axes one iteration at a time, up to `n`; the count run, whether it overflowed, and the flags. -/
def iterateAll (p : SolveIn) (hs : Num) (m : Nat) (f : Fact) (rs : List (List Num)) :
    Nat → Nat → Nat → List Iter → List Iter × Nat × Bool × Nat
  | 0, done, fl, ts => (ts, done, false, fl)
  | n + 1, done, fl, ts =>
    let out := (ts.zip rs).zipIdx.map fun ((t, r), a) => iterate p hs a m f r t
    let fl := out.foldl (fun x t => x ||| t.2.2) fl
    if out.any (·.2.1) then (out.map (·.1), done + 1, true, fl)
    else iterateAll p hs m f rs n (done + 1) fl (out.map (·.1))

/-! ## The output check (R265) -/

/-- An axis after its end points are set: whether a row is out of its bounds, whether a result overflowed, and the largest
ratio over groups V, A and J (R278), with the flags of the whole check. -/
def checkAxis (p : SolveIn) (hs : Num) (a m : Nat) (r x : List Num) : Bool × Bool × Num :=
  let hw := halfWidths p hs a
  let tab := rows m fun g k =>
    let v := rowVal x g k
    let (l, h) := rowBounds p hs a m r g k
    let e := fmul fp32 p.tol (at_ hw g)
    let lo := fsub fp32 l e
    let hi := fadd fp32 h e
    let ratio := if g = 0 ∨ eqRow m g k then num 0 else fdiv fp32 (fabs fp32 v) (at_ hw g)
    (flt fp32 v lo || flt fp32 hi v, bad32 v || bad32 lo || bad32 hi || bad32 ratio,
      { ratio with fl := orFlags [v, lo, hi, ratio] })
  let flat := tab.flatten
  (flat.any (·.1), flat.any (·.2.1), flat.foldl (fun m t => fmax fp32 m t.2.2) (num 0))

/-! ## The fallback (R269) -/

/-- V_s, A_s and the unrounded T of a fallback segment; none where its chord is zero (T = 0). -/
def SolveIn.limits (p : SolveIn) (i : Nat) : Option (Num × Num × Num) :=
  let axs := (List.range p.axes).filter fun a => !feq fp64 (p.chord i a) (num 0)
  let lim := fun (l : List Num) => (axs.map fun a => fdiv fp64 (to64 (at_ l a)) (p.chord i a))
  let least := fun (l : List Num) => match l with
    | [] => num 0
    | t :: ts => ts.foldl (fmin fp64) t
  if axs.isEmpty then none
  else
    let v := least (lim p.vmax)
    let ac := least (lim p.amax)
    let vv := fmul fp64 v v
    let t := if fle fp64 vv ac then fadd fp64 (fdiv fp64 (int64 1) v) (fdiv fp64 v ac)
      else fdiv fp64 (int64 2) (fsqrt fp64 ac)
    some (v, ac, { t with fl := t.fl ||| vv.fl })

/-- The rounded time of a fallback segment, in µs. -/
def SolveIn.fallTime (p : SolveIn) (i : Nat) : Nat :=
  match p.limits i with
  | some (_, _, t) => ((ceilScaled fp64 t.bits 1000000).getD 0).toNat
  | none => 0

/-- The flags of the fallback's FP64 times. -/
def SolveIn.fallFlags (p : SolveIn) : Nat :=
  orFlags ((List.range (p.way.length - 1)).filterMap fun i => (p.limits i).map fun x => x.2.2)

/-- The times of the fallback's waypoints. -/
def SolveIn.fallTimes (p : SolveIn) : List Nat :=
  (List.range (p.way.length - 1)).foldl (fun l i => l ++ [l.getLastD 0 + p.fallTime i]) [p.t0]

/-! ## An attempt -/

/-- The bounds of every row of an axis (R254). -/
def axisBounds (p : SolveIn) (hs : Num) (m a : Nat) (r : List Num) : List Num :=
  (rows m fun g k => rowBounds p hs a m r g k).flatten.flatMap fun b => [b.1, b.2]

/-- What a committing attempt does to the cache (R261). -/
inductive CacheAct where
  | keep
  | invalidate
  | write (c : SolverCache)
deriving DecidableEq, Repr

/-- The outcome of an attempt. -/
structure Attempt where
  block : TrajBlock
  sum : SolverSum
  act : CacheAct
  fl : Nat
deriving DecidableEq, Repr

def noBlock (axes t0 cidx : Nat) : TrajBlock :=
  { kind := 2, axes := axes, t0 := t0, h := 0, cidx := cidx, kidx := [], points := [] }

/-- The block of KIND FALLBACK or NONE for a reason, with the summary so far (R268-R270). -/
def fallBack (p : SolveIn) (cidx reason : Nat) (sum : SolverSum) (act : CacheAct) (fl : Nat) : Attempt :=
  let ts := p.fallTimes
  let fl := fl ||| p.fallFlags
  let last := ts.getLastD 0
  if last > 0xFFFFFFFF then ⟨noBlock p.axes p.t0 cidx, { sum with kind := 2, reason := 6, tEnd := 0 }, act, fl⟩
  else
    let moving := ((p.bvel ++ p.bacc).zipIdx.filter fun (_, i) => decide (i % 12 < p.axes)).any fun (v, _) =>
      !feq fp32 v (num 0)
    ⟨{ kind := 1, axes := p.axes, t0 := p.t0, h := 0, cidx := cidx, kidx := [],
       points := (ts.zip p.way).map fun (t, w) => (t, w.map w32) },
     { sum with kind := 1, reason := reason, tEnd := last, startJump := bit moving }, act, fl⟩

/-- The samples of the grid that an attempt factorises on; 0 where it comes to no factorisation (R251, R268). -/
def SolveIn.samples (p : SolveIn) : Nat :=
  let n := p.durs.length
  let scaled := p.vmax.take p.axes ++ p.amax.take p.axes ++ p.jmax.take p.axes
  if p.forced || n == 0 || ((List.range n).flatMap p.minTimes).any bad64 || scaled.any bad32 then 0
  else match findGrid p ((List.range n).map p.segTime) with
    | none => 0
    | some (_, _, ns) =>
      if (((List.range p.axes).map (reference p ns)).flatten).any bad32 then 0 else ns.sum + 1

/-- An attempt on a readable path (R245-R270). REFACT_ROWS counts the rows that differ from the K of the attempt before, which had
`was` samples, whether or not a cache still holds its factor; PIVOT_FIX counts the replaced pivots of the factor, kept rows
among them (log 106). -/
def attempt (p : SolveIn) (cidx : Nat) (cache : Option SolverCache) (was : Nat) : Attempt :=
  let sum0 : SolverSum := { (default : SolverSum) with }
  if p.forced then fallBack p cidx 4 sum0 .keep 0
  else
    let n := p.durs.length
    let mins := (List.range n).flatMap p.minTimes
    let scaled := p.vmax.take p.axes ++ p.amax.take p.axes ++ p.jmax.take p.axes
    let fl := orFlags (mins ++ scaled)
    if mins.any bad64 || scaled.any bad32 then fallBack p cidx 1 sum0 .keep fl
    else
      let ts := (List.range n).map p.segTime
      match findGrid p ts with
      | none => fallBack p cidx 3 sum0 .keep fl
      | some (e, h, ns) =>
        let m := ns.sum + 1
        let sum1 := { sum0 with exp := e, m := m, h := h }
        let hs := fmul fp32 (fInt h) fNeg6
        let axs := List.range p.axes
        let rs := axs.map (reference p ns)
        let fl := fl ||| orFlags rs.flatten
        if rs.flatten.any bad32 then fallBack p cidx 1 sum1 .keep fl
        else
          let k := (List.range m).map (kRow p m)
          let bounds := rhoEq p :: (axs.flatMap (halfWidths p hs) ++ (rs.zipIdx.flatMap fun (r, a) => axisBounds p hs m a r))
          let fl := fl ||| orFlags (k.flatten ++ bounds)
          if k.flatten.any bad64 || bounds.any bad32 then fallBack p cidx 1 sum1 .invalidate fl
          else
            let diag := maxDiag k
            let delta := fmul fp64 diag (ofDyadic fp64 1 (-40))
            let base := keptRows (kBefore p was) k
            let kept := keptRows (cache.map (·.base)) k
            let f0 : Fact := match cache with
              | some c => ⟨(c.l.take kept).map ofBits64, ofBits64 (c.d.take kept), c.fixed.take kept, false, 0⟩
              | none => ⟨[], [], [], false, 0⟩
            let f := factFrom delta kept (k.drop kept) f0
            let sum2 := { sum1 with refactRows := f.d.length - base, pivotFix := (f.fixed.filter id).length }
            let fl := fl ||| f.fl
            let act := if f.d.length = m then .write
                { base := baseOf k, l := f.l.map toBits64, d := toBits64 f.d, fixed := f.fixed }
              else .invalidate
            if f.bad then fallBack p cidx 1 sum2 act fl
            else
              let start := rs.map fun r => (⟨r, applyA m r, rows m fun _ _ => num 0⟩ : Iter)
              let over0 := start.any fun t => t.z.flatten.any bad32
              let fl := fl ||| orFlags (start.flatMap fun t => t.z.flatten)
              let (its, ran, hot, fl) := if over0 then (start, 0, true, fl) else iterateAll p hs m f rs p.iters 0 fl start
              let prims := its.flatMap fun t =>
                ((applyA m t.x).flatten.zip t.z.flatten).map fun (u, z) => fabs fp32 (fsub fp32 u z)
              let prim := prims.foldl (fmax fp32) (num 0)
              let sum3 := { sum2 with iter := ran }
              if hot then fallBack p cidx 1 sum3 act fl
              else
                let xs := (its.zip rs).map fun (t, r) => ((t.x.set 0 (at_ r 0)).set (m - 1) (at_ r (m - 1)))
                let cs := ((xs.zip rs).zipIdx).map fun ((x, r), a) => checkAxis p hs a m r x
                let ratio := cs.foldl (fun v t => fmax fp32 v t.2.2) (num 0)
                let fl := fl ||| orFlags [ratio, prim]
                let sum4 := { sum3 with maxRatio := w32 ratio, primRes := w32 prim }
                if (cs.any (·.2.1)) || bad32 prim then fallBack p cidx 1 sum4 act fl
                else if cs.any (·.1) then fallBack p cidx 2 sum4 act fl
                else
                  let ki := gridIdx ns
                  ⟨{ kind := 0, axes := p.axes, t0 := p.t0, h := h, cidx := cidx, kidx := ki
                     points := (List.range m).map fun j => (p.t0 + j * h, xs.map fun x => w32 (at_ x j)) },
                   { sum4 with kind := 0, reason := 0, tEnd := p.t0 + ns.sum * h }, act, fl⟩

/-- The trajectory block as bytes (R277). -/
def TrajBlock.bytes (b : TrajBlock) : Bytes :=
  let kidx := if b.kind = 0 then b.kidx else []
  leBytes 1 b.kind ++ leBytes 1 b.axes ++ leBytes 2 b.points.length ++ leBytes 4 b.t0 ++ leBytes 4 b.h ++
    leBytes 4 b.cidx ++ padTo 32 ((kidx.map fun k => BitVec.ofNat 8 k) ++ List.replicate (32 - kidx.length) 0xFF) ++
    zeros 16 ++ b.points.flatMap fun (t, q) =>
      (if b.kind = 1 then leBytes 4 t else []) ++ q.flatMap fun w => leBytes 4 w.toNat

/-- The solver summary as bytes (R278); KIND 0xFF where SMOOTH did not run. -/
def SolverSum.bytes (x : SolverSum) : Bytes :=
  leBytes 1 x.kind ++ leBytes 1 x.reason ++ leBytes 1 x.iter ++ leBytes 1 x.exp ++ leBytes 2 x.m ++
    leBytes 2 x.refactRows ++ leBytes 4 x.h ++ leBytes 4 x.tEnd ++ leBytes 2 (min 65535 x.pivotFix) ++
    leBytes 1 x.startJump ++ leBytes 1 x.attempts ++ leBytes 4 x.maxRatio.toNat ++ leBytes 4 x.primRes.toNat ++ zeros 4

/-- The summary of a frame in which SMOOTH did not run (R278). -/
def noSum : SolverSum := { (default : SolverSum) with kind := 0xFF }

end Sys2Proof.Machine
end

