-- ==== Sys2Proof/Machine/Flags.lean ====
section
/-! DEFINITION. The flag words: FLAGS of a result record (R312), RFLAGS of a FRAME entry (R429), the sticky floating-point
flags of an engine (R359), the NO_PATH statuses (R317). -/

namespace Sys2Proof.Machine

/-- A status that R317 lists as NO_PATH. -/
def noPathStatus (st : Nat) : Bool :=
  (0x0201 ≤ st && st ≤ 0x0204) || (0x0301 ≤ st && st ≤ 0x0305) || st == 0x0401 || st == 0x0501

/-- A status released with VALID = 0 (R317). -/
def invalidStatus (st : Nat) : Bool := st == 0x0601 || st == 0x0602

/-- The candidate that a frame releases: of a passed attempt, that of its block. -/
def FrameRun.released (r : FrameRun) : Option (Nat × TrajBlock × Cand) :=
  match r.ready, r.block with
  | some (.passed k), some b => (r.cand b.cidx).map fun x => (k, b, x)
  | _, _ => none

/-- FLAGS of a frame that is released with VALID = 1 (R312). -/
def flagsValid (r : FrameRun) (status : Nat) : Nat :=
  let rel := r.released
  let kind1 := (rel.map fun t => t.2.1.kind == 1).getD false
  let goal := (rel.map fun t => t.2.2.goal).getD false
  let warm := (rel.map fun t => t.2.2.cidx == 0).getD false
  bit r.tie + 2 * bit kind1 + 4 * bit r.throttled + 8 * bit (noPathStatus status) +
    16 * bit (decide (1 < r.reasons.length)) + 32 * bit r.reduced + 64 * bit goal + 128 * bit warm +
    256 * r.sum.startJump + 512 * bit r.stale + 1024 * bit (r.reasons.contains 2) + 2048 * bit (r.reasons.contains 3)

/-- FLAGS of a record of R304: THROTTLED and REDUCED_COVERAGE alone. -/
def flagsInvalid (r : FrameRun) : Nat := 4 * bit r.throttled + 32 * bit r.reduced

/-- RFLAGS (R429). -/
def rflags (r : FrameRun) (valid : Bool) : Nat :=
  bit valid + 2 * bit r.faulted + 4 * bit r.relaxed + 8 * bit r.throttled + 16 * bit r.reduced

/-- PE_FPSTAT after an operation raised flags (R359). -/
def fpSticky (old : BitVec 5) (fl : Nat) : BitVec 5 := old ||| BitVec.ofNat 5 fl

end Sys2Proof.Machine
end

