-- ==== Sys2Proof/Machine/Verify.lean ====
section
/-! DEFINITION. The Verifier's arithmetic: capsules against the bitmap and the forecast planes (R282, R285-R289), the stop
trajectory (R290, R291) and the confirmation test (R296). -/

namespace Sys2Proof.Machine

/-! ## Planes (R282, R287) -/

/-- What an attempt is tested against: a publication's geometry and tree, the forecast cells (none: stale), A_v in µs, and
the bitmap blocks with an uncorrectable error (R283). -/
structure VView where
  g : Geom
  cr : Crown
  fc : Option (List (List Nat))
  a : Int
  bad : List Nat
deriving DecidableEq, Repr, Inhabited

/-- The slices that a window [lo, hi) of µs over `m`, shifted by A_v, meets; T below 60 ms selects the first (R94, R287). -/
def vSlices (a : Int) (m lo hi : Nat) : List Nat :=
  let l := a * m + lo
  let h := a * m + hi
  if h ≤ l then []
  else
    (if l < 60000 * m then [0] else []) ++
      (if l < 120000 * m ∧ 60000 * m < h then [1] else []) ++
      (if l < 240000 * m ∧ 120000 * m < h then [2] else []) ++ (if 240000 * m < h then [3] else [])

/-- The number of the 8 × 8 × 8 block of bitmap cell k (R282). -/
def Geom.block (g : Geom) (k : V3) : Nat :=
  let b := k.cut 8
  let bx := ceilDiv (4 * g.sizeX) 8
  let by_ := ceilDiv (4 * g.sizeY) 8
  (b.x + bx * b.y + bx * by_ * b.z).toNat

/-- Bitmap cell k reads as set: beyond the box, in a block with an error, or occupied (R123, R282, R283). -/
def VView.bmpSet (v : VView) (k : V3) : Bool :=
  !v.g.inside (v.g.lo.add (k.scale 80)) || v.bad.contains (v.g.block k) || v.g.bmp v.cr k

/-- Forecast cell k is set in one of some slices (R93, R96, R282). -/
def VView.fcSet (v : VView) (slices : List Nat) (k : V3) : Bool :=
  match v.g.dynCell (v.g.dynLoP.add ((k.scale 160).shift 80)) with
  | none => false
  | some i => match v.fc with
    | none => true
    | some f => slices.any fun j => (f[j]?.getD []).contains i

/-- The cells of a grid whose centres lie in the box [lo − r, hi + r]. -/
def cellsWithin (base : V3) (step : Int) (lo hi : V3) (r : Int) : List V3 :=
  let span := fun (b l h : Int) =>
    let c0 := -((b + step / 2 - (l - r)).fdiv step)
    let c1 := (h + r - (b + step / 2)).fdiv step
    (List.range (c1 - c0 + 1).toNat).map fun (n : Nat) => c0 + n
  let ys := span base.y lo.y hi.y
  let xs := span base.x lo.x hi.x
  (span base.z lo.z hi.z).flatMap fun z => ys.flatMap fun y => xs.map fun x => ⟨x, y, z⟩

def V3.min (a b : V3) : V3 := ⟨Min.min a.x b.x, Min.min a.y b.y, Min.min a.z b.z⟩
def V3.max (a b : V3) : V3 := ⟨Max.max a.x b.x, Max.max a.y b.y, Max.max a.z b.z⟩
def V3.dot (a b : V3) : Int := a.x * b.x + a.y * b.y + a.z * b.z

/-- The point p lies within `r` of the segment ab, exactly (R286). -/
def nearSegment (a b p : V3) (r : Nat) : Bool :=
  let d := b.sub a
  let w := p.sub a
  let dot := w.dot d
  let l := d.dot d
  let rr : Int := (r : Int) * r
  if dot ≤ 0 then decide (w.dot w ≤ rr)
  else if l ≤ dot then decide ((p.d2 b : Int) ≤ rr)
  else decide (w.dot w * l - dot * dot ≤ rr * l)

/-- A capsule meets a set cell of the bitmap or of the selected slices (R286, R287). -/
def VView.meets (v : VView) (a b : V3) (r : Nat) (slices : List Nat) : Bool :=
  let lo := a.min b
  let hi := a.max b
  ((cellsWithin v.g.lo 80 lo hi (r + 70 : Nat)).any fun k =>
      nearSegment a b ((v.g.lo.add (k.scale 80)).shift 40) (r + 70) && v.bmpSet k) ||
    (!slices.isEmpty && (cellsWithin v.g.dynLoP 160 lo hi (r + 139 : Nat)).any fun k =>
      nearSegment a b ((v.g.dynLoP.add (k.scale 160)).shift 80) (r + 139) && v.fcSet slices k)

/-- A sphere lies inside the box: each coordinate ± r within the faces (R289). -/
def VView.boxed (v : VView) (p : V3) (r : Nat) : Bool :=
  let u := p.sub v.g.lo
  let z := v.g.size
  (u.all fun a => decide ((r : Int) ≤ a)) && decide (u.x + r ≤ z.x) && decide (u.y + r ≤ z.y) && decide (u.z + r ≤ z.z)

/-! ## Traces (R285, R288, R291) -/

/-- The Verifier's spheres at a pose: body spheres, then the tool set (R281, R285). -/
def vPlaced (plan : PlanImage) (tool : List Sphere) (pose : List Word) : List (V3 × Nat) :=
  (Config.vfyBodySpheres plan.kinModel pose).map (fun k => (coordP k.c, k.r)) ++
    tool.map fun t => (coordP (Config.vfyPlaceInFlange plan.kinModel pose t), t.r)

/-- Two consecutive poses and the window [lo, hi) of µs over `m` of the capsules between them. -/
structure Leg where
  a : List Word
  b : List Word
  lo : Nat
  hi : Nat
  m : Nat
deriving DecidableEq, Repr

/-- Pose j of n equal joint-space steps (R285). -/
def stepPose (a b : List Word) (n j : Nat) : List Word :=
  if j = 0 then a else if j = n then b
  else (a.zip b).map fun (x, y) =>
    w32 (fadd fp32 (ofWord x) (fdiv fp32 (fmul fp32 (fsub fp32 (ofWord y) (ofWord x)) (fInt j)) (fInt n)))

/-- The n legs from a to b; leg j has the window that `w` gives. -/
def legs (a b : List Word) (n : Nat) (w : Nat → Nat × Nat × Nat) : List Leg :=
  (List.range n).map fun j =>
    let (lo, hi, m) := w j
    ⟨stepPose a b n j, stepPose a b n (j + 1), lo, hi, m⟩

/-- Rest at a pose over [t, t + V_HOLD) (R288). -/
def restLeg (x : List Word) (t hold : Nat) : Leg := ⟨x, x, t, t + hold, 1⟩

/-- The legs of a trajectory (R285, R288). -/
def mainLegs (plan : PlanImage) (hold : Nat) (b : TrajBlock) : List Leg :=
  let q := fun (i : Nat) => (b.points[i]?.getD (0, [])).2
  let t := fun (i : Nat) => (b.points[i]?.getD (0, [])).1
  let n := b.points.length - 1
  let v := plan.vSub
  ((List.range n).flatMap fun k =>
    if b.kind = 0 then
      legs (q k) (q (k + 1)) v fun j =>
        ((b.t0 + k * b.h) * v + j * b.h, (b.t0 + k * b.h) * v + (j + 1) * b.h, v)
    else
      legs (q k) (q (k + 1)) (v * max 1 (ceilDiv (t (k + 1) - t k) plan.hStep)) fun _ => (t k, t (k + 1), 1)) ++
    [restLeg (q n) (t n) hold]

/-- One trajectory tested: whether it passes, and the capsules that it has (R287, R289). -/
def VView.test (v : VView) (plan : PlanImage) (tool : List Sphere) (ls : List Leg) : Bool × Nat :=
  ls.foldl (fun (ok, n) l =>
    let ps := (vPlaced plan tool l.a).zip (vPlaced plan tool l.b)
    let ss := vSlices v.a l.m l.lo l.hi
    (ok && ps.all fun ((a, r), (b, _)) =>
      let r := r + plan.vPad
      v.boxed a r && v.boxed b r && !v.meets a b r ss, n + ps.length)) (true, 0)

/-! ## The stop trajectory (R290) -/

/-- FP64 constant 10⁻⁶. -/
def micro : Num := fdiv fp64 (int64 1) (int64 1000000)

/-- Path parameter and rate of a fallback segment, `tau` seconds after its start (R269; log 32). -/
def profile (v ac t tau : Num) : Num × Num :=
  let half := ofDyadic fp64 1 (-1)
  let ta := if fle fp64 (fmul fp64 v v) ac then fdiv fp64 v ac else fmul fp64 half t
  if fle fp64 t tau then (int64 1, num 0)
  else if flt fp64 tau ta then (fmul fp64 (fmul fp64 (fmul fp64 half ac) tau) tau, fmul fp64 ac tau)
  else if flt fp64 tau (fsub fp64 t ta) then
    (fadd fp64 (fmul fp64 (fmul fp64 half v) ta) (fmul fp64 v (fsub fp64 tau ta)), v)
  else
    let d := fsub fp64 t tau
    (fsub fp64 (int64 1) (fmul fp64 (fmul fp64 (fmul fp64 half ac) d) d), fmul fp64 ac d)

/-- The pose at a time before T_END, and the velocity in units per second (R266, R269, R290). -/
def stateAt (p : SolveIn) (b : TrajBlock) (ts : Nat) : List Word × List Num :=
  let q := fun (i : Nat) => (b.points[i]?.getD (0, [])).2
  let t := fun (i : Nat) => (b.points[i]?.getD (0, [])).1
  let rest := fun (i : Nat) => (q i, (q i).map fun _ => num 0)
  let dif := fun (x y : Word) => fsub fp64 (to64 (ofWord y)) (to64 (ofWord x))
  if ts < b.t0 then rest 0
  else if b.kind = 0 then
    let k := (ts - b.t0) / b.h
    let fr := fdiv fp64 (int64 (ts - b.t0 - k * b.h : Nat)) (int64 b.h)
    let hs := fmul fp64 (int64 b.h) micro
    (((q k).zip (q (k + 1))).map fun (x, y) =>
        w32 (to32 (fadd fp64 (to64 (ofWord x)) (fmul fp64 (dif x y) fr))),
      ((q k).zip (q (k + 1))).map fun (x, y) => fdiv fp64 (dif x y) hs)
  else
    let k := ((b.points.dropLast.map (·.1)).filter fun u => decide (u ≤ ts)).length - 1
    match p.limits k with
    | none => rest k
    | some (v, ac, tt) =>
      let (s, sd) := profile v ac tt (fmul fp64 (int64 (ts - t k : Nat)) micro)
      (((q k).zip (q (k + 1))).map fun (x, y) =>
          w32 (to32 (fadd fp64 (to64 (ofWord x)) (fmul fp64 (dif x y) s))),
        ((q k).zip (q (k + 1))).map fun (x, y) => fmul fp64 (dif x y) sd)

/-- The stop trajectory of an attempt's trajectory; times in µs from F (R290). -/
def stopOf (p : SolveIn) (b : TrajBlock) (frame ts : Nat) : StopTraj :=
  let tEnd := (b.points.getLast?.map (·.1)).getD 0
  let hold := fun (x : List Word) => ({ kind := 0, fromFrame := frame, t0 := ts, x0 := x, t1 := ts, x1 := x } : StopTraj)
  if tEnd ≤ ts then hold ((b.points.getLast?.map (·.2)).getD [])
  else
    let (x, v) := stateAt p b ts
    if v.all fun a => feq fp64 a (num 0) then hold x
    else
      let worst := (v.zip p.amax).foldl (fun m (a, lim) => fmax fp64 m (fdiv fp64 (fabs fp64 a) (to64 lim))) (num 0)
      let td := ((ceilScaled fp64 (fmul fp64 (int64 1000000) worst).bits 1).getD 0).toNat
      let half := fdiv fp64 (fmul fp64 (int64 td) micro) (int64 2)
      { kind := 1, fromFrame := frame, t0 := ts, x0 := x, t1 := ts + td
        x1 := (x.zip v).map fun (a, w) => w32 (to32 (fadd fp64 (to64 (ofWord a)) (fmul fp64 w half))) }

/-- The legs of a stop trajectory (R291). -/
def stopLegs (plan : PlanImage) (hold : Nat) (st : StopTraj) : List Leg :=
  let lo := st.t0.toNat
  let hi := st.t1.toNat
  (if st.kind = 1 then legs st.x0 st.x1 (4 * plan.vSub) fun _ => (lo, hi, 1) else []) ++ [restLeg st.x1 hi hold]

/-! ## The confirmation test (R296) -/

/-- The candidates of a path, in path order. -/
def chainOf (r : FrameRun) : Nat → Nat → List Cand
  | 0, _ => []
  | fuel + 1, cidx => match r.cand cidx with
    | none => []
    | some x => (if x.cidx = 0 ∨ x.via = noVia then [] else chainOf r fuel x.via) ++ [x]

/-- A sphere in a window that contradicts CHECK: near a face, or with a set cell well inside it. -/
def VView.contradicts (v : VView) (p : V3) (r : Nat) (slices : List Nat) : Bool :=
  let near := fun (h : Nat) (base : V3) (step : Int) (set : V3 → Bool) =>
    decide (h + 4 < r) && (cellsWithin base step p p (r - h - 4 : Nat)).any fun k =>
      decide (((base.add (k.scale step)).shift (step / 2)).d2 p < (r - h - 4) ^ 2) && set k
  !v.boxed p r || near 70 v.g.lo 80 v.bmpSet || (!slices.isEmpty && near 139 v.g.dynLoP 160 (v.fcSet slices))

/-- An edge entered at `t` contradicts CHECK, whose NARROW flag says which geometry decided. -/
def VView.edgeContra (v : VView) (plan : PlanImage) (qexp : List Nat) (tool : List Sphere) (nar : Bool) (e : EdgeEnt)
    (t : Nat) : Bool :=
  if nar then
    let steps := max e.samples 2 - 1
    let m := 2 * steps
    (List.range (steps + 1)).any fun k =>
      let lo := if k = 0 then 0 else (2 * k - 1) * e.duration
      let hi := min ((2 * k + 1) * e.duration) (m * e.duration)
      let ss := vSlices v.a m (t * m + lo) (t * m + hi)
      (vPlaced plan tool (samplePose plan.axes qexp e steps k)).any fun (p, r) => v.contradicts p r ss
  else
    let n := e.sphCount
    e.spheres.zipIdx.any fun (x, j) =>
      v.contradicts ⟨x.x, x.y, x.z⟩ x.r (vSlices v.a n (t * n + j * e.duration) (t * n + (j + 1) * e.duration))

/-- The candidate contradicts its CHECK; candidate 0 with NARROW = 1 is not checked. -/
def candContra (s : State) (c : CtxId) (v : VView) (plan : PlanImage) (r : FrameRun) (x : Cand) : Bool :=
  let nar := x.flags.toNat.testBit 1
  if x.cidx = 0 then
    !nar && (r.suffix.foldl (fun (t, bad) e =>
      let y := s.edge c e
      (t + y.duration, bad || v.edgeContra plan (qexpOf s c) r.tool false y t)) (x.tEnter, false)).2
  else v.edgeContra plan (qexpOf s c) r.tool nar (s.edge c x.edge) x.tEnter

/-! ## An attempt (R294, R295) -/

/-- The outcome of an attempt: reason (0: passed), stop trajectory, capsules, contradicted candidate. -/
structure VOut where
  reason : Nat
  stop : Option StopTraj
  capsules : Nat
  contra : Option Nat
deriving DecidableEq, Repr

/-- One attempt tested against the publication of t_v, and again against that of t_f where it fails (R295). -/
def verifyAttempt (s : State) (c : CtxId) (plan : PlanImage) (r : FrameRun) (b : TrajBlock) (vf vv : VView)
    (same : Bool) : VOut :=
  if b.kind = 2 then ⟨1, none, 0, none⟩
  else
    let p := solveIn s c plan (pathOf r 33 b.cidx) b.t0
    let st := stopOf p b r.frame (startDelay s c + cNat s c 0x04)
    let hold := cNat s c 0x84
    let (ok, n) := vv.test plan r.tool (mainLegs plan hold b)
    if ok then
      let (ok2, n2) := vv.test plan r.tool (stopLegs plan hold st)
      ⟨if ok2 then 0 else 5, some st, n + n2, none⟩
    else if !same && (vf.test plan r.tool (mainLegs plan hold b)).1 then ⟨2, some st, n, none⟩
    else match (chainOf r 33 b.cidx).find? (candContra s c vf plan r) with
      | some x => ⟨3, some st, n, some x.cidx⟩
      | none => ⟨4, some st, n, none⟩

end Sys2Proof.Machine
end

