-- ==== Sys2Proof/Machine/Result.lean ====
section
/-! DEFINITION. The result record (R309-R316, R716), the recorded FRAME entries that a replay reads (R429, R435-R438) and
RELEASE (R302-R308, R319, R452, R585). -/

namespace Sys2Proof.Machine

/-! ## Reading a recording (R426, R434-R439; log 33) -/

/-- An entry of the recording at an offset of the PSRAM window: TICK, TYPE, SRC, payload and whole length. -/
structure RecEntry where
  tick : Nat
  ty : Nat
  src : Nat
  payload : Bytes
  size : Nat
  crcOk : Bool
deriving DecidableEq, Repr

/-- The entry at offset `pos` of the recording; none at its end: TYPE 0 or the end of populated PSRAM. -/
def entryAt (s : State) (pos : Nat) : Option RecEntry :=
  let off := oNat s 0x2700 0x0F + pos
  let h := psramRead s off 16
  let n := u h 8 4
  let size := (16 + n + 15) / 16 * 16
  if u h 6 1 = 0 ∨ !psramOk s off 16 then none
  else
    let body := if psramOk s off size then psramRead s (off + 16) n else []
    some { tick := u h 0 6, ty := u h 6 1, src := u h 7 1, payload := body, size := size
           crcOk := body.length == n && u h 12 4 == crc32 (slice h 0 12 ++ body) }

/-- Every entry of the recording that `p` accepts. -/
def allEntries (s : State) (p : RecEntry → Bool) : Nat → Nat → List RecEntry
  | 0, _ => []
  | fuel + 1, pos => match entryAt s pos with
    | none => []
    | some e =>
      if !e.crcOk || e.ty == 0x10 then []
      else if p e then e :: allEntries s p fuel (pos + e.size) else allEntries s p fuel (pos + e.size)

/-- More entries than the PSRAM window can hold. -/
def ringFuel : Nat := 2 ^ 25

/-- FRAME of a FRAME entry (R429). -/
def RecEntry.frame (e : RecEntry) : Nat := u e.payload 4 6

/-- The FRAME entries of a context, in their order. -/
def recFrames (s : State) (c : CtxId) : List RecEntry :=
  allEntries s (fun e => e.ty == 0x0B && e.src == c.val) ringFuel 0

/-- The FRAME entry that a replay of the context comes to next. -/
def nextRecorded (s : State) (c : CtxId) : Option RecEntry := (recFrames s c)[s.recorder.nextFr[c]]?

/-- The payload of the FRAME entry of a frame that the replay has begun (R429); of several of that number, the last. -/
def recordedFrame (s : State) (c : CtxId) (frame : Nat) : Option Bytes :=
  ((((recFrames s c).take s.recorder.nextFr[c]).filter fun e => e.frame == frame).getLast?).map (·.payload)

/-! ## The record (R309-R316, R716) -/

/-- The cost whose ord is `o` (R230). -/
def unOrd (o : Nat) : Word := if 2 ^ 31 ≤ o then BitVec.ofNat 32 (o - 2 ^ 31) else ~~~(BitVec.ofNat 32 o)

/-- The rank summary (R242); `sel` is none for a frame in which SELECT did not run. -/
def rankSummary (k : Nat) (r : FrameRun) (sel : Option RankList) (used : Nat) : Bytes :=
  let e := (sel.map (·.entries)).getD []
  let cost := fun (x : Option (Word × Nat)) => ((x.map (·.1)).getD nanCost).toNat
  let next := match sel with
    | some l => if l.overflow = noKey then nanCost else unOrd (l.overflow / 2 ^ 32)
    | none => nanCost
  let nan := (r.scores.filter fun x => x.2 == nanCost).length
  let on := fun (n : Nat) => if sel.isSome then n else 0
  leBytes 2 k ++ leBytes 2 e.length ++ leBytes 4 (on r.scores.length) ++ leBytes 4 (cost e.getLast?) ++
    leBytes 4 next.toNat ++ leBytes 2 (on (min 65535 nan)) ++ leBytes 2 (on (min 65535 r.dropped)) ++ leBytes 1 used ++
    zeros 3 ++ leBytes 4 ((e.head?.map (·.2)).getD 0xFFFFFFFF) ++ leBytes 4 (cost e.head?)

/-- The verify summary (R716): all 0 where no attempt ran. -/
def verifySummary (r : FrameRun) : Bytes :=
  if r.reasons.isEmpty then zeros 32
  else
    let at_ := fun (i : Nat) => r.reasons[i]?.getD 0
    leBytes 1 (r.reasons.getLastD 0) ++ leBytes 1 (at_ 0 + 8 * at_ 1) ++ zeros 2 ++ leBytes 4 (r.tv % 2 ^ 32) ++
      leBytes 4 r.capsules ++ zeros 20

/-- A time and positions, 0 at and above AXES. -/
def pointBytes (t : Int) (x : List Word) : Bytes :=
  leBytes 4 (code 32 t) ++ padTo 48 ((x.take 12).flatMap fun w => leBytes 4 w.toNat)

/-- The stop block of a frame (R292, R314), its times rebased by the frame difference. -/
def stopBytes (axes period frame : Nat) (st : StopTraj) : Bytes :=
  let d : Int := ((frame : Int) - st.fromFrame) * period
  leBytes 1 st.kind ++ leBytes 1 axes ++ leBytes 6 st.fromFrame ++ zeros 8 ++ pointBytes (st.t0 - d) st.x0 ++
    (if st.kind = 1 then pointBytes (st.t1 - d) st.x1 else pointBytes (st.t0 - d) st.x0) ++ zeros 8

/-- The path block (R315). -/
def pathBytes (path : List Nat) : Bytes :=
  ((path.take 32) ++ List.replicate (32 - path.length) 0xFFFFFFFF).flatMap (leBytes 4)

/-- The waypoints of a released trajectory (R267, R313). -/
def wayPoints (b : TrajBlock) : List (Nat × List Word) :=
  if b.kind = 0 then b.kidx.map fun k => b.points[k]?.getD (0, []) else b.points

/-- What a release writes: the parts of the record that depend on its outcome. -/
structure RelOut where
  valid : Bool
  status : Nat
  flags : Nat
  vepoch : Word
  cidx : Nat
  cost : Word
  clear : Int
  way : List (Nat × List Word)
  rank : Bytes
  solver : Bytes
  verify : Bytes
  stop : StopTraj
  path : List Nat
deriving DecidableEq, Repr

/-- The record without its digest, RELEASED_AT taken as given (R310, R311). -/
def recordBody (s : State) (c : CtxId) (r : FrameRun) (epoch : Word) (o : RelOut) (at_ : Nat) : Bytes :=
  let axes := ((s.ctx c).plan.map (·.axes)).getD 0
  let header := leBytes 6 r.frame ++ leBytes 1 c.val ++ [1] ++ leBytes 4 epoch.toNat ++ leBytes 4 o.vepoch.toNat ++
    leBytes 1 (bit o.valid) ++ [0] ++ leBytes 2 o.status ++ leBytes 2 o.flags ++ leBytes 1 o.way.length ++
    leBytes 1 axes ++ leBytes 8 at_ ++ leBytes 4 o.cidx ++ leBytes 4 o.cost.toNat ++ leBytes 4 (code 32 o.clear) ++
    leBytes 4 ((o.way.getLast?.map (·.1)).getD 0) ++ leBytes 2 s.boot.cl ++ leBytes 1 r.service ++ [0] ++
    leBytes 4 r.roadmap ++ zeros 8
  padTo 0xFF0 (header ++ o.rank ++ o.solver ++ o.verify ++ stopBytes axes (cNat s c 0x04) r.frame o.stop ++
    padTo (32 * 52) (o.way.flatMap fun (t, q) => pointBytes t q) ++ pathBytes o.path)

/-- The digest: RELEASED_AT taken as zero (R316). -/
def recordDigest (s : State) (c : CtxId) (r : FrameRun) (epoch : Word) (o : RelOut) : Bytes :=
  digest128 (recordBody s c r epoch o 0)

/-- The snapshot epoch of a frame: that of its tick's publication. -/
def frameEpoch (s : State) (r : FrameRun) : Word :=
  if r.snapped then r.epoch
  else match s.world.pubs.find? fun p => p.tick == r.tf with
    | some p => p.epoch
    | none => s.world.epoch

/-! ## Outcomes (R302-R304, R317) -/

/-- HOLD with no pose: no context holds it once it has started (R293). -/
def noStop : StopTraj := { kind := 0, fromFrame := 0, t0 := 0, x0 := [], t1 := 0, x1 := [] }

/-- A record of R304. -/
def outInvalid (s : State) (c : CtxId) (r : FrameRun) (status : Nat) : RelOut :=
  { valid := false, status := status, flags := flagsInvalid r, vepoch := frameEpoch s r, cidx := 0xFFFFFFFF,
    cost := nanCost, clear := 0, way := [], rank := rankSummary (cNat s c 0x40) r none 0xFF, solver := noSum.bytes,
    verify := zeros 32, stop := (s.ctx c).stop.getD noStop, path := [] }

/-- A record with VALID = 1 (R311-R315). -/
def outValid (s : State) (c : CtxId) (r : FrameRun) (status : Nat) : RelOut :=
  let rel := r.released
  let used := (rel.map (·.1)).getD 0xFF
  { valid := true, status := status, flags := flagsValid r status
    vepoch := if rel.isSome then r.vEpoch else frameEpoch s r
    cidx := (rel.map fun t => t.2.2.cidx).getD 0xFFFFFFFF
    cost := match rel with
      | some (_, _, x) => amGetD r.scores x.cidx nanCost
      | none => nanCost
    clear := (rel.map fun t => t.2.2.clear).getD 0
    way := (rel.map fun t => wayPoints t.2.1).getD []
    rank := rankSummary (cNat s c 0x40) r r.selected used, solver := r.sum.bytes, verify := verifySummary r
    stop := match rel, r.stop with
      | some _, some st => st
      | _, _ => (s.ctx c).stop.getD noStop
    path := match rel with
      | some (_, _, x) => pathOf r 33 x.cidx
      | none => [] }

/-- The outcome of a ready frame. -/
def outReady (s : State) (c : CtxId) (r : FrameRun) : Option RelOut :=
  match r.ready with
  | some (.passed _) => some (outValid s c r 0)
  | some (.noPath st) => some (outValid s c r st)
  | some (.invalid st) => some (outInvalid s c r st)
  | none => none

/-! ## RELEASE (R308) -/

/-- Step 1: the record written into its slot of the result ring (R309). -/
def putResult (s : State) (c : CtxId) (frame : Nat) (rec_ : Bytes) : State :=
  (storePut s 10 c (frame % cNat s c 0x8A * 4096) rec_).modCtx c fun x => { x with result := rec_ }

/-- The released trajectory was planned: VALID = 1 and not NO_PATH. -/
def RelOut.planned (o : RelOut) : Bool := o.valid && !noPathStatus o.status

/-- Step 3: the LAST counters and the counts of the frame (R181, R187, R219, R238, R244, R258, R271, R325). A record of
R304 holds only values known at F, so its LAST counters are 0 (log 34). -/
def relCounters (r : FrameRun) (o : RelOut) (kind : Nat) (n : Counters) : Counters :=
  let v := fun (k : Nat) => if o.valid then k else 0
  let add := fun (a b : Nat) => (a + b) % 2 ^ 32
  let sel := (r.selected.map fun l => l.entries.length).getD 0
  { n with
    candLast := r.cands.length, narrowLast := r.narrow, passLast := (r.cands.filter Cand.pass).length
    warmLast := match r.cand 0 with
      | some x => if x.pass then 1 else 2
      | none => 0
    searchStatus := if 0x0301 ≤ o.status ∧ o.status ≤ 0x0305 then o.status else 0
    scoredLast := v (if r.selected.isSome then r.scores.length else 0), selCountLast := v sel
    tieCount := add n.tieCount (bit (o.valid && r.tie)), selectStatus := if o.status = 0x0401 then 0x0401 else 0
    fallbackCount := add n.fallbackCount (bit (o.planned && kind == 1))
    pivotFixCount := add n.pivotFixCount r.pivots, smoothLast := o.solver
    late := add n.late (bit (o.status == 0x0601)), noPath := add n.noPath (bit (noPathStatus o.status)) }

/-- Step 4: SYNC_OUT goes high, or its pulse is extended (R319, R705). -/
def pulseSync (s : State) (c : CtxId) : State :=
  if cNat s c 0x88 = 1 then
    { s with syncOut := true, syncOutEnd := max (if s.syncOut then s.syncOutEnd else 0) (s.now + us (cNat s c 0x89)) }
  else s

/-- A record queued on RESULT_OUT: 8 at most, the oldest dropped and counted (R570). -/
def pushOut (rec_ : Bytes) (x : Sd) : Sd :=
  let q := x.outQ ++ [rec_]
  if 8 < q.length then { x with outQ := q.drop 1, outDrop := satAdd 255 x.outDrop 1 } else { x with outQ := q }

/-- A result notice queued on a controller that is operational (R576). -/
def pushTpdo (c : CtxId) (rec_ : Bytes) (k : Can) : Can :=
  if k.en && k.nmt == 5 then
    { k with tx := k.tx ++ [.tpdo c.val (if k.gen = 0 then slice rec_ 0 4 ++ slice rec_ 18 4 else rec_.take 64)] }
  else k

/-- The header posted to RESULT_MBX, or the post skipped and counted (R585). -/
def postResult (s : State) (n : Nat) (rec_ : Bytes) : State :=
  if h : n < 32 then
    let i : MbxId := ⟨n, h⟩
    let b := s.mbx.box[n]
    if !b.full && b.sender == 1 then
      mbxWake (s.modBox i fun x => { x with full := true, len := 64, data := rec_.take 64 }) i
    else s.modBox i fun x => { x with skip := satAdd 65535 x.skip 1 }
  else s

/-- Step 5: the result event (R585). -/
def resultEvent (s : State) (c : CtxId) (rec_ : Bytes) : State :=
  let s := s.tdsEvent (32 + c.val)
  let s := evtPort (evtPort s .a (2 ^ c.val)) .b (2 ^ c.val)
  let push := cNat s c 0x0D
  let s := if push.testBit 0 then s.modSd .sda (pushOut rec_) else s
  let s := if push.testBit 1 then s.modSd .sdb (pushOut rec_) else s
  let tp := cNat s c 0x0E
  let s := if tp.testBit 0 then s.modCan .cn0 (pushTpdo c rec_) else s
  let s := if tp.testBit 1 then s.modCan .cn1 (pushTpdo c rec_) else s
  postResult s (cNat s c 0x0C) rec_

/-- The FRAME entry (R429). -/
def frameEntry (s : State) (c : CtxId) (r : FrameRun) (o : RelOut) (digest : Bytes) : Bytes :=
  let axes := ((s.ctx c).plan.map (·.axes)).getD 0
  leBytes 1 (rflags r o.valid) ++ leBytes 1 r.step ++ leBytes 1 r.service ++ [0] ++ leBytes 6 r.frame ++
    leBytes 2 o.status ++ leBytes 6 (if o.valid && !r.reasons.isEmpty then r.tv else 0) ++ zeros 2 ++ digest ++
    pathBytes o.path ++ stopBytes axes (cNat s c 0x04) r.frame o.stop

/-- A replayed frame compared with its recording (R438). -/
def replayCompare (s : State) (c : CtxId) (frame : Nat) (digest : Bytes) : State :=
  if !s.replaying then s
  else match recordedFrame s c frame with
    | none => s
    | some e =>
      let fl := u e 0 1
      if slice e 20 16 = digest then s
      else if fl.testBit 1 || fl.testBit 2 then
        { s with recorder := { s.recorder with expected := wrapInc 32 s.recorder.expected } }
      else
        { s with recorder := { s.recorder with
            mismatch := wrapInc 32 s.recorder.mismatch
            firstMismatch := if s.recorder.firstMismatch.isEmpty then leBytes 1 c.val ++ leBytes 6 frame
              else s.recorder.firstMismatch } }

/-! ## Commit logs (R384) -/

/-- The entry of a tile that has not been dispatched. -/
def noLog : LogEntry := { station := 0, engA := 0x1F, engB := 0x1F, lflags := 0, chip := 0, chipB := 0 }

/-- An entry of the log of a frame changed. -/
def logPut (s : State) (c : CtxId) (frame seq : Nat) (f : LogEntry → LogEntry) : State :=
  let up := fun (l : List (Nat × LogEntry)) => amPut l seq (f (amGetD l seq noLog))
  { s with tds := { s.tds with logs := vupd s.tds.logs c fun l =>
      if frame % 2 = 0 then { l with even := up l.even } else { l with odd := up l.odd } } }

/-- The tiles of a frame that run when it is released late are discarded (R303). -/
def discardLogs (s : State) (c : CtxId) (frame : Nat) : State :=
  (s.tds.tiles.filter fun t => t.ctx == c.val && t.frame == frame && t.station == 3 && (match t.status with
    | .held _ => true
    | .dealt _ _ => true
    | _ => false)).foldl (fun s t => logPut s c frame t.seq fun x => { x with lflags := x.lflags ||| 4 }) s

/-- The frame's tiles when it ends: those not dispatched are cancelled, those that run continue to their commit, and their
results are discarded (R275, R303). -/
def endTiles (s : State) (c : CtxId) (frame : Nat) : State :=
  { s with tds := { s.tds with tiles := s.tds.tiles.filterMap fun t =>
      if t.ctx ≠ c.val ∨ t.frame ≠ frame then some t
      else match t.status with
        | .held _ => some { t with discard := true }
        | .dealt _ _ => some { t with discard := true }
        | _ => none } }

/-- A release with VALID = 1 takes a context that arms to OPERATE, and the pins follow (R449, R452). -/
def armed (s : State) (c : CtxId) : State :=
  drivePins (s.modCtx c fun x => if x.sstate = .arming then { x with sstate := .operate } else x)

/-- A replay that is to pause enters PAUSED once its tick is published and every frame has been released (R440). -/
def pauseCheck (s : State) : State :=
  let r := s.recorder
  if r.st = 3 ∧ r.pausing ∧ oNat s 0x2700 0x11 ≤ s.world.tick ∧ allCtx.all (fun c => (s.ctx c).run.isNone) then
    { s with recorder := { r with st := 4, replay := 2, pausing := false } }
  else s

/-- RELEASE of a frame with an outcome (R308). -/
def release (s : State) (c : CtxId) (r : FrameRun) (o : RelOut) : State :=
  let epoch := frameEpoch s r
  let digest := recordDigest s c r epoch o
  let rec_ := recordBody s c r epoch o s.now ++ digest
  let entry := frameEntry s c r o digest
  let s := putResult s c r.frame rec_
  let s := s.modCtx c fun x =>
    { x with
      warm := if o.planned then o.path else []
      stop := if o.planned then some o.stop else x.stop
      cnt := relCounters r o ((r.block.map (·.kind)).getD 2) x.cnt
      run := none }
  let s := record s r.tf 0x0B c.val entry
  let s := replayCompare s c r.frame digest
  let s := pulseSync s c
  let s := resultEvent s c rec_
  let s := pauseCheck (endTiles s c r.frame)
  if o.valid then armed s c else s

/-- A frame in progress released at once with a record of R304 (R303, R454). -/
def releaseInvalid (s : State) (c : CtxId) (status : Nat) : State :=
  match (s.ctx c).run with
  | some r => release (discardLogs s c r.frame) c r (outInvalid s c r status)
  | none => s

/-- RELEASE: a frame that is ready, where RELEASE_AT = 0, or in replay, where no deadline is watched (R302, R436). -/
def releaseEffect (c : CtxId) (s : State) : State :=
  match (s.ctx c).run with
  | some r => match outReady s c r with
    | some o => if cNat s c 0x81 = 0 ∨ s.replaying then release s c r o else s
    | none => s
  | none => s

def execRelease (c : CtxId) (s : State) : Out := .next (releaseEffect c s)

end Sys2Proof.Machine
end

