-- ==== Sys2Proof/Machine/Saf.lean ====
section
/-! DEFINITION. Functional safety (R445-R461, R470, R477, R478, R494, R497-R504): demands, part causes, clears, the pins
and their tests, the SAF watchdog, the causes of the AON path. -/

namespace Sys2Proof.Machine

/-! ## Intervals and ages -/

/-- S in µs (R462). -/
def stepS (s : State) : Nat :=
  match s.pacing with
  | some c =>
    let p := cNat s c 0x04
    p * ceilDiv 1000 p
  | none => 1000

/-- SAF_GF_AGEn in AOCLK (R503): 0 for reserve and retired engines. -/
def gfAge (s : State) (n : EngId) : Nat :=
  if s.working n || s.roles.coppice == some n then min (2 ^ 32 - 1) (s.aoclk - (s.eng n).gfFrom) else 0

/-- Some in-service engine's age exceeds 22 × S (R470). -/
def rotationLate (s : State) : Bool := allEng.any fun n => decide (8800 * stepS s < 128 * gfAge s n)

/-- A test cycle or a clipping pass is overdue (R477, R478). -/
def testLate (s : State) : Bool :=
  decide (4096 < s.roles.steps - s.saf.cycleFrom) ||
    allEng.any fun n => (s.working n || s.roles.coppice == some n) && decide (1024 < s.roles.steps - (s.eng n).clipStep)

/-! ## Demands (R453, R454, R459) -/

def causeDeadline : Nat := 0
def causeHost : Nat := 1
def causePart : Nat := 2

/-- A demand on a context: the bit of CAUSE that it latches. In STOPPED it has no effect; in SAFE it sets the cause and
counts; otherwise the context enters SAFE, and its frame in progress is released at once. -/
def demand (s : State) (c : CtxId) (bit : Nat) : State :=
  let x := s.ctx c
  if x.sstate = .stopped then s
  else
    let s := s.modCtx c fun x =>
      { x with
        demandAt := some s.now, cause := x.cause ||| BitVec.ofNat 3 (2 ^ bit), satCount := satAdd 65535 x.satCount 1, clearPend := false
        cnt := { x.cnt with safeCount := wrapInc 32 x.cnt.safeCount }, sstate := .safe }
    if x.sstate = .safe then s
    else
      let s := if (x.run.map (·.inSafe)).getD true then s
        else releaseInvalid s c (if bit = causeDeadline then 0x0601 else 0x0602)
      let s := if bit = causeDeadline then emcy s 0xFF01 c.val x.frameNo
        else if bit = causeHost then emcy s 0xFF02 c.val x.frameNo else s
      drivePins s

/-! ## Part causes (R455, R456) -/

/-- The causes that only power-on clears: AON_LOCKSTEP, WATCHDOG, CLOCK, PIN_READBACK, HALTED, SELFTEST_START and
SELFTEST_RUN. -/
def persistent : BitVec 12 := 0x3CE

/-- A part cause latched. The first one enters the part safe state: every running context is demanded with PART, FAULT_N
goes low, EMCY 0xFF03 is sent. A persistent cause starts a full dump (R537). -/
def partCause (s : State) (bit : Nat) : State :=
  let m := BitVec.ofNat 12 (2 ^ bit)
  let was := s.saf.causes
  let s := { s with saf := { s.saf with causes := was ||| m, causeAt := some s.now } }
  let s := if m &&& persistent != 0 && was &&& m == 0 then queueDump s { domain := none, cause := .part bit } else s
  if was ≠ 0 then s
  else
    let s := { s with saf := { s.saf with faultLow := true } }
    let s := allCtx.foldl (fun s c => demand s c causePart) s
    drivePins (emcy s 0xFF03 0xFF (s.saf.causes.toNat + bit_ (s.saf.causes &&& persistent != 0) * 2 ^ 31))
where
  bit_ (b : Bool) : Nat := if b then 1 else 0

/-! ## Clears (R457-R459) -/

/-- SAFE_CLEAR of a context; none where it is refused, also by a demand at the same edge (R459). -/
def safeClear (s : State) (c : CtxId) : Option State :=
  let x := s.ctx c
  if x.sstate ≠ .safe ∨ s.saf.causes ≠ 0 ∨ x.cause.toNat.testBit causePart ∨ x.demandAt = some s.now then none
  else some (s.modCtx c fun x => { x with clearPend := true })

/-- The conditions that persist, of the clearable causes: for VOLTAGE also a core supply that is out (R693). -/
def liveConds (s : State) : BitVec 12 :=
  s.saf.conds ||| BitVec.ofNat 12 (bit (s.boot.phase == .on && !s.boot.pwrgd) * 2 ^ 4 + bit (rotationLate s) * 2 ^ 10 +
    bit (testLate s) * 2 ^ 11)

/-- PART_CLEAR; none where it is refused, also by a part cause at the same edge (R459). -/
def partClear (s : State) : Option State :=
  let on := s.saf.causes
  if on &&& persistent ≠ 0 ∨ on &&& liveConds s ≠ 0 ∨ s.saf.causeAt = some s.now then none
  else
    let s := { s with saf := { s.saf with causes := 0, faultLow := false } }
    let s := allCtx.foldl (fun s c => s.modCtx c fun x =>
      let k := x.cause &&& 3
      { x with cause := k, clearPend := x.clearPend || (x.sstate == .safe && x.cause != 0 && k == 0 && x.demandAt != some s.now) }) s
    some (drivePins s)

/-- A clear that was accepted takes effect at the context's F (R457, R458). -/
def takeClear (s : State) (c : CtxId) : State :=
  if (s.ctx c).clearPend then
    drivePins (s.modCtx c fun x => { x with cause := 0, sstate := .arming, clearPend := false })
  else s

/-! ## SAF_REQ and SAF_CLEAR (R499) -/

/-- A demand on a context that a stop order makes (R453, R559). -/
def hostDemand (c : CtxId) (s : State) : State := demand (stopWins (some c) s) c causeHost

/-- The part cause that a stop order latches (R455, R559). -/
def hostPart (s : State) : State := partCause (stopWins none s) 0

/-- SAF_REQ bits 15:0, from any bus master. -/
def safReqCtxEffect (bits : BitVec 16) (s : State) : State :=
  State.okBus (allCtx.foldl (fun s c => if bits.toNat.testBit c.val then hostDemand c s else s) s)

def execSafReqCtx (_m : Master) (bits : BitVec 16) (s : State) : Out := .next (safReqCtxEffect bits s)

/-- SAF_REQ bit 16, from any bus master. -/
def execSafReqPart (_m : Master) (s : State) : Out := .next (hostPart s).okBus

/-- SAF_CLEAR bits 15:0: AON only; a clear that R457 does not accept is refused. -/
def safClearCtxEffect (m : Master) (bits : BitVec 16) (s : State) : State :=
  if m ≠ .aon then s.busErr
  else State.okBus (allCtx.foldl (fun s c => if bits.toNat.testBit c.val then (safeClear s c).getD s else s) s)


/-- SAF_CLEAR bit 16: AON only. -/
def safClearPartEffect (m : Master) (s : State) : State := if m ≠ .aon then s.busErr else ((partClear s).getD s).okBus

/-! ## The pins (R450, R451) -/

/-- A test pulse of 4 AOCLK, `from_` AOCLK after the last TEST_PULSE, is being driven. -/
def inPulse (s : State) (from_ : Nat) : Bool :=
  match s.saf.lastPulse with
  | some t => decide (t + 128 * from_ ≤ s.now) && decide (s.now < t + 128 * (from_ + 4))
  | none => false

/-- The level driven on SAFE_A: its pulse is low, in the first 4 AOCLK. -/
def drivenA (s : State) : Bool := s.saf.driveA && !inPulse s 0
/-- The level driven on SAFE_B: its pulse is high, 25 AOCLK after that of SAFE_A ends. -/
def drivenB (s : State) : Bool := s.saf.driveB || inPulse s 29

/-- TEST_PULSE: every 31,250 AOCLK while PERMIT is driven and PULSE_EN = 1. The time is kept; the levels of both pulses follow
from it. -/
def testPulseEffect (s : State) : State :=
  if s.saf.outEn && s.permit && s.saf.pulseEn && s.now % (31250 * 128) == 0 then
    { s with saf := { s.saf with lastPulse := some s.now } }
  else s

def execTestPulse (s : State) : Out := .next (testPulseEffect s)

/-- PIN_READBACK: the levels read back; one that differs from the driven level is a part cause. -/
def pinReadbackEffect (a b : Bool) (s : State) : State :=
  let s := { s with saf := { s.saf with pinA := a, pinB := b } }
  if s.saf.outEn && (a != drivenA s || b != drivenB s) then partCause s 6 else s

def execPinReadback (a b : Bool) (s : State) : Out := .next (pinReadbackEffect a b s)

/-! ## The SAF watchdog (R501) -/

def safWdtEffect (m : Master) (key : BitVec 16) (s : State) : State :=
  if m ≠ .aon then s.busErr
  else
    let since := s.aoclk - s.saf.wdtLast
    if key ≠ (if s.saf.wdtNext then 0xC0DE else 0x5AFE) ∨ since < 256 ∨ 1024 < since then State.okBus (partCause s 2)
    else State.okBus { s with saf := { s.saf with wdtLast := s.aoclk, wdtNext := !s.saf.wdtNext } }


/-- WATCHDOG: a service write did not arrive in time. -/
def execWatchdog (s : State) : Out := .next (if 1024 < s.aoclk - s.saf.wdtLast then partCause s 2 else s)

/-! ## The other causes (R455, R470, R494, R688, R697) -/

def execAonLockstepMismatch (s : State) : Out := .next (partCause s 1)

/-- CLOCK_FAULT: XIN lost, or ACLK or SCLK more than 5 % off (R455, R697). -/
def clockFaultEffect (k : ClockFaultKind) (s : State) : State :=
  partCause (if k = .xin then { s with clk := { s.clk with xinOk := false } } else s) 3

def execClockFault (k : ClockFaultKind) (s : State) : Out := .next (clockFaultEffect k s)

/-- The condition of a clearable cause begins or ends. -/
def setCond (s : State) (bit : Nat) (on : Bool) : State :=
  let m := BitVec.ofNat 12 (2 ^ bit)
  { s with saf := { s.saf with conds := if on then s.saf.conds ||| m else s.saf.conds &&& ~~~m } }

/-- VOLTAGE_FAULT: a monitored rail leaves its window, or every rail is back in it. -/
def execVoltageFault (out : Bool) (s : State) : Out :=
  .next (if out then partCause (setCond s 4 true) 4 else setCond s 4 false)

/-- TEMPERATURE_FAULT: Tj of at least 120 °C for 1 ms; below 105 °C the condition has ended. -/
def execTemperatureFault (tj : Int) (s : State) : Out :=
  .next (if 120 ≤ tj then partCause (setCond s 5 true) 5 else if tj < 105 then setCond s 5 false else s)

/-- ROTATION_OVERDUE. -/
def execRotationOverdue (s : State) : Out := .next (if rotationLate s then partCause s 10 else s)

/-- Hours since the last start self-test (R502). -/
def testAge (s : State) : Nat := (s.now - s.saf.startAt) / (400000000 * 3600)

/-- TEST_AGE_EXPIRY: EMCY 0xFF07, once (R461, R494). -/
def testAgeEffect (s : State) : State :=
  if 8760 ≤ testAge s ∧ s.saf.stDone ∧ !s.saf.ageSent then
    emcy { s with saf := { s.saf with ageSent := true } } 0xFF07 0xFF (testAge s)
  else s

def execTestAgeExpiry (s : State) : Out := .next (testAgeEffect s)

/-! ## DEADLINE_EDGE (R302, R303, R306) -/

/-- A stop of context c is complete at this edge: a command that waits brings it (R533; log 12). -/
def stopsNow (s : State) (c : CtxId) : Bool :=
  let stop := fun (w : ObjWrite) => w == { index := 0x2000 + c.val, sub := 1, data := [2] }
  s.serves && !isMember s && s.pending.any fun i => match i with
    | .ctxCtrlStop _ d => d == c
    | .objectWrite a b => a.any stop || b.any stop
    | .sdoDownload _ i k d => stop ⟨i, k, d⟩
    | .usdoDownload _ i k d => stop ⟨i, k, d⟩
    | .odCmdWrite i => (s.sd i).odLen == 1 && stop ⟨(s.sd i).odIndex, (s.sd i).odSub, (s.sd i).fifo⟩
    | _ => false

/-- The deadline edge of the frame in progress; none in replay (R436), nor where the context stops at this edge (R533). -/
def deadlineEdgeEffect (c : CtxId) (s : State) : State :=
  match (s.ctx c).run with
  | none => s
  | some r =>
    if s.replaying ∨ s.now ≠ r.f + us (deadlineUs s c) ∨ stopsNow s c then s
    else match outReady s c r with
      | some o => release s c r o
      | none =>
        if r.inSafe then releaseInvalid s c 0x0602
        else
          let s := { s with vfy := { s.vfy with irq := s.vfy.irq ||| 0x10 } }
          demand s c causeDeadline

def execDeadlineEdge (c : CtxId) (s : State) : Out := .next (deadlineEdgeEffect c s)

/-- SYNC_OUT_PULSE_END: the pin falls at the end of its pulse (R319). -/
def execSyncOutPulseEnd (s : State) : Out :=
  .next (if s.syncOut ∧ s.syncOutEnd ≤ s.now then { s with syncOut := false } else s)

end Sys2Proof.Machine
end

