-- ==== Sys2Proof/Machine/Roles.lean ====
section
/-! DEFINITION. Engine roles, faults and retirement (R25-R40, R299, R300, R371, R374, R519-R523), golden frames and lane
tests (R463-R466, R471, R472, R476, R520), the rotation step and the run-time tests of the checkers (R477, R478). -/

namespace Sys2Proof.Machine

/-- A place that committed a tile: chip address and engine. -/
abbrev Who := Option (Nat × EngId)

/-! ## Tiles held by engines -/

def State.modTile (s : State) (handle : Nat) (f : Tile → Tile) : State :=
  { s with tds := { s.tds with tiles := s.tds.tiles.map fun t => if t.handle = handle then f t else t } }
def State.dropTile (s : State) (handle : Nat) : State :=
  { s with tds := { s.tds with tiles := s.tds.tiles.filter fun t => t.handle != handle } }
def State.tile (s : State) (handle : Nat) : Option Tile := s.tds.tiles.find? fun t => t.handle == handle
/-- The tile that an engine holds. -/
def State.heldTile (s : State) (n : EngId) : Option Tile := (s.eng n).holding.bind s.tile

/-- The stations (R354). -/
def stForecast : Nat := 1
def stGrow : Nat := 2
def stCheck : Nat := 3
def stScore : Nat := 4
def stSelect : Nat := 5
def stSmooth : Nat := 6
def stLoad : Nat := 14
def stGolden : Nat := 15

/-- An engine's sticky flags after an operation. -/
def engFlags (s : State) (n : EngId) (fl : Nat) : State := s.modEng n fun e => { e with fpstat := fpSticky e.fpstat fl }

/-- The flags of an engine after kinematics or forecast arithmetic, whose operations the spec does not give (log 5). -/
def engFreeFlags (s : State) (n : EngId) : State :=
  let (v, s) := s.free 5
  engFlags s n v.toNat


/-- The golden-frame tile of an engine, held or waiting for its digest to be judged. -/
def State.goldenTile (s : State) (n : EngId) : Option Tile :=
  s.tds.tiles.find? fun t => t.station == stGolden && (t.status == .held n || t.status == .committed n s.chip)

/-- The engine holds no tile any more: no station is reported, no command or transfer waits, the spare lane stands in for none
(R354, R364, R466). -/
def letGo (s : State) (n : EngId) (st : PeState) : State :=
  s.modEng n fun e =>
    { e with
      holding := none, waiting := false, st := st, idleFrom := s.now, tileStation := 0, queued := 0, dma := [], goldLane := none }

/-- The engine has taken the tile and not committed it, or its copy waits for the other. -/
def State.lostWith (s : State) (n : EngId) (t : Tile) : Bool :=
  match t.status with
  | .held e => e == n
  | .waitsCopy e c => e == n && c == s.chip
  | _ => false

/-- Some tile of the engine is to be dispatched again. -/
def State.redoes (s : State) (n : EngId) : Bool :=
  s.tds.tiles.any fun t => s.lostWith n t && !(t.discard || t.station == stLoad || t.station == stGolden)

/-- A held copy is discarded: the log of its frame names no engine for it any more (R374, R384). -/
def uncommitLog (s : State) (t : Tile) : State :=
  if t.station = stCheck ∧ t.ctx < 16 ∧ (s.ctx (Fin.ofNat 16 t.ctx)).frameNo ≤ t.frame + 1 then
    logPut s (Fin.ofNat 16 t.ctx) t.frame t.seq fun x =>
      if t.copyB then { x with engB := 0x1F, chipB := 0 } else { x with engA := 0x1F, chip := 0 }
  else s

/-- The tiles that a faulted engine had taken but not committed, or whose copy waits for the other (R374), are to be
dispatched again at the fence; results nobody wants, loads and golden frames are dropped. -/
def fenceTiles (s : State) (n : EngId) : State :=
  let fence := fun (t : Tile) =>
    if !(s.lostWith n t) then some t
    else if t.discard || t.station == stLoad || t.station == stGolden then none
    else some { t with status := .fenced n, redisp := true, notOn := some n, defect := default }
  let held := s.tds.tiles.filter fun t => s.lostWith n t && t.status != .held n
  held.foldl uncommitLog { s with tds := { s.tds with tiles := s.tds.tiles.filterMap fence } }

/-- The reset of the store controllers takes an engine's access with it (R524): its tile is uncommitted and goes back among the ready
ones at once, a cross-checked copy for another engine (R374); a golden frame counts as not run, a context load is made again
(log 123). -/
def storeRedo (s : State) (n : EngId) : State :=
  match s.heldTile n with
  | none => s
  | some h =>
    let back := fun (t : Tile) =>
      if t.status ≠ .held n then some t
      else if t.discard || t.station == stLoad || t.station == stGolden then none
      else some { t with status := .ready, redisp := true, notOn := if t.xchk then some n else none, defect := default }
    letGo { s with
      tds := { s.tds with tiles := s.tds.tiles.filterMap back }
      roles := { s.roles with gold := if h.station = stGolden then .due else s.roles.gold } } n .idle

/-- The tiles of a faulted engine dropped (R535). -/
def dropTiles (s : State) (n : EngId) : State :=
  { s with tds := { s.tds with tiles := s.tds.tiles.filter fun t => t.status != .held n } }

/-- A golden frame that runs on an engine is abandoned; it counts as not run (R30, R373, R465). -/
def abortGolden (s : State) (n : EngId) : State :=
  match s.heldTile n with
  | some t =>
    if t.station = stGolden then
      let s := letGo (s.dropTile t.handle) n .idle
      { s with roles := { s.roles with gold := .due } }
    else s
  | none => s

/-! ## Retirement (R30-R35, R522, R523) -/

/-- The coppice engine takes a faulted working engine's place where it is free; else, or where the coppice engine itself
faults while it stands in, no engine does (R30-R32). Of two working engines found faulty at one edge it takes the place of the
lower-numbered one (R514). -/
def substitute (s : State) (n : EngId) : State :=
  let r := s.roles
  if r.coppice = some n then
    let stood := r.standFor.isSome
    { s with roles := { r with noStand := r.noStand || stood, standFor := none } }
  else if s.working n then
    match r.coppice with
    | some k =>
      if r.standFor = none ∧ !r.noStand ∧ !(s.eng k).faulty then
        abortGolden { s with roles := { r with standFor := some n } } k
      else match r.standFor with
        | some m =>
          if n < m ∧ (s.eng m).foundAt = some s.now ∧ !r.noStand ∧ !(s.eng k).faulty then
            { s with roles := { r with standFor := some n } }
          else s
        | none => s
    | none => s
  else s


def engBit (n : EngId) : BitVec 18 := BitVec.ofNat 18 (2 ^ n.val)

/-- Reasons of R523. -/
def retGolden : Nat := 1
def retDisagree : Nat := 2
def retOther : Nat := 3

/-- The roles after engine n is retired: the coppice engine takes a working one's place for good; the reserve is brought in, and
meanwhile no engine is coppice and the rotation is suspended. In REDUCED no engine is coppice. The tiles that a faulted engine
lost stay with the engine that took its place (R30). -/
def rolesRetire (r : Roles) (n : EngId) : Roles :=
  let wasWorking := r.working &&& engBit n != 0
  let retired := r.retired ||| engBit n
  let service := min 3 (popCount 18 retired.toNat)
  let reserve := if r.reserve = some n then none else r.reserve
  let copp := if r.coppice = some n then none else r.coppice
  let joins := wasWorking || decide (2 ≤ service)
  let working := (r.working &&& ~~~(engBit n)) ||| (match copp with
    | some k => if joins then engBit k else 0
    | none => 0)
  let copp' := if joins then none else copp
  let bring := match r.bringIn with
    | some (e, p) => if e = n then none else some (e, p)
    | none => reserve.map fun e => (e, 0)
  { r with
    working := working, coppice := copp', reserve := reserve, retired := retired, bringIn := bring
    suspended := bring.isSome && copp' == none
    standFor := if copp' = none then none else r.standFor
    heir := if joins then copp.bind fun k => r.standFor.map fun m => (m, k)
      else if r.heir.any (fun h => h.2 == n) then none else r.heir
    place := match r.coppice with
      | some k => some k
      | none => r.place
    gold := if copp' = none then .none else r.gold
    testEng := if copp' = none then none else r.testEng
    steer := r.steer.filter fun e => e != n
    laneTest := (r.laneTest.filter fun e => e != n) ++ (match r.bringIn, bring with
      | none, some (e, _) => [e]
      | _, _ => []) }

/-- An engine is retired: it is held in reset and power-gated for good; service state, wear record and EMCY follow
(R34, R35, R455, R461, R522, R523). -/
def retire (s : State) (n : EngId) (reason : Nat) : State :=
  if s.retired n then s
  else
    let s := substitute (fenceTiles s n) n
    -- a golden frame that the coppice engine runs is abandoned when it joins the working engines (R33)
    let s : State := match s.roles.coppice with
      | some k => if k ≠ n ∧ s.working n then abortGolden s k else s
      | none => s
    let before : Nat := s.service
    let s : State := { s with roles := rolesRetire s.roles n }
    let s := s.modEng n fun e => { Engine.reset with named := e.named, disNamed := e.disNamed }
    let unload := fun (x : Ctx) => { x with loading := x.loading.filter (fun e => e != n) }
    let s := { s with ctxs := s.ctxs.map unload }
    let s := writeWear { s with wear := { s.wear with engReason := vupd s.wear.engReason n fun _ => reason } }
    let s := emcy s 0xFF05 0xFF (n.val + 256 * reason)
    let s := if before < 2 ∧ s.service = 2 then emcy s 0xFF04 0xFF s.roles.retired.toNat else s
    if before < 3 ∧ s.service = 3 then partCause s 7 else s

/-! ## Naming an engine (R299, R300, R519, R521, R522) -/

def actRedispatch : Nat := 1
def actReset : Nat := 2
def actRetire : Nat := 4
def actDump : Nat := 8
def actRowSpared : Nat := 16
def actDemand : Nat := 32
def actSteer : Nat := 64

/-- The engine was named by a record of 0x0101 to 0x0107, or by a disagreement, within the last 1,000 rotation steps. -/
def namedLately (s : State) (l : List Nat) : Bool := l.any fun t => decide (s.roles.steps - t ≤ 1000)

/-- Whether naming the engine once more retires it, and for which reason. -/
def retireReason (s : State) (n : EngId) (dis : Bool) : Option Nat :=
  let e := s.eng n
  if dis && namedLately s e.disNamed then some retDisagree else if namedLately s e.named then some retOther else none

/-- The engine noted as named, and its fault count. -/
def noteNamed (s : State) (n : EngId) (dis : Bool) : State :=
  let s := s.modEng n fun e =>
    { e with named := (s.roles.steps :: e.named).take 2
             disNamed := if dis then (s.roles.steps :: e.disNamed).take 2 else e.disNamed }
  { s with wear := { s.wear with engFaults := vupd s.wear.engFaults n fun k => satAdd (2 ^ 32 - 1) k 1 } }

/-- An engine put into the queue of the coppice role: a faulted one before those that a disagreement or a mismatch names. -/
def steerTo (s : State) (n : EngId) (first : Bool) : State :=
  let l := s.roles.steer
  let l' := if l.contains n then l
    else if first then (l.filter fun e => (s.eng e).faulty) ++ [n] ++ (l.filter fun e => !(s.eng e).faulty) else l ++ [n]
  { s with roles := { s.roles with steer := l' } }

/-- The engines of some that a naming retires: their domains are found faulty at its edge, so their tags advance (R508, R522). -/
def tagRetiring (s : State) (ns : List EngId) (dis : Bool) : State :=
  (ns.filter fun n => (retireReason s n dis).isSome && !s.retired n).foldl (fun s n => advanceTag s (engDomain n)) s

/-- Engines named by a mismatch or a disagreement: each is noted; a second naming retires it at once, else it is steered
into the coppice role, the lower number first (R299, R300, R521, R522). -/
def nameEngines (s : State) (ns : List EngId) (dis : Bool) : State :=
  ns.foldl (fun s n =>
    let why := retireReason s n dis
    let s := noteNamed s n dis
    match why with
    | some r => retire s n r
    | none => if s.retired n ∨ s.roles.reserve = some n then s else steerTo s n false) s

/-- ACTION for the engines that a finding retires: their tiles are dispatched again, and the third retirement demands the safe state
(R34, R455, R515). -/
def retireAct (s : State) (ns : List EngId) : Nat :=
  let ns := ns.filter fun n => !s.retired n
  if ns.isEmpty then 0
  else actRetire + (if ns.any s.redoes then actRedispatch else 0) +
    (if s.service < 3 ∧ 3 ≤ popCount 18 s.roles.retired.toNat + ns.length then actDemand else 0)

/-- ACTION of a record that names engines without resetting them. -/
def nameAction (s : State) (ns : List EngId) (dis : Bool) : Nat :=
  retireAct s (ns.filter fun n => (retireReason s n dis).isSome) +
    (if ns.any fun n => (retireReason s n dis).isNone then actSteer else 0)

def engOr (l : List EngId) (i : Nat) : Nat := match l[i]? with
  | some e => e.val
  | none => 0x1F

/-- The engines of this chip among some places, in rising order: those that this part can steer (log 47). -/
def ownEngines (s : State) (l : List Who) : List EngId :=
  allEng.filter fun n => l.any fun w => w == some (s.chip, n)

/-- The number of an engine in a record; its chip, this one where there is none. -/
def whoEng : Who → Nat
  | some x => x.2.val
  | none => 0x1F
def whoChip (s : State) : Who → Nat
  | some x => x.1
  | none => s.chip

/-- A mismatch record (R210, R234, R235): both engines named, CHIP and DOMAIN those of ENG_A. -/
def mismatch (s : State) (c : CtxId) (fcode : Nat) (a b : Who) (detail : Nat) : State :=
  let ns := ownEngines s [a, b]
  let act := nameAction s ns false
  let s := faultAt (tagRetiring s ns false) (whoChip s a) c.val (whoEng a) fcode (whoEng a) (whoEng b) act detail
  nameEngines s ns false

/-! ## The rotation step (R26-R28, R33, R471) -/

/-- The engine of a set with the next higher number after `k`, wrapping (R26). -/
def nextAfter (set : List EngId) (k : Option EngId) : Option EngId :=
  match k with
  | none => set.head?
  | some k => match set.find? fun e => decide (k.val < e.val) with
    | some e => some e
    | none => set.head?

/-- The rotation set: every engine that is neither reserve nor retired. -/
def rotationSet (s : State) : List EngId :=
  allEng.filter fun n => !s.retired n && s.roles.reserve != some n

/-- The next checker marked Yes (R477). -/
def nextChecker (i : Nat) : Nat × Bool :=
  let yes := [0, 1, 2, 3, 5, 6, 7, 8, 9, 10, 11, 15]
  match yes.find? fun k => decide (i < k) with
  | some k => (k, false)
  | none => (0, true)

/-- The engine that R33 has brought in enters service at this step, its banks ENGINE's (R342): it becomes the coppice engine, or with fewer than 17 engines in
service a working one. -/
def bringInto (s : State) (e : EngId) : State :=
  let r := s.roles
  let red := decide (2 ≤ s.service)
  let w := r.working ||| (match r.coppice with
    | some k => engBit k
    | none => 0)
  { s with
    roles := { r with
      bringIn := none, reserve := none, suspended := false
      coppice := if red then none else some e
      working := if red then w ||| engBit e else w }
    engines := vupd s.engines e fun x => { x with st := .idle, idleFrom := s.now, banks := x.banks.map fun _ => default } }

/-- The roles at a step: the substitution ends; an engine whose start test has passed takes the coppice role, or in REDUCED
joins the working engines; else the role moves to the engine steered to it, or to the next one. In HALTED no role moves
(log 110). -/
def stepRoles (s : State) : State :=
  let r := { s.roles with standFor := none, noStand := false, heir := none }
  let s := { s with roles := r }
  match r.bringIn with
  | some (e, 2) =>
    let s := bringInto s e
    if s.service < 2 then { s with roles := { s.roles with place := some e, testEng := some e, gold := .due } }
    else move s
  | some _ => if r.suspended then s else move s
  | none => move s
where
  move (s : State) : State := if s.service = 3 then s else pick s s.roles
  pick (s : State) (r : Roles) : State :=
    let set := rotationSet s
    let queue := r.steer.filter fun e => set.contains e
    let cur := match r.coppice with
      | some k => some k
      | none => match r.testEng with
        | some k => some k
        | none => match r.place with
          | some k => some k
          | none => set.getLast?
    match (match queue.head? with
      | some e => some e
      | none => nextAfter set cur) with
    | none => s
    | some e =>
      let up := !s.inReset (engDomain e)
      let s := s.modEng e fun x => { x with faulty := false, st := if x.faulty && x.st == .reset && up then .idle else x.st }
      let back := match r.coppice with
        | some k => engBit k
        | none => 0
      let w := r.working ||| back
      { s with roles := { r with
          coppice := if s.service = 2 then none else some e
          working := if s.service = 2 then w else w &&& ~~~(engBit e)
          steer := queue.filter fun x => x != e
          place := some e, testEng := some e, gold := .due } }

/-- A rotation step (R26, R27, R477, R478). -/
def rotationStep (s : State) : State :=
  let s := stepRoles s
  let s := { s with
    roles := { s.roles with steps := s.roles.steps + 1, lastStepAt := some s.now }
    saf := { s.saf with chkRunning := true } }
  if testLate s then partCause s 11 else s

/-- F falls now for a live context (R565). -/
def liveF (s : State) (c : CtxId) : Bool :=
  let x := s.ctx c
  let p := us (cNat s c 0x04)
  !isMember s && (x.st == .running || (x.st == .starting && x.loading.isEmpty)) && x.run.isNone && x.lastF != some s.now &&
    if cNat s c 0x05 = 0 then s.now % p == us (cNat s c 0x06) % p else x.fDue && x.lastEdge == some s.now

/-- A rotation step falls at this frame start or timer tick, one at most at an edge (R27). -/
def stepDue (s : State) (period : Nat) : Bool :=
  s.tds.run && s.roles.lastStepAt != some s.now && (decide (1000 ≤ period) || match s.roles.lastStepAt with
    | some t => decide (t + us 1000 ≤ s.now)
    | none => true)

/-- A command that waits gives a rotation step at this edge. -/
def stepWaits (s : State) : Bool :=
  s.pending.any fun i => match i with
    | .frameStart c _ =>
      !s.replaying && liveF s c && (s.modCtx c fun x => { x with st := .running }).pacing == some c && stepDue s (cNat s c 0x04)
    | .aonFrameTimer _ => s.serves && !s.replaying && !isMember s && s.pacing.isNone && s.now % us 1000 == 0 && stepDue s 1000
    | _ => false

/-- A finding at the edge of a rotation step is judged against the roles after it (R514): a step that waits comes first (log 12). -/
def stepFirst (s : State) : State := if stepWaits s then rotationStep s else s

/-! ## Faulty engines (R30-R32, R329, R519) -/

/-- An engine found faulty by ENGINE_STOP, ENGINE_HANG or TEARDOWN (R519): its tag advances, the record is written, its
tiles are dispatched again under R30 or R31 (not after TEARDOWN), it is dumped and reset, and it takes the coppice role at
the next step for its lane test; named for the second time it is retired. -/
def engineFault (s : State) (n : EngId) (ctx fcode detail : Nat) : State :=
  if s.retired n ∨ (s.eng n).faulty then s
  else
    let redo := fcode != 0x0402
    let why := if redo then retireReason s n false else none
    let s := findFaulty s (engDomain n) fcode
    let s := fault s ctx n.val fcode n.val 0x1F
      (actDump + (if why.isSome then retireAct s [n] else (if redo && s.redoes n then actRedispatch else 0) + actReset)) detail
    let s := if redo then noteNamed s n false else s
    let s := if redo then fenceTiles s n else dropTiles s n
    let s := letGo (s.modEng n fun e => { e with faulty := true, foundAt := some s.now }) n .stopped
    match why with
    | some r => retire s n r
    | none =>
      let s := substitute s n
      let s := steerTo s n true
      { s with roles := { s.roles with laneTest := if s.roles.laneTest.contains n then s.roles.laneTest
        else s.roles.laneTest ++ [n] } }

/-! ## What is loaded on an engine (R343, R351, R352, R366) -/

/-- The code and the resident data that a context's planning image gives its engines, at the lengths that the image states. -/
def codeOf (s : State) (c : CtxId) : Bytes :=
  ((s.ctx c).plan.map fun p => padTo p.codeBytes (p.code.take p.codeBytes)).getD []
def residentOf (s : State) (c : CtxId) : Bytes :=
  ((s.ctx c).plan.map fun p => padTo p.residentBytes (p.resident.take p.residentBytes)).getD []

/-- The bytes of banks 0-3, and the bytes of the instruction RAM that contexts may use. -/
def keptBanks : Nat := 4 * 2 ^ 18
def imemBytes : Nat := 240 * 1024

/-- How many bytes some ranges hold. -/
def rangesLen (l : List (Nat × Nat)) : Nat := (l.map (·.2)).sum

/-- The first n bytes of some ranges, and what follows them. -/
def takeLen : Nat → List (Nat × Nat) → List (Nat × Nat)
  | _, [] => []
  | n, (lo, len) :: t => if n = 0 then [] else if n ≤ len then [(lo, n)] else (lo, len) :: takeLen (n - len) t
def dropLen : Nat → List (Nat × Nat) → List (Nat × Nat)
  | _, [] => []
  | n, (lo, len) :: t => if len ≤ n then dropLen (n - len) t else (lo + n, len - n) :: t

/-- The ranges from `at_` to `total` that rising ranges leave free. -/
def freeRanges (total : Nat) : Nat → List (Nat × Nat) → List (Nat × Nat)
  | at_, [] => if at_ < total then [(at_, total - at_)] else []
  | at_, (lo, len) :: t => (if at_ < lo then [(at_, min lo total - at_)] else []) ++ freeRanges total (max at_ (lo + len)) t

/-- Free ranges of `len` bytes beside those in use; which of the free ones is open (log 112). -/
def allot (total pick len : Nat) (used : List (Nat × Nat)) : List (Nat × Nat) :=
  let g := freeRanges total 0 (sortBy (fun a b => decide (a.1 < b.1)) used)
  let r := pick % max 1 (rangesLen g)
  takeLen len (dropLen r g ++ takeLen r g)

/-- The byte that stands at a place, of bytes that fill some ranges. -/
def rangeByte : List (Nat × Nat) → Bytes → Nat → Option Byte
  | [], _, _ => none
  | (lo, len) :: t, bs, a => if lo ≤ a ∧ a < lo + len then bs[a - lo]? else rangeByte t (bs.drop len) a

/-- What has been allocated: contexts and sizes. -/
def allocated (l : List (Nat × List (Nat × Nat) × Bytes)) : List (Nat × Nat) := l.map fun x => (x.1, rangesLen x.2.1)

/-- AON allocates a context's ranges in an engine (R352; log 112). -/
def Engine.allot (e : Engine) (c : CtxId) (code data : Nat) : Engine :=
  let imem := e.imem.filter fun x => x.1 != c.val
  let res := e.resident.filter fun x => x.1 != c.val
  { e with
    imem := imem ++ [(c.val, Sys2Proof.Machine.allot imemBytes (Config.codeAt (allocated imem) c.val) code (imem.flatMap (·.2.1)), [])]
    resident := res ++
      [(c.val, Sys2Proof.Machine.allot keptBanks (Config.residentAt (allocated res) c.val) data (res.flatMap (·.2.1)), [])] }

/-- A context's code and data put into the ranges allocated to it in an engine (R351, R352). -/
def Engine.load (e : Engine) (c : CtxId) (code data : Bytes) : Engine :=
  let e := if e.imem.any fun x => x.1 == c.val then e else e.allot c code.length data.length
  let put := fun (bs : Bytes) (x : Nat × List (Nat × Nat) × Bytes) => if x.1 = c.val then (x.1, x.2.1, bs) else x
  let mine := (e.resident.filter fun x => x.1 == c.val).flatMap (·.2.1)
  { e with
    imem := e.imem.map (put code), resident := e.resident.map (put data)
    spad := e.spad.filter fun k => !(mine.any fun r => decide (r.1 ≤ k.1) && decide (k.1 < r.1 + r.2)) }

/-- A context's code and data freed. -/
def Engine.unload (e : Engine) (c : CtxId) : Engine :=
  { e with imem := e.imem.filter (fun x => x.1 != c.val), resident := e.resident.filter fun x => x.1 != c.val }

/-- A byte of a scratchpad: as written last, else of a context's resident data, else undefined (R343, R353, R505). -/
def Engine.byteAt (n : EngId) (e : Engine) (a : Nat) : Byte :=
  match amGet e.spad a with
  | some b => b
  | none => match e.resident.findSome? fun x => rangeByte x.2.1 x.2.2 a with
    | some b => b
    | none => Config.spadByte n.val (e.spadGen.toList[a / 2 ^ 18]?.getD 0) a

def Engine.bytesAt (n : EngId) (e : Engine) (a len : Nat) : Bytes := (List.range len).map fun i => e.byteAt n (a + i)

/-- A working bank that is ENGINE's (R340, R343). -/
def Engine.works (e : Engine) (b : Nat) : Bool := decide (4 ≤ b) && ((e.banks.toList[b]?).any fun k => k.owner == 0)

/-- The working banks of the engine become undefined (R353, R505). -/
def Engine.undefine (e : Engine) : Engine :=
  { e with
    spad := e.spad.filter fun k => !e.works (k.1 / 2 ^ 18)
    spadGen := Vector.ofFn fun b => e.spadGen[b] + bit (e.works b.val) }

/-- Bytes put into a scratchpad; a byte written 0 stays listed, since an unwritten one reads as nobody knows. -/
def spadPut (l : List Host.Cell) (a : Nat) : Bytes → List Host.Cell
  | [] => l
  | b :: bs => spadPut (amPut l a b) (a + 1) bs

/-- How many of banks 4-15, from bank 4 on, are ENGINE's. -/
def Engine.workBanks (e : Engine) : Nat := ((e.banks.toList.drop 4).takeWhile fun k => k.owner == 0).length

/-- A golden frame starts on an engine: the working banks take the scene of the CL in force, up to the first that is not ENGINE's
(R340), and the spare lane, where it is not in service, stands in for lane STEP_SEQ mod 64 (R353, R463, R466). -/
def goldenStart (s : State) (n : EngId) : State :=
  s.modEng n fun e =>
    let e := e.undefine
    { e with
      spad := spadPut e.spad keptBanks ((Config.goldenScene s.boot.cl).take (e.workBanks * 2 ^ 18))
      goldLane := if e.spareUsed then none else some (s.roles.steps % 64) }

/-- Instruction RAM that the loaded contexts use, in units of 64 B (R366). -/
def imemUsed (s : State) (loaded : BitVec 16) : Nat :=
  ((allCtx.filter fun c => loaded.toNat.testBit c.val).map fun c =>
    ceilDiv (((s.ctx c).plan.map (·.codeBytes)).getD 0) 64).sum

/-- The contexts loaded on an engine change (R351, R352, R366). -/
def setLoaded (s : State) (n : EngId) (c : CtxId) (on : Bool) : State :=
  let m := BitVec.ofNat 16 (2 ^ c.val)
  let l := (s.eng n).ctxLoaded
  let l := if on then l ||| m else l &&& ~~~m
  s.modEng n fun e =>
    let e := if on then e.load c (codeOf s c) (residentOf s c) else e.unload c
    { e with ctxLoaded := l, imemUsed := imemUsed s l }

/-- The engines that a context is loaded on (R351). -/
def loadEngines (s : State) : List EngId := allEng.filter fun n => s.working n || s.roles.coppice == some n

/-- Every bank of a working or coppice engine is ENGINE's, as it is while a context runs (R342; log 114). -/
def giveBanks (s : State) : State :=
  (loadEngines s).foldl (fun s n => s.modEng n fun e => { e with banks := e.banks.map fun k => { k with owner := 0 } }) s

/-- No context's code or data is loaded on any engine (R352). -/
def unloadAll (s : State) : State := allCtx.foldl (fun s c => allEng.foldl (fun s n => setLoaded s n c false) s) s

/-- The first 128 bits of SHA-512 over the output records of a golden frame (R463). -/
def goldenHash (records : Bytes) : Bytes := digest128 records

/-- The digest that the golden frame must give at the CL in force (R464). -/
def goldenExpected (s : State) : Bytes := goldenHash (Config.goldenRecords s.boot.cl)

/-- The golden frame of an engine fails: it is retired at once (R464). DETAIL 1 digest, 2 no digest, 3 stop. -/
def goldenFail (s : State) (n : EngId) (detail : Nat) : State :=
  if s.retired n then s
  else
    let s := advanceTag (stepFirst s) (engDomain n)
    let s := fault s 0xFF n.val 0x0103 n.val 0x1F (retireAct s [n]) detail
    let s := noteNamed s n false
    let f := s.saf
    let s := { s with saf := { f with
      gfFail := wrapInc 32 f.gfFail, gfFails := satAdd 65535 f.gfFails 1, lastEng := n.val, lastPass := false } }
    let s := match s.goldenTile n with
      | some t => s.dropTile t.handle
      | none => s
    retire s n retGolden

/-- The tile registers of an engine (R365). A tile of no context, or without a sequence number, leaves them open (log 5). -/
def tileRegs (s : State) (n : EngId) (t : Tile) : State :=
  let (a, s) := s.free 4
  let (b, s) := s.free 24
  let (c, s) := s.free 32
  let numbered := t.station = stCheck ∨ t.station = stScore
  s.modEng n fun e =>
    { e with
      tileSeq := if numbered then t.seq else b.toNat, tileStation := t.station
      tileCtx := if t.ctx < 16 then t.ctx else a.toNat, tileFrame := if t.ctx < 16 then t.frame % 2 ^ 32 else c.toNat }

/-- A golden frame passes: its age starts again; the slot of REDUCED lasts on (R464, R465, R472). -/
def goldenPass (s : State) (n : EngId) : State :=
  let f := s.saf
  let s := s.modEng n fun e => { e with gfFrom := s.aoclk }
  let s := { s with saf := { f with gfPass := wrapInc 32 f.gfPass, lastEng := n.val, lastPass := true } }
  let s := match s.goldenTile n with
    | some t => if t.status = .held n then s.modTile t.handle fun t => { t with discard := true } else s.dropTile t.handle
    | none => s
  if s.roles.testEng = some n ∧ s.service ≠ 2 then { s with roles := { s.roles with gold := .ended } } else s

/-- GOLDEN_DIGEST: the digest over the output records of a golden frame that runs on the engine, or of the start test of the
engine being brought in, is compared with the expected one for the CL in force. The engine brought in then loads every running
context (R351). -/
def goldenDigestEffect (n : EngId) (records : Bytes) (s : State) : State :=
  let good := goldenHash records == goldenExpected s
  if s.roles.bringIn = some (n, 1) then
    if good then
      let s := goldenPass (engFreeFlags s n) n
      let s := (allCtx.filter fun c => (s.ctx c).active).foldl (fun s c => setLoaded s n c true)
        (s.modEng n fun e => { e with clipStep := s.roles.steps, goldLane := none, tileStation := 0, st := .idle, idleFrom := s.now })
      { s with roles := { s.roles with bringIn := some (n, 2) } }
    else goldenFail s n 1
  else match s.goldenTile n with
    | some t => if t.discard then s else if good then goldenPass s n else goldenFail s n 1
    | none => s

def execGoldenDigest (n : EngId) (records : Bytes) (s : State) : Out := .next (goldenDigestEffect n records s)

/-- GOLDEN_TIMEOUT: no digest within 48,000 ACLK of the start (R464). -/
def goldenTimeoutEffect (n : EngId) (s : State) : State :=
  match s.goldenTile n with
  | some t => if !t.discard ∧ t.since + 48000 ≤ s.now then goldenFail s n 2 else s
  | none => if s.roles.bringIn = some (n, 1) ∧ s.roles.bringAt + 48000 ≤ s.now then goldenFail s n 2 else s

def execGoldenTimeout (n : EngId) (s : State) : Out := .next (goldenTimeoutEffect n s)

/-- GOLDEN_SLOT_END: in REDUCED the slot ends after 25,000 ACLK, or with its golden frame if that is later (R472). -/
def goldenSlotEndEffect (s : State) : State :=
  match s.roles.gold, s.roles.testEng with
  | .running start, some n =>
    let busy := match s.goldenTile n with
      | some t => !t.discard || t.status == .held n
      | none => false
    if s.service = 2 ∧ start + 25000 ≤ s.now ∧ !busy then { s with roles := { s.roles with gold := .ended } } else s
  | _, _ => s

def execGoldenSlotEnd (s : State) : Out := .next (goldenSlotEndEffect s)

/-! ## The lane test (R333, R520) -/

/-- The engine may run its lane test: in the coppice or test role, its dump and its reset over (R519), or being brought in. -/
def laneTestDue (s : State) (n : EngId) : Bool :=
  s.roles.laneTest.contains n && !(s.eng n).faulty && !s.faults.resetDue.contains (engDomain n) && !s.inReset (engDomain n) &&
    (s.roles.testEng == some n || s.roles.bringIn == some (n, 0))

/-- LANE_TEST_COMPLETE: `failing` lists the lanes that fail (64: the spare). -/
def laneTestEffect (n : EngId) (failing : List (Fin 65)) (s : State) : State :=
  if !laneTestDue s n then s
  else
    let done := fun (s : State) => { s with roles := { s.roles with
      laneTest := s.roles.laneTest.filter fun e => e != n
      bringIn := if s.roles.bringIn = some (n, 0) then some (n, 1) else s.roles.bringIn
      bringAt := if s.roles.bringIn = some (n, 0) then s.now else s.roles.bringAt } }
    -- the start test of an engine brought in, whose banks are ENGINE's since it was powered, goes on with its golden frame (R476)
    let done := fun (s : State) =>
      if s.roles.bringIn = some (n, 0) then
        let s := (done s).modEng n fun e => { e with st := .run, banks := e.banks.map fun _ => default }
        goldenStart (tileRegs s n { (default : Tile) with ctx := 16, station := stGolden }) n
      else done s
    match failing with
    | [] => done s
    | l :: rest =>
      if rest = [] ∧ l.val < 64 ∧ !(s.eng n).spareUsed then
        let s := (fault s 0xFF n.val 0x0108 n.val 0x1F 0 (failing.length + 256 * l.val)).modEng n fun e => { e with spareUsed := true, lane := l.val }
        done (writeWear { s with wear := { s.wear with engLane := vupd s.wear.engLane n fun _ => l.val + 1 } })
      else
        let s := stepFirst s
        retire (fault (advanceTag s (engDomain n)) 0xFF n.val 0x0108 n.val 0x1F (retireAct s [n]) (failing.length + 256 * l.val)) n
          retOther

def execLaneTestComplete (n : EngId) (failing : List (Fin 65)) (s : State) : Out := .next (laneTestEffect n failing s)

/-! ## The run-time tests of the checkers (R477) -/

/-- CHECKER_TEST_COMPLETE: the run-time test of the checker that is due ends (R477). -/
def checkerTestEffect (fail : Bool) (s : State) : State :=
  if !s.saf.chkRunning then s
  else
    let f := s.saf
    let (k, whole) := nextChecker f.nextChk
    let s' := { s with saf := { f with
      runFail := if fail then f.runFail ||| BitVec.ofNat 16 (2 ^ f.nextChk) else f.runFail
      nextChk := k, chkRunning := false
      cycles := if whole then (f.cycles + 1) % 4096 else f.cycles
      cycleFrom := if whole then s.roles.steps else f.cycleFrom } }
    if fail then partCause s' 9 else s'

def execCheckerTestComplete (fail : Bool) (s : State) : Out := .next (checkerTestEffect fail s)

end Sys2Proof.Machine
end

