-- ==== Sys2Proof/Machine/Stations.lean ====
section
/-! DEFINITION. What the stations of a frame do when a tile commits: GROW's waves, CHECK, SCORE, SELECT and SMOOTH
(R45, R48, R183-R194, R209-R218, R220-R240, R245, R259-R261, R270, R277, R384). -/

namespace Sys2Proof.Machine

/-! ## The frame in progress -/

def State.run (s : State) (c : CtxId) : Option FrameRun := (s.ctx c).run
def State.setRun (s : State) (c : CtxId) (r : FrameRun) : State := s.modCtx c fun x => { x with run := some r }

/-- The publication that a frame plans against (R88). -/
def framePub (s : State) (r : FrameRun) : Option Pub := s.world.pubs.find? fun p => p.tick == r.tf

/-- What CHECK reads: the frame's snapshot, with the places whose entry is a world fault (R61, R88, R96). -/
def frameView (s : State) (r : FrameRun) (bad : List Nat) : View :=
  match framePub s r with
  | some p => { g := p.geom, cr := p.crown, fc := if r.stale then none else p.fc.map (·.cells), a := r.a, bad := bad }
  | none => { g := s.world.geom, cr := s.world.crown, fc := none, a := 0, bad := bad }

/-- The exponents of the context's active roadmap. -/
def frameQexp (s : State) (c : CtxId) : List Nat := qexpOf s c

/-- A tile of the frame in progress. -/
def frameTile (c : CtxId) (r : FrameRun) (station seq : Nat) : Tile :=
  { (default : Tile) with ctx := c.val, frame := r.frame, station := station, seq := seq, status := .ready }

/-- A tile, or both copies of a cross-checked one (R209, R211). -/
def addTiles (s : State) (t : Tile) (xchk : Bool) : State :=
  if xchk then addTile (addTile s { t with xchk := true }) { t with xchk := true, copyB := true } else addTile s t

/-- A CHECK tile is cross-checked (R209). -/
def crossChecked (s : State) (c : CtxId) (frame seq : Nat) : Bool :=
  cNat s c 0x2B != 0 && (frame + seq) % cNat s c 0x2B == 0

/-- A NO_PATH outcome is decided; nothing of the frame runs on (R216-R218, R240, R302). -/
def frameFails (s : State) (c : CtxId) (status : Nat) : State :=
  match s.run c with
  | none => s
  | some r => if r.ready.isSome then s
    else endTiles (s.modRun c fun r => { r with ready := some (.noPath status) }) c r.frame

/-! ## Faults that tiles meet -/

/-- An entry read with an uncorrectable error from both copies (R169). -/
def tableFault (s : State) (c : CtxId) (physical : Nat) : State :=
  (fault s c.val 20 0x0203 0x1F 0x1F 0 physical).modRm c fun r => { r with tableFaults := wrapInc 32 r.tableFaults }

/-- The unreadable edges among some edges, each counted and recorded. -/
def edgeFaults (s : State) (c : CtxId) (edges : List Nat) (d : TileDefect) : State :=
  (edges.filter fun e => d.entries.contains (false, e)).foldl
    (fun s e => tableFault s c (edgeFirst s c (s.ctx c).rm.activePart + e)) s

/-- The places found to be a world fault, each recorded under its crown cell (R61, R516). -/
def worldFaults (s : State) (places : List Nat) : State :=
  places.foldl (fun s k => fault s 0xFE 20 0x0201 0x1F 0x1F 0 (descPlace (k * 512)).c) s

/-- An uncorrectable error at an offset in the search region (R218, R516). -/
def searchFault (s : State) (c : CtxId) (off : Nat) : State := frameFails (fault s c.val 20 0x0204 0x1F 0x1F 0 off) c 0x0305

/-! ## Commit logs (R384) -/

/-- The log of a frame cleared at its snapshot. -/
def logClear (s : State) (c : CtxId) (frame : Nat) : State :=
  { s with tds := { s.tds with logs := vupd s.tds.logs c fun l =>
      if frame % 2 = 0 then { l with even := [] } else { l with odd := [] } } }

/-- The entry of a tile in the log of a frame. -/
def logGet (s : State) (c : CtxId) (frame seq : Nat) : Option LogEntry :=
  let l := s.tds.logs[c]
  amGet (if frame % 2 = 0 then l.even else l.odd) seq

/-! ## The search and rank regions (R176, R222, R239) -/

/-- The record and the score of a candidate's position written. -/
def putCand (s : State) (c : CtxId) (r : FrameRun) (x : Cand) : State :=
  (storePut s 7 c (2 ^ 20 + 32 * r.posOf x.cidx) x.bytes).modCtx c fun y =>
    { y with searchRecs := max y.searchRecs (r.posOf x.cidx + 1) }
def putScore (s : State) (c : CtxId) (r : FrameRun) (cidx : Nat) (cost : Word) : State :=
  storePut s 8 c (4 * r.posOf cidx) (leBytes 4 cost.toNat)
/-- New candidates: their records as GROW gives them, no score. -/
def putNew (s : State) (c : CtxId) (r : FrameRun) (xs : List Cand) : State :=
  xs.foldl (fun s x => putScore (putCand s c r x) c r x.cidx 0xFFFFFFFF) s

/-! ## SELECT (R231-R240) -/

def selK (s : State) (c : CtxId) : Nat := cNat s c 0x40

/-- An attempt of SMOOTH made ready (R245, R294). -/
def smoothTile (s : State) (c : CtxId) (r : FrameRun) (j : Nat) : State := addTile s (frameTile c r stSmooth j)

/-- The root list is there: it is written, and rank 0 goes to SMOOTH (R237-R241). -/
def rootDone (s : State) (c : CtxId) (l : RankList) : State :=
  match s.run c with
  | none => s
  | some r =>
    let cm := ((s.ctx c).plan.map (·.candMax)).getD 0
    let s := s.setRun c { r with selected := some l, tie := tieAtK (selK s c) l, attempt := 0 }
    let s := storePut s 8 c (4 * cm) (rankListBytes l.entries)
    let s := s.modCtx c fun x => { x with rankList := l.entries }
    if l.entries.isEmpty then frameFails s c 0x0401 else smoothTile s c r 0

/-- A node of the reduction tree has its list: it is the root, or its parent's merge step may become ready (R233). -/
def offerNode (s : State) (c : CtxId) (level node : Nat) : State :=
  match s.run c with
  | none => s
  | some r =>
    let sib := if node % 2 = 0 then node + 1 else node - 1
    match r.listAt level node with
    | none => s
    | some l =>
      if r.searchDone ∧ level = rootLevel r.nextTile then rootDone s c l
      else if (r.listAt level sib).isSome then
        addTile s { frameTile c r stSelect 0 with level := level + 1, node := node / 2 }
      else s

/-- The list of a node stored. -/
def putList (s : State) (c : CtxId) (level node : Nat) (l : RankList) : State :=
  offerNode (s.modRun c fun r => { r with lists := r.lists ++ [(level, node, l)] }) c level node

/-- A SELECT merge step commits (R232, R235). -/
def mergeCommit (s : State) (c : CtxId) (t : Tile) : State :=
  match s.run c with
  | none => s
  | some r =>
    if r.ready.isSome then s else
    match r.listAt (t.level - 1) (2 * t.node), r.listAt (t.level - 1) (2 * t.node + 1) with
    | some p, some q =>
      let edgeOf := fun i => match r.cand i with
        | some x => x.edge
        | none => 0xFFFFFFFF
      let (l, dups) := mergeLists (selK s c) edgeOf p q
      -- the engine that committed the score tile of a candidate
      let engOf := fun (i : Nat) => ((r.tileSlots.find? fun x => x.2.contains i).bind fun x =>
        (r.scoredBy.find? fun y => y.1 == x.1).map (·.2) : Who)
      let s := dups.foldl (fun s d =>
        let s := s.modCnt c fun n => { n with dupEdge := wrapInc 32 n.dupEdge }
        mismatch s c 0x0106 (engOf d.2) (engOf d.1) (edgeOf d.1)) s
      putList s c t.level t.node l
    | _, _ => s

/-! ## GROW (R183-R189) -/

/-- The search is over: NO_CANDIDATE, or the tree is completed by its empty leaves (R217, R233). -/
def finishSearch (s : State) (c : CtxId) (r : FrameRun) : State :=
  let s := s.setRun c { r with searchDone := true }
  if !(r.cands.any Cand.pass) then frameFails s c 0x0304
  else
    let top := rootLevel r.nextTile
    if top = 0 then offerNode s c 0 0
    else if (r.listAt top 0).isSome then offerNode s c top 0
    else
      -- the leaves at and beyond T hold empty lists; their pairs merge
      let pairs := (List.range (2 ^ (top - 1))).filter fun j => decide (r.nextTile ≤ 2 * j + 1)
      pairs.foldl (fun s j => offerNode s c 0 (2 * j)) s

/-- A CHECK tile made known, with its empty log entry (R188, R209). -/
def addCheck (s : State) (c : CtxId) (r : FrameRun) (seq : Nat) : State :=
  addTiles s (frameTile c r stCheck seq) (crossChecked s c r.frame seq)

/-- PQ_EVICT and CAP_HIT follow the search (R181, R187): what one step of it, from `r` to `r'`, dropped and whether it cut. -/
def countSearch (s : State) (c : CtxId) (r r' : FrameRun) : State :=
  s.modCnt c fun n => { n with
    pqEvict := (n.pqEvict + (r'.evicts - r.evicts)) % 2 ^ 32, capHit := (n.capHit + bit (r'.cut && !r.cut)) % 2 ^ 32 }

/-- Some CHECK tile of the frame has not committed, or the GROW tile that is to give them has not (R183). -/
def waveOpen (s : State) (c : CtxId) (r : FrameRun) : Bool :=
  s.tds.tiles.any fun t => t.ctx == c.val && t.frame == r.frame && (t.station == stCheck || t.station == stGrow) && !t.discard

/-- The wave barrier (R189) and the waves that follow it: pushes, pops, and the GROW tile of the next wave, which gives the wave's CHECK
tiles when it commits (R45, R381; DEDUCED, log 8). A wave without candidates is over at once. `bad` lists nodes that are unreadable from
both copies. -/
def nextWaves (c : CtxId) (bad : List Nat) : Nat → State → State
  | 0, s => s
  | fuel + 1, s =>
    match s.run c with
    | none => s
    | some r =>
      if r.ready.isSome || r.searchDone || waveOpen s c r then s
      else
        let r0 := r
        let r := if r.wave = 0 then r else pushWave s c r r.wave
        if r.waves ≤ r.wave then finishSearch (countSearch s c r0 r) c r
        else
          let q := popWave s c bad (r.wave + 1) (r.pq.length + 1) 0 0 { r with wave := r.wave + 1 }
          let tiles := q.tilesOf q.wave
          let q := { q with nextTile := q.nextTile + tiles.length, tileSlots := q.tileSlots ++ tiles }
          let s := (countSearch s c r0 q).setRun c q
          let hurt := bad.filter fun k => (q.nodeSt k).closed && !(r.nodeSt k).closed
          let s := hurt.foldl (fun s k => tableFault s c (nodeFirst s c (s.ctx c).rm.activePart + k)) s
          let s := putNew s c q (q.waveCands q.wave)
          match tiles with
          | [] => nextWaves c bad fuel s
          | t :: _ => addTile s (frameTile c q stGrow t.1)

/-- More waves than a frame has. -/
def waveFuel : Nat := 256

/-- A GROW tile commits: the CHECK tiles of its wave become ready (R45, R188). -/
def growCommit (s : State) (c : CtxId) (t : Tile) : State :=
  match s.run c with
  | none => s
  | some r =>
    if r.ready.isSome then s
    else (r.tileSlots.filter fun x => decide (t.seq ≤ x.1)).foldl (fun s x => addCheck s c r x.1) s

/-! ## CHECK (R193-R215) -/

/-- A CHECK record as an engine with a defect gives it. -/
def defectRec (d : TileDefect) (x : Cand) : Cand :=
  let x := match d.checks.find? fun y => y.1 == x.cidx with
    | some (_, cl, fl) => { x with clear := cl, flags := BitVec.ofNat 16 fl }
    | none => x
  match d.edges.find? fun y => y.1 == x.cidx with
  | some (_, e) => { x with edge := e }
  | none => x

/-- The unreadable edges of a tile. -/
def unreadEdges (d : TileDefect) : List Nat := (d.entries.filter fun x => !x.1).map (·.2)

/-- The liberty that a RELAXED frame leaves to CHECK for one candidate (R214): it may be skipped where a passing candidate of its
wave that has committed reaches its NODE_B with a key no greater, unless it is a goal; its queries may stop early. -/
def libertyOf (s : State) (c : CtxId) (r : FrameRun) (d : TileDefect) (x : Cand) : Liberty :=
  let node := fun (y : Cand) => (s.edge c y.edge).nodeB
  let reached := r.cands.any fun y =>
    y.pass && y.cidx / 2 ^ 24 == x.cidx / 2 ^ 24 && y.cidx != x.cidx && node y == node x && fle fp32 (ofWord y.key) (ofWord x.key)
  if !r.relaxed then .exact
  else if d.skipped.contains x.cidx && x.cidx != 0 && reached && !goalTest s c (node x) then .skip
  else if d.early.contains x.cidx then .early
  else .exact

/-- The candidates of a tile. -/
def FrameRun.tileCands (r : FrameRun) (seq : Nat) : List Cand :=
  match r.tileSlots.find? fun x => x.1 == seq with
  | some (_, l) => l.filterMap r.cand
  | none => []

/-- The records that a tile's engine gives. -/
def checkRecords (s : State) (c : CtxId) (r : FrameRun) (plan : PlanImage) (seq : Nat) (d : TileDefect) : List Cand :=
  (r.tileCands seq).map fun x =>
    defectRec d (checkCand s c (frameView s r d.world) plan (frameQexp s c) r (unreadEdges d) (libertyOf s c r d x) x)

/-- The narrow phases of a tile, by candidate: their number and flags. -/
def narrowTile (s : State) (c : CtxId) (r : FrameRun) (plan : PlanImage) (seq : Nat) (d : TileDefect) : List (Nat × Nat) :=
  (r.tileCands seq).map fun x =>
    narrowOf s c (frameView s r d.world) plan (frameQexp s c) r (unreadEdges d) (libertyOf s c r d x) x

/-- The edges that a tile reads. -/
def tileEdges (r : FrameRun) (seq : Nat) : List Nat :=
  (r.tileCands seq).flatMap fun x => if x.cidx = 0 then r.suffix else [x.edge]

/-- A record of a tile whose two copies match: XCHK 1 (R210). -/
def flagXchk (x : Cand) : Cand := { x with flags := x.flags ||| 8 }
/-- A record that differs between the copies: PASS 0, F_XCHK 1 (R210). -/
def flagDiffer (x : Cand) : Cand := { x with flags := (x.flags &&& ~~~(1#16)) ||| 0x100 }

/-- The records of two copies joined (R210): of one that differs, which copy's record stands is a free choice. The Boolean tells
whether any differs. -/
def joinCopies : State → List (Cand × Cand) → List Cand × Bool × State
  | s, [] => ([], false, s)
  | s, (a, b) :: t =>
    if a = b then
      let (l, bad, s) := joinCopies s t
      (a :: l, bad, s)
    else
      let (v, s) := s.free 1
      let (l, _, s) := joinCopies s t
      (flagDiffer (if v = 0 then a else b) :: l, true, s)

/-- The final records of a tile in place; its score tile is made ready, or its leaf is empty (R189, R220, R221). -/
def checkDone (s : State) (c : CtxId) (seq : Nat) (xchk : Bool) (recs : List Cand) : State :=
  match s.run c with
  | none => s
  | some r =>
    let r := { r with cands := r.cands.map fun x => (recs.find? fun y => y.cidx == x.cidx).getD x }
    let s := recs.foldl (fun s x => putCand s c r x) (s.setRun c r)
    if recs.any Cand.pass then addTiles s (frameTile c r stScore seq) xchk else putList s c 0 seq emptyList

/-- What the reads of one copy of a tile met, recorded when that copy commits (R61, R169, R218). CHECK reads edges and the world,
SMOOTH the edges of its path; an error in the search region fails the frame at whichever station meets it. -/
def tileFaults (s : State) (t : Tile) (d : TileDefect) : State :=
  if 16 ≤ t.ctx then s
  else
    let c : CtxId := Fin.ofNat 16 t.ctx
    match s.run c with
    | none => s
    | some r =>
      let s := if t.station = stCheck then worldFaults (edgeFaults s c (tileEdges r t.seq) d) d.world else s
      match d.search with
      | some off => searchFault s c off
      | none => s

/-- A CHECK tile commits (R45, R189, R193-R210). `first` is the copy that had committed before, for a cross-checked tile:
its engine and what went wrong in it. A frame that has failed takes nothing more. -/
def checkCommit (s : State) (c : CtxId) (t : Tile) (n : Nat × EngId) (d : TileDefect)
    (first : Option ((Nat × EngId) × TileDefect)) : State :=
  match s.run c, (s.ctx c).plan with
  | some r, some plan =>
    if r.ready.isSome then s
    else
      let nar := ((narrowTile s c r plan t.seq d).map (·.1)).sum
      let s := s.modRun c fun r => { r with narrow := r.narrow + nar }
      let mine := checkRecords s c r plan t.seq d
      let bad := (d.entries.filter (·.1)).map (·.2)
      match first with
      | none => nextWaves c bad waveFuel (checkDone s c t.seq false mine)
      | some (m, e) =>
        let other := checkRecords s c r plan t.seq e
        let (a, b) := if t.copyB then (other, mine) else (mine, other)
        let (ea, eb) := if t.copyB then (m, n) else (n, m)
        let (both, differ, s) := joinCopies s (a.zip b)
        -- XCHK tells that the two copies match (log 39)
        let recs := if differ then both else both.map flagXchk
        let s := if differ then
            mismatch (s.modCnt c fun k => { k with xchkMismatch := wrapInc 32 k.xchkMismatch }) c 0x0104 (some ea) (some eb) t.seq
          else s
        nextWaves c bad waveFuel (checkDone s c t.seq true recs)
  | _, _ => s

/-! ## SCORE (R220-R234) -/

/-- The costs that a score tile's engine gives: CIDX, cost, flags. -/
def scoreCosts (s : State) (c : CtxId) (r : FrameRun) (plan : PlanImage) (seq : Nat) (d : TileDefect) :
    List (Nat × Word × Nat) :=
  ((r.tileCands seq).filter Cand.pass).map fun x =>
    let y := costNum s c r plan x
    match d.costs.find? fun z => z.1 == x.cidx with
    | some (_, w) => (x.cidx, w, y.fl)
    | none => (x.cidx, canonCost y, y.fl)

/-- The flags that a GROW, CHECK or score tile's arithmetic raises in its engine (R359). -/
def tileFlags (s : State) (t : Tile) (d : TileDefect) : Nat :=
  let c : CtxId := Fin.ofNat 16 t.ctx
  match s.run c, (s.ctx c).plan with
  | some r, some plan =>
    if r.frame ≠ t.frame ∨ 16 ≤ t.ctx then 0
    else if t.station = stGrow then growFlags s c r r.wave
    else if t.station = stCheck then (narrowTile s c r plan t.seq d).foldl (fun f x => f ||| x.2) 0
    else if t.station = stScore then (scoreCosts s c r plan t.seq d).foldl (fun f x => f ||| x.2.2) 0
    else 0
  | _, _ => 0

/-- The costs of two copies joined (R234): the costs, those that agree, and the candidates that differ. Which of two
differing costs the score plane shows is a free choice. -/
def joinCosts : State → List ((Nat × Word) × (Nat × Word)) → List (Nat × Word) × List (Nat × Word) × List Nat × State
  | s, [] => ([], [], [], s)
  | s, (a, b) :: t =>
    if a.2 = b.2 then
      let (all, good, bad, s) := joinCosts s t
      (a :: all, a :: good, bad, s)
    else
      let (v, s) := s.free 1
      let (all, good, bad, s) := joinCosts s t
      ((if v = 0 then a else b) :: all, good, a.1 :: bad, s)

/-- A score tile commits (R222, R228-R231, R234). -/
def scoreCommit (s : State) (c : CtxId) (t : Tile) (n : Nat × EngId) (d : TileDefect)
    (first : Option ((Nat × EngId) × TileDefect)) : State :=
  match s.run c, (s.ctx c).plan with
  | some r, some plan =>
    if r.ready.isSome then s else
    let mine : List (Nat × Word × Nat) := scoreCosts s c r plan t.seq d
    let mine : List (Nat × Word) := mine.map fun x => (x.1, x.2.1)
    let other := fun (e : TileDefect) => (scoreCosts s c r plan t.seq e).map fun x => (x.1, x.2.1)
    let joined : List (Nat × Word) × List (Nat × Word) × List Nat × State := match first with
      | none => (mine, mine, [], s)
      | some (_, e) => joinCosts s (if t.copyB then (other e).zip mine else mine.zip (other e))
    let (all, good, bad, s) := joined
    let (ea, eb) : Who × Who := match first with
      | none => (some n, none)
      | some (m, _) => if t.copyB then (some m, some n) else (some n, some m)
    let nans := (all.filter fun x => x.2 == nanCost).length
    let s := s.modCnt c fun k =>
      { k with nanCount := (k.nanCount + nans) % 2 ^ 32, scoreMismatch := (k.scoreMismatch + bad.length) % 2 ^ 32 }
    let s := bad.foldl (fun s i => mismatch s c 0x0105 ea eb i) s
    let s := all.foldl (fun s x => putScore s c r x.1 x.2) s
    let s := s.modRun c fun r =>
      { r with scores := r.scores ++ all, dropped := r.dropped + bad.length
               scoredBy := match ea with
                 | some e => r.scoredBy ++ [(t.seq, e)]
                 | none => r.scoredBy }
    putList s c 0 t.seq (bestOf (selK s c) (good.map fun x => (x.2, x.1)))
  | _, _ => s

/-! ## SMOOTH (R245, R259-R261, R270, R277, R278) -/

/-- The start time of a path: T_ENTER of its first edge (R246). -/
def pathStart (s : State) (c : CtxId) (r : FrameRun) (cidx : Nat) : Nat :=
  match (chainOf r 33 cidx).head? with
  | some x => x.tEnter
  | none => startDelay s c

/-- An attempt's block and summary in place; its verification may start (R277, R278). -/
def smoothDone (s : State) (c : CtxId) (j : Nat) (b : TrajBlock) (sum : SolverSum) : State :=
  let s := s.modRun c fun r =>
    let fix := satAdd 65535 r.pivots sum.pivotFix
    { r with attempt := j, block := some b, pivots := fix, verifying := false
             sum := { sum with attempts := j + 1, pivotFix := fix } }
  storePut (s.modCtx c fun x => { x with block := some b }) 9 c 16384 b.bytes

/-- A SMOOTH tile commits: attempt `t.seq`. -/
def smoothCommit (s : State) (c : CtxId) (t : Tile) (n : Option EngId) (d : TileDefect) : State :=
  match s.run c, (s.ctx c).plan with
  | some r, some plan =>
    if r.ready.isSome then s else
    match r.selected.bind fun l => l.entries[t.seq]? with
    | none => s
    | some (_, cidx) =>
      let path := pathOf r 33 cidx
      let t0 := pathStart s c r cidx
      let s := if d.cache then
          fault (s.modCtx c fun x => { x with cache := none }) c.val 20 0x0205 0x1F 0x1F 0 0
        else s
      let s := edgeFaults s c path d
      if path.any fun e => (unreadEdges d).contains e then
        smoothDone s c t.seq (noBlock r.axes t0 cidx) { (default : SolverSum) with kind := 2, reason := 5 }
      else
        let a := attempt (solveIn s c plan path t0) cidx (s.ctx c).cache r.lastM
        let s := match n with
          | some n => engFlags s n a.fl
          | none => s
        let s := match a.act with
          | .keep => s
          | .invalidate => (s.modCtx c fun x => { x with cache := none }).modRun c fun r => { r with lastM := 0 }
          | .write k => (s.modCtx c fun x => { x with cache := some k }).modRun c fun r => { r with lastM := a.sum.m }
        smoothDone s c t.seq a.block a.sum
  | _, _ => s

end Sys2Proof.Machine
end

