-- ==== Sys2Proof/Machine/Frames.lean ====
section
/-! DEFINITION. Frame starts (R16, R27, R423-R425, R434-R437, R462, R473, R565, R650, R651), SYNC_IN (R565), the AON frame
timer (R27, R82), snapshots (R87, R88, R94-R96, R172-R194, R216) and verification attempts (R280-R302). -/

namespace Sys2Proof.Machine

/-! ## What a replay looks up (R434-R437) -/

/-- The items of an OD_APPLY entry (R427). -/
def odItems : Nat → Bytes → List (Nat × Nat × Bytes)
  | 0, _ => []
  | fuel + 1, bs =>
    if bs.length < 5 then []
    else
      let n := u bs 3 2
      (u bs 0 2, u bs 2 1, slice bs 5 n) :: odItems fuel (bs.drop (5 + n))

/-- The planning image that a handle names. -/
def planOf (s : State) (handle : Nat) : Option PlanImage := (goodImage s 1 handle).bind Config.planImage

/-- The digest of a registered image. -/
def imageDigest (s : State) (handle : Nat) : Bytes :=
  match s.images.toList.find? fun e => e.handle == handle && e.st == 2 with
  | some e => e.digest.take 16
  | none => zeros 16

/-- PLAN_IMAGE: the objects of R715 take the values of a VALID planning image, and SMOOTH_ITER its ITER_PLAN; 0 returns
them to 0. -/
def planWritten (s : State) (c : CtxId) (handle : Nat) : State :=
  let put := fun (plan : Option PlanImage) (digest : Bytes) (iter : Nat) =>
    setObj (s.modCtx c fun x => { x with plan := plan, planDigest := digest }) (0x2000 + c.val) 0x60 (leBytes 1 iter)
  if handle = 0 then put none (zeros 16) 0
  else match planOf s handle with
    | some plan => put (some plan) (imageDigest s handle) plan.iterPlan
    | none => s

/-- A recorded object value written as its port wrote it (R151, R435): a planning image, LIBRARY and a camera record act as when written. The
frame boundary at this edge takes it. -/
def replayItem (s : State) (x : Nat × Nat × Bytes) : State :=
  let (i, sub, v) := x
  let s := setObj s i sub v
  let s := { s with edgeShadow := amPut s.edgeShadow (objKey i sub) v }
  match objCtx i with
  | (some c, 0x2000) => if sub = 0x03 then planWritten s c (leNat v) else s
  | (some c, 0x2201) => if sub = 0x06 then s.modRm c fun r => { r with failed := [] } else s
  | (none, 0x2101) =>
    if h : 0 < sub ∧ sub - 1 < 16 then s.modStream ⟨sub - 1, h.2⟩ fun x => { x with rec_ := some (parseCam v) } else s
  | _ => s

/-- Recorded values written: the live ones, which take effect at a frame boundary, or the frozen ones, which do so at once
(R427, R435). -/
def applyItems (s : State) (live : Bool) (es : List RecEntry) : State :=
  es.foldl (fun s e => ((odItems e.payload.length (e.payload.drop 6)).filter fun x =>
    ((objDef x.1 x.2.1).any fun d => d.acc == .rwf) == live).foldl replayItem s) s

/-- An entry of context c names the frame of number `frame` that the recording began at `tick`: FRAME is its first field, and where the
recording holds an earlier frame of that number, it comes after it. -/
def ofFrame (s : State) (c : CtxId) (frame tick : Nat) : RecEntry → Bool :=
  let before := ((recFrames s c).take s.recorder.nextFr[c]).filter fun e => e.frame == frame && decide (e.tick < tick)
  fun e => u e.payload 0 6 == frame && decide (e.tick ≤ tick) && before.all fun b => decide (b.tick < e.tick)

/-- The ROADMAP entries of a frame: operation and payload (R427). -/
def recordedRm (s : State) (c : CtxId) (frame tick : Nat) : List (Nat × Bytes) :=
  let here := ofFrame s c frame tick
  (allEntries s (fun e => e.ty == 0x0A && e.src == c.val && here e) ringFuel 0).map fun e =>
    (u e.payload 6 1, e.payload.drop 7)

/-- The stop trajectory of a FRAME entry, its times brought back to its FROM_FRAME (R314, R437). -/
def recordedStop (s : State) (c : CtxId) (e : Bytes) : StopTraj :=
  let b := slice e 164 128
  let axes := u b 1 1
  let d : Int := ((u e 4 6 : Int) - u b 2 6) * cNat s c 0x04
  { kind := u b 0 1, fromFrame := u b 2 6, t0 := si b 16 4 + d, x0 := words b 20 axes, t1 := si b 68 4 + d
    x1 := words b 72 axes }

/-- The warm path and the stop trajectory taken from the entry of the frame before (R437); under WARM_SOURCE = 0 where that frame was in
progress at the seed's tick, so that the replay has no release of its own for it (R433). -/
def warmFromRecord (s : State) (c : CtxId) (frame : Nat) : State :=
  let taken := s.recorder.recorded.contains c
  let s := { s with recorder := { s.recorder with recorded := s.recorder.recorded.filter fun x => x != c } }
  if !s.replaying || !(oNat s 0x2700 0x13 == 1 || taken) then s
  else match recordedFrame s c ((frame + 2 ^ 48 - 1) % 2 ^ 48) with
    | none => s
    | some e =>
      let planned := (u e 0 1).testBit 0 && !noPathStatus (u e 10 2)
      let path := ((List.range 32).map fun i => u e (36 + 4 * i) 4).filter fun k => k != 0xFFFFFFFF
      let st := recordedStop s c e
      s.modCtx c fun x => { x with warm := if planned then path else [], stop := if 1 ≤ st.x0.length then some st else x.stop }

/-- A replay ends with a REPLAY_STATE (R435, R439): the part leaves replay and its contexts are IDLE (log 41). -/
def endReplay (s : State) (code : Nat) : State :=
  let idle := fun (x : Ctx) => { x with st := .idle, run := none, sstate := .stopped }
  unloadAll { s with
    recorder := { s.recorder with st := 0, replay := code, pausing := false }, ctxs := s.ctxs.map idle
    tds := { s.tds with tiles := s.tds.tiles.filter fun t => t.ctx == 16 } }

/-- Every entry before a tick has been read, so what it integrates and what was decided before it is there (R84, R434, R435). -/
def inputsReady (s : State) (tick : Nat) : Bool :=
  match entryAt s s.recorder.pos with
  | some e => decide (tick ≤ e.tick)
  | none => true

/-! ## The tool at a frame start (R650, R651) -/

/-- The record in force of a slot: as it stood at the last edge before now. -/
def slotRecord (s : State) (x : Slot) : Option TagRec :=
  if x.changedAt = some s.now then x.before else if x.st = 2 then x.rec_ else none

/-- The mounted tool of a context at this F; in replay as its TAG entries say. -/
def toolAtF (s : State) (c : CtxId) (frame : Nat) : Option TagRec :=
  match s.toolSlot c with
  | none => none
  | some i =>
    if s.replaying then
      let here := ofFrame s c frame s.world.tick
      match (allEntries s (fun e => e.ty == 0x09 && e.src == i && here e) ringFuel 0).getLast? with
      | some e => if e.payload.length ≤ 6 then none else some (parseTag (e.payload.drop 6))
      | none => (s.ctx c).tool
    else slotRecord s (s.modules.slots[i]?.getD default)

/-- The tool change of a frame start, and whether there was one. -/
def toolAtFrame (s : State) (c : CtxId) (frame : Nat) : State × Bool :=
  let t := toolAtF s c frame
  match s.toolSlot c with
  | none => (s, false)
  | some i =>
    if t = (s.ctx c).tool then (s, false)
    else
      let raw := match t with
        | some t => t.raw
        | none => []
      let s := record s s.world.tick 0x09 i (leBytes 6 frame ++ raw)
      let m := s.modules
      let s := { s with modules := { m with
        toolChanges := wrapInc 32 m.toolChanges
        slots := vupd m.slots (Fin.ofNat 32 i) fun x => { x with lastFrame := frame % 2 ^ 32 } } }
      (s.modCtx c fun x => { x with tool := t }, true)

/-! ## The counts in force (R190, R424, R425, R473) -/

def cutCount (service policy step n : Nat) : Nat :=
  let n := if service = 2 then max 1 (n * 15 / 16) else n
  if policy = 1 ∧ 0 < step then max 1 (n * (4 - step) / 4) else n

/-! ## Contexts that start and stop in a recording (R435, R561) -/

/-- What follows the first n FRAME entries of a list. -/
def afterFrames : Nat → List RecEntry → List RecEntry
  | 0, es => es
  | n + 1, es => afterFrames n ((es.dropWhile fun e => e.ty != 0x0B).drop 1)

/-- A frozen value of the context was written between the frame that the replay passed last and the next one: it was not running. -/
def frozenSince (s : State) (c : CtxId) : Bool :=
  let frozen := fun (e : RecEntry) => e.ty == 0x07 &&
    (odItems e.payload.length (e.payload.drop 6)).any fun x => !(objDef x.1 x.2.1).any fun d => d.acc == .rwf
  let es := allEntries s (fun e => e.src == c.val && (e.ty == 0x0B || frozen e)) ringFuel 0
  ((afterFrames s.recorder.nextFr[c] es).head?).any fun e => e.ty == 0x07

/-- The recorded frame that comes next begins its context: it has not run since the seed or since power-on, or the recording shows
that it was stopped and started again. -/
def startsHere (s : State) (c : CtxId) (e : RecEntry) : Bool :=
  match (s.ctx c).st with
  | .starting => false
  | .running => e.frame != ((s.ctx c).frameNo + 1) % 2 ^ 48 || frozenSince s c
  | _ => true

/-- In replay a context that the recording shows to have stopped is IDLE from where its next frame would have fallen, and its code and
data are freed (R352; log 121). -/
def idleStopped (s : State) : State :=
  if !s.replaying then s
  else
    let w := s.world
    let nt := if w.started then (w.nt + w.period) % 2 ^ 64 else w.nt
    (allCtx.filter fun c =>
      let x := s.ctx c
      x.st == .running && x.run.isNone && decide (x.ntF + cNat s c 0x04 ≤ nt) && (match nextRecorded s c with
        | none => true
        | some e => x.lastF.isSome && startsHere s c e)).foldl (fun s c =>
      allEng.foldl (fun s n => setLoaded s n c false) (s.modCtx c fun x => { x with st := .idle, sstate := .stopped })) s

/-! ## Admission seeds (R606) -/

/-- The entries of a partition of a context, nodes first. -/
def partBytes (s : State) (c : CtxId) (p : Nat) : Bytes :=
  let q := (s.ctx c).rm.parts[p]?.getD default
  memRead s.store (nodeAddr s (nodeFirst s c p)) (64 * q.nCount) ++ memRead s.store (edgeAddr s (edgeFirst s c p)) (512 * q.eCount)

/-- The seed that admits a chip: its partitions come with their entries, which deltas may have changed since the load (R136;
log 119). -/
def admissionSeed (s : State) : Seed :=
  let sd := makeSeed s s.world.tick
  { sd with ctxs := sd.ctxs.map fun x => { x with parts := [partBytes s x.ctx 0, partBytes s x.ctx 1] } }

/-- The chips that wait for an admission seed receive it at a tick at which the loader queue is empty, and are IN. -/
def admitSeeds (s : State) : State :=
  if hedgeRole s ≠ 3 ∨ !s.loader.isEmpty ∨ !(s.hedge.members.any fun m => m.st == 2) then s
  else
    let bs := seedBytes (admissionSeed s)
    let s := (s.hedge.members.filter fun m => m.st == 2).foldl (fun s m => sendTo s m.addr tyAdmit 0xFF (leBytes 1 m.tag ++ bs)) s
    let now := s.now
    { s with hedge := { s.hedge with
        members := s.hedge.members.map fun m => if m.st = 2 then { m with st := 3, heard := now, joined := s.world.tick } else m } }

/-- The step and the tick of the pacing context or of the AON frame timer. In replay, the recorded values of the part's live
objects for that tick come first (R435), and where the world was rebuilt the replay ends: no seed taken before a rebuild starts a
replay of frames after it (R712; log 120). -/
def stepAndTick (s : State) (period : Nat) (ecc : List Nat) : State :=
  let s := if stepDue s period then rotationStep s else s
  let s := if s.replaying then
      applyItems s true (allEntries s (fun e => e.ty == 0x07 && e.src == 0xFF && e.tick == s.world.tick + 1) ringFuel 0)
    else s
  let s := admitSeeds (tickWorld (idleStopped s) period ecc)
  if s.replaying && (decide (geomOf s ≠ s.world.geom) || s.recorder.barred.any fun t => decide (t < s.world.tick)) then endReplay s 4
  else if s.replaying then { s with recorder := { s.recorder with replayTick := s.world.tick } } else s

/-- The samples of the attempt that the warm path came from, under the values in force; 0 where there is none (log 106). -/
def warmSamples (s : State) (c : CtxId) : Nat :=
  match (s.ctx c).plan with
  | some plan => (solveIn s c plan (s.ctx c).warm 0).samples
  | none => 0

/-! ## FRAME_START (R16) -/

/-- HOLD at the pose of START_NODE (R293). Where no roadmap is active or the node does not exist, the spec gives no pose:
the positions are a function of the frame's inputs that nothing constrains (R5; log 40). -/
def holdAtStart (s : State) (c : CtxId) (frame : Nat) : State :=
  let axes := ((s.ctx c).plan.map (·.axes)).getD 0
  let k := startNode s c
  let hold := fun (q : List Word) => some { noStop with fromFrame := frame, x0 := q, x1 := q }
  let rm := (s.ctx c).rm
  if rm.active && decide (k < rm.cur.nCount) then
    let q := (s.node c k).q
    let e := qexpOf s c
    s.modCtx c fun x => { x with stop := hold ((List.range axes).map fun a =>
      w32 (fmul fp32 (fInt (q[a]?.getD 0)) (scaleDown (e[a]?.getD 0)))) }
  else
    s.modCtx c fun x => { x with stop := hold ((List.range axes).map (Config.startPose x.planDigest c.val frame k)) }

/-- The frame of a context begins at this F: the live objects apply, the tool and the roadmap follow, the frame's counts are
fixed. `rec_` is the recorded FRAME entry in replay. -/
def beginFrame (s : State) (c : CtxId) (frame : Nat) (rec_ : Option Bytes) : State :=
  let first := (s.ctx c).firstF.isNone
  -- the paths in force, and the samples of the attempt behind the warm path, stand before the new values apply (log 106)
  let s := if first then s else warmFromRecord s c frame
  let lastM := warmSamples s c
  let nt := s.world.nt
  let s := s.modCtx c fun x =>
    { x with frameNo := frame, lastF := some s.now, ntF := nt, firstF := if first then some s.now else x.firstF, fDue := false }
  let s := if s.replaying then
      let here := ofFrame s c frame s.world.tick
      applyItems s true (allEntries s (fun e => e.ty == 0x07 && e.src == c.val && here e) ringFuel 0)
    else s
  let s := applyRecorded s (0x2000 + c.val) c.val frame
  let s := applyRecorded s (0x2201 + c.val) c.val frame
  let (s, changed) := toolAtFrame s c frame
  let ops := if s.replaying then recordedRm s c frame s.world.tick else []
  let may := fun h => !s.replaying || ops.any fun o => o.1 == 1 && u o.2 0 4 == h
  -- a recorded preload is accepted at its frame (R157)
  let s := s.modRm c fun r => { r with preload := r.preload ++ ((ops.filter fun o => o.1 == 3).map fun o => (u o.2 0 4, s.now + 1)) }
  let s := roadmapAtFrame s c frame changed may
  let s := ops.foldl (fun s o => if o.1 = 2 then copyDelta s c o.2 else if o.1 = 4 then auditApply c s else s) s
  let s := if first then holdAtStart s c frame else s
  let s := s.modCtx c fun x => { x with warm := if x.freshImage then [] else x.warm, freshImage := false }
  let step := match rec_ with
    | some e => u e 1 1
    | none => s.power.inForce
  let service := match rec_ with
    | some e => u e 2 1
    | none => s.service
  let policy := cNat s c 0xA0
  let plan := ((s.ctx c).plan).getD default
  let counts := fun sv => (cutCount sv policy step plan.waves, cutCount sv policy step plan.candMax)
  let safe := (s.ctx c).sstate == .safe && !s.replaying
  let bad := match rec_ with
    | some e => if (u e 0 1).testBit 0 then none else some (FrameEnd.invalid (u e 10 2))
    | none => none
  -- a brick was reset in the publication that this frame plans on (R77, R415)
  let hurt := s.world.pubs.any fun p => p.tick == s.world.tick && p.hurt
  let run : FrameRun :=
    { (default : FrameRun) with
      frame := frame, f := s.now, faulted := hurt, inSafe := safe, throttled := policy == 1 && decide (0 < step), reduced := service == 2
      step := step, service := service, tf := s.world.tick, axes := plan.axes, waves := (counts service).1
      nodesPerWave := plan.nodesPerWave, candMax := (counts service).2, sum := noSum
      relaxed := oNat s 0x2700 0x01 == 0 && cNat s c 0x2A == 1, ready := bad, lastM := lastM
      tvRec := (rec_.map fun e => u e 12 6).filter (· != 0)
      roadmap := if (s.ctx c).rm.active then (s.ctx c).rm.cur.handle else 0 }
  let s := s.setRun c run
  -- a part whose own service state would give other counts stops the replay (R435)
  if rec_.isSome && decide (counts service ≠ counts s.service) then endReplay s 4 else s

/-- A frame start of a live context. -/
def liveFrame (s : State) (c : CtxId) (ecc : List Nat) : State :=
  let x := s.ctx c
  let frame := if x.st = .starting then leNat (shadowVal s (0x2000 + c.val) 0x09) else (x.frameNo + 1) % 2 ^ 48
  -- the frame that a seed of this tick names is this one
  let s := s.modCtx c fun x => { x with st := .running, frameNo := (frame + 2 ^ 48 - 1) % 2 ^ 48 }
  let s := takeClear s c
  let s := if s.pacing = some c then stepAndTick s (cNat s c 0x04) ecc else s
  beginFrame s c frame none

/-- The images that the frame's recorded switches name are loaded (R157). -/
def switchesLoaded (s : State) (c : CtxId) (frame tick : Nat) : Bool :=
  let r := (s.ctx c).rm
  (recordedRm s c frame tick).all fun o => o.1 != 1 ||
    (List.range 2).any fun p =>
      let q := r.parts[p]?.getD default
      q.handle == u o.2 0 4 && (q.st == 2 || r.ready == some p || (r.active && r.activePart == p))

/-- A context as a replay begins it: its next frame is `frame`, and the engines load its code and resident data (R351). Nothing that it
holds is a live claim (R434, R436), and no factor that the part has cached is taken over (R260; log 106). -/
def replayCtx (s : State) (x : Ctx) (handle frame : Nat) : Ctx :=
  { x with
    st := .running, frameNo := (frame + 2 ^ 48 - 1) % 2 ^ 48, firstF := none, lastF := none, loading := loadEngines s
    plan := planOf s handle, run := none, warm := [], freshImage := false, stop := none, block := none, cache := none
    ntF := s.world.nt, lastEdge := none, edgeCount := 0, fDue := false, sstate := .stopped, cause := 0, clearPend := false
    joints := [] }

/-- A context made ready for its next recorded frame (R436). -/
def readyFor (s : State) (c : CtxId) : State :=
  { s with recorder := { s.recorder with nextFr := vupd s.recorder.nextFr c fun n => n + 1 } }

/-- A replay begins a context: the frozen values recorded for it so far hold (R435), its banks are ENGINE's (R342), and the loads of
its code and data begin (R351). -/
def replayStarts (s : State) (c : CtxId) (e : RecEntry) : State :=
  let s := applyItems s false (allEntries s (fun x => x.ty == 0x07 && x.src == c.val && decide (x.tick ≤ e.tick)) ringFuel 0)
  let s := s.modCtx c fun x => { replayCtx s x (leNat (shadowVal s (0x2000 + c.val) 0x03)) e.frame with st := .starting }
  giveBanks s

/-- Every recorded frame of the present tick has begun. -/
def tickBegun (s : State) : Bool :=
  allCtx.all fun d => match nextRecorded s d with
    | some e => decide (s.world.tick < e.tick)
    | none => true

/-- The context whose recorded frame gives the next tick: the lowest-numbered of those with a frame at it (R27, R436). -/
def recordedPacer (s : State) : Option CtxId :=
  allCtx.find? fun d => (nextRecorded s d).any fun e => e.tick == s.world.tick + 1

/-- A frame start in replay (R434-R437, R440). The tick that the recording's pacing context gave falls with its frame; from the
tick to pause at, no frame starts. A frame that begins its context waits for the loads that the first command for it asks (R351). -/
def replayFrame (s : State) (c : CtxId) (ecc : List Nat) : State :=
  match nextRecorded s c with
  | none => s
  | some e =>
    let x := s.ctx c
    let paced := oNat s 0x2700 0x12 = 0 || match x.lastF with
      | some t => decide (t + us (cNat s c 0x04) ≤ s.now)
      | none => true
    if s.recorder.st ≠ 3 ∨ x.run.isSome then s
    else if startsHere s c e then (if e.tick ≤ s.world.tick + 1 then replayStarts s c e else s)
    else if !paced ∨ !x.loading.isEmpty ∨ !switchesLoaded s c e.frame e.tick then s
    else
      let p := oNat s 0x2700 0x11
      let hold := s.recorder.pausing && decide (p ≤ e.tick)
      if e.tick = s.world.tick + 1 ∧ recordedPacer s = some c ∧ tickBegun s ∧ inputsReady s e.tick ∧ (!hold ∨ e.tick = p) then
        if hold then pauseCheck (stepAndTick s (cNat s c 0x04) ecc)
        else
          let s := stepAndTick (s.modCtx c fun x => { x with st := .running }) (cNat s c 0x04) ecc
          if s.replaying then beginFrame (readyFor s c) c e.frame (some e.payload) else s
      else if e.tick = s.world.tick ∧ !hold then
        beginFrame ((readyFor s c).modCtx c fun x => { x with st := .running }) c e.frame (some e.payload)
      else s

def frameStartEffect (c : CtxId) (ecc : List Nat) (s : State) : State :=
  if s.replaying then replayFrame s c ecc else if liveF s c then liveFrame s c ecc else s

def execFrameStart (c : CtxId) (ecc : List Nat) (s : State) : Out := .next (frameStartEffect c ecc s)

/-! ## AON_FRAME_TIMER (R27, R82) -/

/-- A tick of the recording that no recorded frame gives falls now: the part replays, the recording goes on past the present tick,
every frame and entry up to it has been taken, and the tick to pause at has not come (R434, R436, R440). -/
def timerDue (s : State) : Bool :=
  s.recorder.st == 3 && (recordedPacer s).isNone && tickBegun s && inputsReady s (s.world.tick + 1) &&
    ((entryAt s s.recorder.pos).isSome || allCtx.any fun d => (nextRecorded s d).isSome) &&
    !(s.recorder.pausing && decide (oNat s 0x2700 0x11 ≤ s.world.tick))

/-- The 1 ms tick of the AON frame timer, while no context runs; in replay, while no recorded frame gives the tick. -/
def aonFrameTimerEffect (ecc : List Nat) (s : State) : State :=
  if !s.serves || isMember s then s
  else if s.replaying then (if timerDue s then pauseCheck (stepAndTick s 1000 ecc) else s)
  else if s.pacing.isSome then s
  else if s.now % us 1000 = 0 then stepAndTick s 1000 ecc
  else s

def execAonFrameTimer (ecc : List Nat) (s : State) : Out := .next (aonFrameTimerEffect ecc s)

/-! ## SYNC_IN (R565, R704) -/

/-- A counted edge. -/
def countEdge (s : State) (c : CtxId) (x : Ctx) : Ctx :=
  let x := { x with lastEdge := some s.now }
  match x.st with
  | .starting => if x.loading.isEmpty then { x with edgeCount := 0, fDue := true } else { x with fDue := false }
  | _ =>
    let n := x.edgeCount + 1
    if n < cNat s c 0x07 then { x with edgeCount := n, fDue := false } else { x with edgeCount := 0, fDue := true }

/-- The context takes its frame starts from SYNC_IN and counts edges. -/
def countsEdges (s : State) (c : CtxId) : Bool :=
  s.started c && cNat s c 0x05 == 1 && !s.replaying

/-- E in ACLK, and SYNC_TOL. -/
def syncE (s : State) (c : CtxId) : Nat := us (cNat s c 0x04) / cNat s c 0x07
def syncTol (s : State) (c : CtxId) : Nat := us (cNat s c 0x08)
def syncMiss (x : Ctx) : Ctx := { x with cnt := { x.cnt with syncMiss := wrapInc 32 x.cnt.syncMiss } }

/-- SYNC_IN_EDGE: the edge is recorded, and counted or rejected by each context. -/
def syncInEffect (s : State) : State :=
  if isMember s then s else
  let s := record s s.world.tick 0x06 0 (leBytes 8 s.now)
  allCtx.foldl (fun s c =>
    if !countsEdges s c then s
    else match (s.ctx c).lastEdge with
      | some t =>
        if t + syncE s c - syncTol s c ≤ s.now then s.modCtx c (countEdge s c) else s.modCtx c syncMiss
      | none => s.modCtx c (countEdge s c)) s

def execSyncInEdge (s : State) : Out := .next (syncInEffect s)

/-- SYNC_EDGE_TIMEOUT: an edge is counted at the last counted edge + E + SYNC_TOL; a member ignores SYNC_IN (R608). -/
def syncTimeoutEffect (c : CtxId) (s : State) : State :=
  match (s.ctx c).lastEdge with
  | some t => if !isMember s ∧ countsEdges s c ∧ s.now = t + syncE s c + syncTol s c then s.modCtx c fun x => syncMiss (countEdge s c x)
    else s
  | none => s

def execSyncEdgeTimeout (c : CtxId) (s : State) : Out := .next (syncTimeoutEffect c s)

/-! ## SNAPSHOT (R87, R216) -/

/-- The status that keeps a frame from searching (R159, R216). -/
def noSearch (s : State) (c : CtxId) : Option Nat :=
  let r := (s.ctx c).rm
  let missing := fun k => decide (r.cur.nCount ≤ k) || (s.node c k).disabled
  match r.rmState with
  | 0 => some 0x0203
  | 2 => some 0x0203
  | 3 => some 0x0201
  | 4 => some 0x0202
  | 5 => some 0x0204
  | _ =>
    if missing (startNode s c) then some 0x0301
    else if goalMode s c = 0 ∨ (goalMode s c = 1 ∧ missing (goalNode s c)) then some 0x0302
    else if goalTest s c (startNode s c) then some 0x0303
    else none

/-- The frame takes its snapshot from publication p (R88, R94-R96). -/
def takeSnap (s : State) (c : CtxId) (r : FrameRun) (p : Pub) : State :=
  let a := match p.fc with
    | some f => p.nt - f.baseNT
    | none => 0
  let stale := p.fc.isNone || s.world.fcImage == 0 || decide (s.world.fcStale < a)
  let s := if stale then { s with world := { s.world with fcStaleCount := wrapInc 32 s.world.fcStaleCount } } else s
  let s := logClear s c r.frame
  s.setRun c { r with snapped := true, a := a, stale := stale, epoch := p.epoch, tool := (s.toolSet c).getD [] }

/-- The search begins (R177, R182, R188, R194). `bad` lists nodes that are unreadable from both copies. -/
def beginSearch (s : State) (c : CtxId) (bad : List Nat) : State :=
  match s.run c with
  | none => s
  | some r0 =>
    let r := startSearch s c r0
    let s := countSearch s c r0 r
    let s := putNew (s.setRun c r) c r r.cands
    if r.suffix.isEmpty then nextWaves c bad waveFuel (putList s c 0 0 emptyList) else addCheck s c r 0

/-- SNAPSHOT: once the publication is complete and no delta is due before it (R87, R164). `bad` lists node entries that are
unreadable from both copies (R169). -/
def snapshotEffect (c : CtxId) (bad : List Nat) (s : State) : State :=
  match s.run c with
  | none => s
  | some r =>
    let delta := match (s.ctx c).rm.nextDelta with
      | some (_, k) => k != r.frame
      | none => false
    match framePub s r with
    | none => s
    | some p =>
      if r.inSafe || r.snapped || r.ready.isSome || p.wait.isSome || delta then s
      else
        -- the region is rebuilt at every snapshot (R177)
        let s := (takeSnap s c r p).modCtx c fun x => { x with searchRecs := 0 }
        match noSearch s c with
        | some st => frameFails s c st
        | none => beginSearch s c bad

def execSnapshot (p : SnapshotOp) (s : State) : Out := .next (snapshotEffect p.ctx p.bad s)

/-! ## VERIFY (R284, R294-R302) -/

/-- The Verifier's domain. -/
def domVerifier : DomainId := 19

/-- The publication of the verify tick (R284); in replay of the recorded one. A recorded T_V of 0 names none (R429): the frame then
has its own (log 121). -/
def verifyPub (s : State) (c : CtxId) (r : FrameRun) : Option Pub :=
  let point := cNat s c 0x82
  if point = 0 then framePub s r
  else match r.tvRec with
    | some t => s.world.pubs.find? fun p => p.tick == t
    | none => (s.world.pubs.filter fun p => decide (p.at_ ≤ r.f + us point)).getLast?

/-- VERIFY_ATTEMPT: the Verifier starts the attempt that SMOOTH has committed (R284). -/
def verifyAttemptEffect (c : CtxId) (s : State) : State :=
  match s.run c with
  | none => s
  | some r =>
    match verifyPub s c r with
    | none => s
    | some p =>
      let due := r.block.isSome && r.reasons.length == r.attempt && !r.verifying && r.ready.isNone
      if !due || !s.vfy.run || s.vfy.busy.isSome || s.inReset domVerifier || decide (s.now < r.f + us (cNat s c 0x82)) ||
          p.wait.isSome then s
      else
        let s := s.setRun c { r with verifying := true, tv := p.tick, vEpoch := p.epoch }
        { s with vfy := { s.vfy with busy := some c, since := s.now, ctx := c.val } }

def execVerifyAttempt (c : CtxId) (s : State) : Out := .next (verifyAttemptEffect c s)

/-- A publication as the Verifier reads it, seen from the frame's snapshot (R283, R287). -/
def vview (s : State) (snap p : Pub) (bad : List Nat) : VView :=
  let a : Int := match p.fc with
    | some f => (snap.nt : Int) - f.baseNT
    | none => 0
  let stale := p.fc.isNone || s.world.fcImage == 0 || decide ((s.world.fcStale : Int) < a)
  { g := p.geom, cr := p.crown, fc := if stale then none else p.fc.map (·.cells), a := a, bad := bad }

/-- VFY_IRQ bits (R322). -/
def vfyIrq (s : State) (bits : BitVec 6) : State := { s with vfy := { s.vfy with irq := s.vfy.irq ||| bits } }

/-- The bitmap blocks read with an uncorrectable error, each recorded (R283). -/
def blockFaults (s : State) (blocks : List Nat) : State :=
  if blocks.isEmpty then s
  else blocks.foldl (fun s b => fault s 0xFE 19 0x0303 0x1F 0x1F 0 b) (vfyIrq s 0x20)

/-- The places of a log entry: copy A's and copy B's. -/
def LogEntry.who (l : LogEntry) : Who × Who :=
  let at_ := fun (e chip : Nat) => (if h : e < 18 then some (chip, ⟨e, h⟩) else none : Who)
  (at_ l.engA l.chip, at_ l.engB l.chipB)

/-- A disagreement (R299): the engines that committed the CHECK tile of the contradicted candidate are named. VFY_DIS_LAST shows
the lower-numbered one, with its chip (R323); of two engines with one number on two chips, copy A's. -/
def disagree (s : State) (c : CtxId) (r : FrameRun) (cidx : Nat) : State :=
  let seq := ((r.tileSlots.find? fun x => x.2.contains cidx).map (·.1)).getD 0
  let (a, b) := ((logGet s c r.frame seq).getD noLog).who
  let first := if b.isSome && decide (whoEng b < whoEng a) then b else a
  let ns := ownEngines s [a, b]
  let act := nameAction s ns true
  let s := s.modCnt c fun k => { k with disagree := wrapInc 32 k.disagree }
  let s := { vfyIrq s 4 with vfy := { (vfyIrq s 4).vfy with
    disEngine := whoEng first, disSecond := a.isSome && b.isSome, disCtx := c.val, disChip := whoChip s first
    disStep := s.roles.steps % 2 ^ 32 } }
  let s := faultAt (tagRetiring s ns true) (whoChip s a) c.val 19 0x0107 (whoEng a) (whoEng b) act cidx
  nameEngines s ns true

/-- An attempt has failed: its counts and interrupts; then the next attempt, or VERIFY_FAILED (R294, R297). -/
def attemptFailed (s : State) (c : CtxId) (reason : Nat) : State :=
  match s.run c with
  | none => s
  | some r =>
    let s := s.modCnt c fun k =>
      { k with verifyFail := wrapInc 32 k.verifyFail
               worldChanged := if reason = 2 then wrapInc 32 k.worldChanged else k.worldChanged }
    let s := vfyIrq s (1 + (if reason = 2 then 2 else 0) + (if reason = 5 then 8 else 0))
    let j := r.attempt
    let more := decide (j < cNat s c 0x83) && decide (j + 1 < ((r.selected.map fun l => l.entries.length).getD 0))
    if more then smoothTile s c r (j + 1) else frameFails s c 0x0501

/-- VERIFY_COMPLETE: the attempt that runs passes or fails. `badBlocks` and `badSnap` list the blocks of the verify tick's bitmap and,
where that is another one, of the snapshot's that were read with an uncorrectable error; each is recorded (R283). -/
def verifyCompleteEffect (c : CtxId) (badBlocks badSnap : List Nat) (s : State) : State :=
  if s.vfy.busy ≠ some c then s
  else
    let s := { s with vfy := { s.vfy with busy := none, attempts := (s.vfy.attempts + 1) % 65536 } }
    let s := blockFaults s (badBlocks ++ badSnap)
    match s.run c, (s.ctx c).plan with
    | some r, some plan =>
      match r.block, framePub s r, s.world.pubs.find? (fun p => p.tick == r.tv) with
      | some b, some snap, some p =>
        if !r.verifying ∨ r.ready.isSome then s
        else
          let same := p.tick == snap.tick
          let o := verifyAttempt s c plan r b (vview s snap snap (if same then badBlocks else badSnap))
            (vview s snap p badBlocks) same
          let n := if o.reason = 0 then o.capsules else
            Config.failedCapsules [c.val, r.frame, r.attempt, o.reason, p.epoch.toNat, o.capsules]
          let s := s.modRun c fun r =>
            { r with verifying := false, reasons := r.reasons ++ [o.reason], capsules := n
                     stop := if o.stop.isSome then o.stop else r.stop
                     ready := if o.reason = 0 then some (.passed r.attempt) else none }
          let s := match o.contra with
            | some i => disagree s c r i
            | none => s
          if o.reason = 0 then s else attemptFailed s c o.reason
      | _, _, _ => s
    | _, _ => s

def execVerifyComplete (c : CtxId) (bad : VerifyErrors) (s : State) : Out :=
  .next (verifyCompleteEffect c bad.verifyTick bad.snapshot s)

/-- A write of VFY_CTRL (R320). -/
def vfyCtrlEffect (v : Word) (s : State) : State :=
  let run := v.toNat.testBit 0
  if !run && s.anyRuns then s.busErr else State.okBus { s with vfy := { s.vfy with run := run } }


end Sys2Proof.Machine
end

