-- ==== Sys2Proof/Machine/Engines.lean ====
section
/-! DEFINITION. The planning engines apart from their tiles: stops (R329), scratchpad ownership (R340-R342, R368), corrected
errors (R347, R366), the clipping pass (R348-R350, R478) and the partition windows (R376-R378, R410). -/

namespace Sys2Proof.Machine

/-! ## Engine stops (R329) -/

/-- The engine's logic runs: the core is on and the engine is not off, in reset, stopped, in DOZE or retired. -/
def engineLive (s : State) (n : EngId) : Bool :=
  let e := s.eng n
  s.boot.phase == .on && !s.retired n && !e.faulty && !s.inReset (engDomain n) &&
    !([PeState.off, .reset, .stopped, .doze].contains e.st)

/-- The context that a record about an engine names. -/
def heldCtx (s : State) (n : EngId) : Nat :=
  match s.heldTile n with
  | some t => if t.ctx < 16 then t.ctx else 0xFF
  | none => 0xFF

/-- An engine stops: in a golden frame, also that of its start test, it fails the frame (R464), otherwise it is found faulty
(R329, R519). A step that waits at the same edge comes first (R514). -/
def stopEngine (s : State) (n : EngId) (event : Nat) : State :=
  let s := stepFirst s
  if s.roles.bringIn = some (n, 1) then goldenFail s n 3
  else match s.heldTile n with
  | some t => if t.station = stGolden then goldenFail s n 3 else engineFault s n (heldCtx s n) 0x0101 event
  | none => engineFault s n 0xFF 0x0101 event

/-- An uncorrectable error counted (R366). -/
def countUe (s : State) (n : EngId) (src word : Nat) : State :=
  s.modEng n fun e =>
    { e with eccUe := satAdd 255 e.eccUe 1, eccSrc := src, eccAddr := word % 2 ^ 19, eccFlag := true }

/-- ENGINE_STOP: event 0-5 in the order of R329; `src` and `word` say where an uncorrectable error was met. -/
def engineStopEffect (n : EngId) (event : Fin 6) (src : Fin 4) (word : Nat) (s : State) : State :=
  if !engineLive s n && s.roles.bringIn != some (n, 1) then s
  else
    let s := if event = 0 then countUe s n src.val word else s
    let s := if event = 5 then
        s.modEng n fun e => { e with clipFail := true, clipFailRegion := e.clipRegion }
      else s
    stopEngine s n (event.val + 1)

/-- An access of a master: a bus error on one that an engine made stops its tile (R329). -/
def busStop (m : Master) (access : State → State) (s : State) : State :=
  match m with
  | .engine n =>
    let t := access (s.reply .none)
    if t.bus = .error then (engineStopEffect n 2 0 0 t).busErr else t
  | _ => access s

def execEngineStop (n : EngId) (event : Fin 6) (src : Fin 4) (word : Nat) (s : State) : Out :=
  .next (engineStopEffect n event src word s)

/-! ## Corrected errors (R347, R366) -/

/-- ECC_WRITEBACK: a correctable error is counted and the corrected word written back; the data as read does not change. -/
def eccWritebackEffect (n : EngId) (src : Fin 4) (word : Nat) (s : State) : State :=
  if s.retired n || s.boot.phase != .on then s
  else s.modEng n fun e =>
    { e with eccCe := satAdd 65535 e.eccCe 1, eccSrc := src.val, eccAddr := word % 2 ^ 19 }

def execEccWriteback (n : EngId) (src : Fin 4) (word : Nat) (s : State) : Out := .next (eccWritebackEffect n src word s)

/-! ## Scratchpad ownership (R340-R342) -/

/-- The owner code of a bus master at engine n's banks; none for a master that can own no bank. -/
def ownerCode (n : EngId) : Master → Option (BitVec 2)
  | .engine k => if k = n then some 0 else none
  | .host _ => some 1
  | .aon => some 2
  | _ => none

/-- The owner that the writes so far leave. -/
def Bank.left (k : Bank) : BitVec 2 := k.pending.getLast?.getD k.owner

/-- SCRATCHPAD_OWNER_WRITE: by the owner that the previous write left, or by AON. Until the handover the write is not
complete. A retired engine (R37) and one held in reset (R507) answer with a bus error. -/
def ownerWriteEffect (m : Master) (n : EngId) (b : BankId) (v : Word) (s : State) : State :=
  let k := (s.eng n).banks[b]
  let nxt : BitVec 2 := v.setWidth 2
  let serving := s.working n || s.roles.coppice == some n
  if s.retired n || s.inReset (engDomain n) || !(m == .aon || ownerCode n m == some k.left) ||
      (s.anyRuns && serving && nxt != k.left) then s.busErr
  else
    let give := fun (k : Bank) => { k with pending := k.pending ++ [nxt] }
    (s.modEng n fun e => { e with banks := vupd e.banks b give }).reply .stalled

def execScratchpadOwnerWrite (m : Master) (n : EngId) (b : BankId) (v : Word) (s : State) : Out :=
  .next (busStop m (ownerWriteEffect m n b v) s)

/-- A DMA transfer is queued for a bank (R341). -/
def dmaFor (e : Engine) (b : BankId) : Bool :=
  e.dma.any fun d => !d.imem && decide (d.near < (b.val + 1) * 2 ^ 18) && decide (b.val * 2 ^ 18 < d.near + d.len)

/-- OWNERSHIP_HANDOVER: once no DMA transfer is queued for the bank, the oldest waiting write takes effect and completes. One that
would take a bank from a serving engine while a context runs ends with a bus error (R342). -/
def handoverEffect (n : EngId) (b : BankId) (s : State) : State :=
  match (s.eng n).banks[b].pending with
  | [] => s
  | nxt :: rest =>
    let serving := s.working n || s.roles.coppice == some n
    if dmaFor (s.eng n) b then s
    else if s.anyRuns && serving && nxt != (s.eng n).banks[b].owner then
      (s.modEng n fun e => { e with banks := vupd e.banks b fun k => { k with pending := rest } }).busErr
    else
      let take := fun (_ : Bank) => ({ owner := nxt, pending := rest } : Bank)
      (s.modEng n fun e => { e with banks := vupd e.banks b take }).okBus

def execOwnershipHandover (n : EngId) (b : BankId) (s : State) : Out := .next (handoverEffect n b s)

/-! ## The clipping pass (R348-R350) -/

/-- The pass runs in an engine: in RUN and NAP, enabled. -/
def clipRuns (s : State) (n : EngId) : Bool := engineLive s n && (s.eng n).clipEn

/-- The two patterns that the pass writes to every word of a region (R348), steps 2 and 4. -/
def clipPattern (second : Bool) : BitVec 64 := if second then 0xAAAAAAAAAAAAAAAA else 0x5555555555555555

/-- What a sound word reads back, check bits above the data. -/
def clipExpected (second : Bool) : BitVec 72 := Config.checkBits (clipPattern second) ++ clipPattern second

/-- The words of a region as they read back in step 3 or 5: the pattern, but for those that `bad` gives. -/
def clipReadBack (second : Bool) (bad : List (Bool × Fin 32 × BitVec 72)) : List (BitVec 72) :=
  (List.finRange 32).map fun w => match bad.find? fun x => x.1 == second && x.2.1 == w with
    | some x => x.2.2
    | none => clipExpected second

/-- A compare of data and check bits fails, in step 3 or in step 5. -/
def clipMismatch (bad : List (Bool × Fin 32 × BitVec 72)) : Bool :=
  [false, true].any fun second => clipReadBack second bad != List.replicate 32 (clipExpected second)

/-- CLIPPING_PASS_REGION: the six steps on the region under test (R348). Step 1 fills the save buffer; steps 2 to 5 write and
compare the two patterns; step 6 restores the region from the save buffer, so that its bytes are again what they were (R349), also
after a mismatch (log 113). A mismatch stops the engine (R350). -/
def clipRegionEffect (n : EngId) (bad : List (Bool × Fin 32 × BitVec 72)) (s : State) : State :=
  if !clipRuns s n then s
  else
    let save := fun (e : Engine) => { e with core := { e.core with saveBuf := e.bytesAt n (256 * e.clipRegion) 256 } }
    if clipMismatch bad then
      stopEngine (s.modEng n fun e => { save e with clipFail := true, clipFailRegion := e.clipRegion }) n 6
    else
      s.modEng n fun e =>
        let e := save e
        if e.clipRegion = 16383 then
          { e with clipRegion := 0, clipPasses := (e.clipPasses + 1) % 65536, clipStep := s.roles.steps }
        else { e with clipRegion := e.clipRegion + 1 }

def execClippingPassRegion (n : EngId) (bad : List (Bool × Fin 32 × BitVec 72)) (s : State) : Out :=
  .next (clipRegionEffect n bad s)

/-! ## Partition windows (R377, R378, R410) -/

/-- The time partition of a context. -/
def partOf (s : State) (c : CtxId) : Fin 8 := Fin.ofNat 8 (cNat s c 0x90)

/-- The context whose partition and deadline a tile goes by: its own, for FORECAST the pacing context (R381). -/
def ruleCtx (s : State) (t : Tile) : Option CtxId := if t.ctx < 16 then some (Fin.ofNat 16 t.ctx) else s.pacing

/-- A tile is charged to a partition; golden frames and context loads are charged to none (R377, R381). -/
def chargedTo (s : State) (t : Tile) (p : Fin 8) : Bool :=
  t.station != stGolden && t.station != stLoad && (ruleCtx s t).map (partOf s) == some p

/-- A ready tile of a partition waits. -/
def partReady (s : State) (p : Fin 8) : Bool := s.tds.tiles.any fun t => t.status == .ready && chargedTo s t p

/-- A window ends and a new one starts: LAST_USED and SHORT follow, credit is set from SHARE and the working engines. A
window is short when the partition had a ready tile at its every ACLK and credit was left (log 45). -/
def newWindow (s : State) (e : Nat) (p : Fin 8) (k : Part) : Part :=
  { k with
    lastUsed := k.used % 2 ^ 20
    short := if k.starved && decide (0 < k.credit) then satAdd 4095 k.short 1 else k.short
    credit := (k.share * e * 40000 / 256 : Nat), used := 0, starved := partReady s p }

/-- CREDIT_WINDOW: at every multiple of 40,000 ACLK. -/
def creditWindowEffect (s : State) : State :=
  if s.now % 40000 ≠ 0 then s
  else
    let e := popCount 18 s.roles.working.toNat
    { s with tds := { s.tds with parts := Vector.ofFn fun p => newWindow s e p s.tds.parts[p] } }

def execCreditWindow (s : State) : Out := .next (creditWindowEffect s)

end Sys2Proof.Machine
end

