-- ==== Sys2Proof/Machine/Links.lean ====
section
/-! DEFINITION. The Moaken link ports (R593-R600, R623, R624): receiving, retry, lanes, training, reset; and the loss of a
hedge member (R619-R621). -/

namespace Sys2Proof.Machine

/-! ## Losing a member (R619-R621) -/

/-- The domain of a link port. -/
def linkDomain (l : LinkId) : DomainId := ⟨22 + l.val, by omega⟩

/-- The tiles that a member held or whose copy it had committed are ready again (R374, R620). -/
def undeal (addr : Nat) (t : Tile) : Option Tile :=
  let mine := match t.status with
    | .dealt c _ => c == addr
    | .waitsCopy _ c => c == addr
    | _ => false
  if !mine then some t
  else if t.discard then none
  else some { t with status := .ready, redisp := true, defect := default }

/-- One member lost: its tag advances, its tiles are ready again, it is recorded (R620, R621). -/
def loseOne (s : State) (addr cause : Nat) : State :=
  let h := s.hedge
  if !(h.members.any fun m => m.addr == addr && (m.st == 2 || m.st == 3)) then s
  else
    let redo := s.tds.tiles.any fun t => match t.status with
      | .dealt c _ => c == addr && !t.discard
      | .waitsCopy _ c => c == addr && !t.discard
      | _ => false
    let drop := fun (m : Member) => if m.addr = addr then { m with st := 4, tag := (m.tag + 1) % 16 } else m
    let s := { s with
      hedge := { h with
        members := h.members.map drop, takes := h.takes.filter fun x => x.1 != addr
        lostCount := wrapInc 32 h.lostCount, irq := h.irq ||| BitVec.ofNat 19 (2 ^ 18) }
      tds := { s.tds with tiles := s.tds.tiles.filterMap (undeal addr) } }
    fault s 0xFF (match portTo s addr with
      | some l => 22 + l.val
      | none => 0x1F) 0x0505 0x1F 0x1F (if redo then actRedispatch else 0) (addr + cause * 2 ^ 16)

/-- A member is lost; the loss of a unit root loses every member of its level-1 hedge (R619). -/
def loseMember (s : State) (addr cause : Nat) : State :=
  let s' := loseOne s addr cause
  if s.boot.cfg.hedge.levels = 2 ∧ addr % 256 = 0 ∧ hedgeRole s = 3 then
    (s.hedge.members.filter fun m => m.addr / 256 == addr / 256 && m.addr != addr).foldl (fun s m => loseOne s m.addr cause) s'
  else s'

/-- The route between two chips, in either direction, passes through a port of a chip. -/
def routePasses (a b chip port : Nat) : Bool := Config.routeVia a b chip port || Config.routeVia b a chip port

/-- A port of a chip has left UP other than for SPARING: the members whose route to or from this root passes it are lost (R619, cause
2). The route to a member begins with this chip's own port towards it. -/
def loseRoutes (s : State) (chip : Nat) (l : LinkId) : State :=
  if hedgeRole s < 2 then s
  else
    let here := hedgeAddr s
    (s.hedge.members.filter fun m =>
      (chip == here && portTo s m.addr == some l) || routePasses here m.addr chip l.val).foldl (fun s m => loseMember s m.addr 2) s

/-- A member whose own route to or from the top root is broken is lost: it stops applying entries (R619, R621). -/
def loseSelf (s : State) (l : LinkId) : State :=
  if isMember s && (portTo s 0 == some l || routePasses 0 (hedgeAddr s) (hedgeAddr s) l.val) then
    { s with hedge := { s.hedge with applies := false } }
  else s

/-- A port's new state; the route is lost where it leaves UP or SPARING. -/
def leaveUp (s : State) (l : LinkId) (st : LinkState) : State :=
  let was := (s.link l).st
  let s := s.modLink l fun p => { p with st := st, since := s.now }
  if was = .up ∨ was = .sparing then loseSelf (loseRoutes s (hedgeAddr s) l) l else s

/-! ## The reset of a port (R596, R599) -/

/-- A port held in reset: what its retry buffer held is lost, its counters start again and its registers take their reset values
(R13, R623). The traffic that waits for it stalls (R599). -/
def portHeld (s : State) (l : LinkId) : State :=
  (leaveUp s l .down).modLink l fun p =>
    { p with
      retry := [], fullFrom := none, rxNext := 0, txNext := 0, trainFails := 0, laneOk := 0, peer := 0, retries := 0, crcErr := 0
      laneErr := Vector.replicate 5 0, loopback := false, en := false, spareEn := true, spareUsed := false, sparedLane := 0 }

/-- A port starts TRAINING when it is enabled (R598, R599). -/
def startTraining (s : State) (l : LinkId) : State :=
  s.modLink l fun p => if p.en then { p with st := .training, since := s.now, greeted := false } else p

def irqBit (k : Nat) : BitVec 19 := BitVec.ofNat 19 (2 ^ k)
def linkIrq (s : State) (k : Nat) : State := { s with hedge := { s.hedge with irq := s.hedge.irq ||| irqBit k } }

/-- A link fault record (R600). -/
def linkFault (s : State) (l : LinkId) (fcode act detail : Nat) : State := fault s 0xFF (22 + l.val) fcode 0x1F 0x1F act detail

/-- LINK_DOWN (R596): recorded, and the port's domain is reset. -/
def linkDown (s : State) (l : LinkId) (seq : Nat) : State :=
  let s := advanceTag s (linkDomain l)
  let s := linkIrq (linkFault s l 0x0501 actReset seq) l.val
  portHeld (holdReset s (linkDomain l)) l

/-! ## Retry (R595) -/

/-- The flits from a position of the retry buffer on sent again; one sent for the 16th time takes the link down. -/
def resend (s : State) (l : LinkId) (skip : Nat) : State :=
  let p := s.link l
  let again := (p.retry.drop skip).map fun x => { x with sends := x.sends + 1, lastSent := s.now }
  let s := s.modLink l fun p =>
    { p with
      retry := p.retry.take skip ++ again, wire := p.wire ++ again.map (·.flit)
      retries := satAdd 65535 p.retries again.length }
  match again.find? fun x => decide (16 ≤ x.sends) with
  | some x => linkDown s l x.seq
  | none => s

/-- The flits up to a SEQ leave the retry buffer. -/
def dropAcked (seq : Nat) (p : LinkPort) : LinkPort :=
  match p.retry.findIdx? fun x => x.seq == seq with
  | some i => { p with retry := p.retry.drop (i + 1), fullFrom := none }
  | none => p

/-- An ACK: the flits up to its SEQ leave the retry buffer, and waiting ones take their room. -/
def ackPort (now seq : Nat) (p : LinkPort) : LinkPort := flushPort now (dropAcked seq p)

/-- NAK_FLIT: the flits before the expected SEQ are acknowledged, since the NAK's ACK is the SEQ before it (R594), and every flit from
it on is sent again. -/
def nakEffect (l : LinkId) (expected : Nat) (s : State) : State :=
  if (s.link l).st ≠ .up then s
  else
    let s := s.modLink l (dropAcked ((expected + 255) % 256))
    let s := if (s.link l).retry.any fun x => x.seq == expected then resend s l 0 else s
    s.modLink l (flushPort s.now)

def execNakFlit (l : LinkId) (expected : Byte) (s : State) : Out := .next (nakEffect l expected.toNat s)

/-- RETRY_TIMEOUT: no ACK has covered the oldest flit for 800 SCLK. -/
def retryTimeoutEffect (l : LinkId) (s : State) : State :=
  let p := s.link l
  match p.retry.head? with
  | some x => if p.st = .up ∧ x.lastSent + 400 ≤ s.now then resend s l 0 else s
  | none => s

def execRetryTimeout (l : LinkId) (s : State) : Out := .next (retryTimeoutEffect l s)

/-! ## Receiving (R594, R595, R602, R603, R619) -/

/-- A NAK sent out of order: its SEQ is not stated (log 5). -/
def sendNak (s : State) (l : LinkId) : State :=
  let p := s.link l
  let (q, s) := s.free 8
  let f := { newFlit s p.peer tyNak 0xFF (leBytes 1 p.rxNext) with seq := q.toNat, ack := (p.rxNext + 255) % 256 }
  s.modLink l fun p => { p with wire := p.wire ++ [{ f with crc := flitCrc f }] }

/-- A flit of a member has reached its root: the member is heard, unless the flit carries an old tag (R619, R620). -/
def hear (s : State) (src gen : Nat) : State :=
  let note := fun (m : Member) => if m.addr = src ∧ m.tag = gen ∧ (m.st = 2 ∨ m.st = 3) then { m with heard := s.now } else m
  { s with hedge := { s.hedge with members := s.hedge.members.map note } }

/-- A unit root sees an ADMIT pass to a chip of its own hedge: that chip is one whose loss it declares (R619). -/
def watchAdmit (s : State) (f : Flit) : State :=
  let note := fun (m : Member) => if m.addr = f.dest ∧ m.addr / 256 = hedgeAddr s / 256 then
    { m with st := 3, tag := u f.payload 0 1 % 16, heard := s.now } else m
  if hedgeRole s = 2 ∧ f.type = tyAdmit ∧ 0 < f.len then { s with hedge := { s.hedge with members := s.hedge.members.map note } }
  else s

/-- A record that tells of a port that has left UP other than for SPARING: LINK_DOWN and LANE_SECOND name the port as their DOMAIN
(R600). -/
def portLost (fcode domain : Nat) : Option LinkId :=
  if h : (fcode = 0x0501 ∨ fcode = 0x0503) ∧ 22 ≤ domain ∧ domain < 28 then some ⟨domain - 22, by omega⟩ else none

/-- A unit root sees the FAULT flit of a chip of its own hedge pass whose port has left UP: the members behind it are lost (R619). -/
def watchFault (s : State) (f : Flit) : State :=
  if hedgeRole s = 2 ∧ f.type = tyFault ∧ f.src / 256 = hedgeAddr s / 256 then
    match portLost (u f.payload 8 2) (u f.payload 7 1) with
    | some l => loseRoutes s f.src l
    | none => s
  else s

/-- The lanes in service: the data lanes but for the one replaced, and then the spare. -/
def LinkPort.inService (p : LinkPort) (i : Fin 5) : Bool :=
  if p.spareUsed then i.val != p.sparedLane else i.val != 4

/-- FLIT_RECEIVE: accepted with the right CRC and SEQ, else discarded with a NAK; what it acknowledges leaves the retry
buffer; it is kept, forwarded, or both. A CRC error counts in the wear record too (R543). `laneErrs` lists the lanes that
showed an error with it (R597). -/
def flitReceiveEffect (l : LinkId) (f : Flit) (laneErrs : List (Fin 5)) (s : State) : State :=
  if (s.link l).st ≠ .up then s
  else
    let s := s.modLink l fun p =>
      { p with laneErr := (laneErrs.filter p.inService).foldl (fun v i => vupd v i fun k => satAdd 63 k 1) p.laneErr }
    let p := s.link l
    if f.crc ≠ flitCrc f then
      let w := s.wear
      let s := { s with wear := { w with linkCrc := vupd w.linkCrc l fun k => satAdd (2 ^ 32 - 1) k 1 } }
      sendNak (s.modLink l fun p => { p with crcErr := satAdd 65535 p.crcErr 1 }) l
    else if f.type = tyNak then nakEffect l (u f.payload 0 1) (s.modLink l (dropAcked f.ack))
    else if f.seq ≠ p.rxNext then sendNak s l
    else
      let s := s.modLink l fun p => ackPort s.now f.ack { p with rxNext := (p.rxNext + 1) % 256 }
      if f.dest = 0xFFFF then sendMask s f
      else if f.dest = hedgeAddr s then hear s f.src f.gen
      else routeFlit (watchFault (watchAdmit (hear s f.src f.gen) f) f) f

def execFlitReceive (l : LinkId) (f : Flit) (laneErrs : List (Fin 5)) (s : State) : Out :=
  .next (flitReceiveEffect l f laneErrs s)

/-! ## Lanes (R531, R597, R598) -/

/-- A second lane has failed: the port is FAILED (R531, R598, R600). -/
def secondLane (s : State) (l : LinkId) (lane : Nat) : State :=
  leaveUp (linkIrq (linkFault s l 0x0503 0 lane) (12 + l.val)) l .failed

/-- The fifth lane is to replace a lane: the port pauses (R597). -/
def startSparing (s : State) (l : LinkId) (lane : Nat) : State :=
  s.modLink l fun p => { p with st := .sparing, since := s.now, sparedLane := lane }

/-- LANE_ERROR_WINDOW: every 800,000,000 SCLK a lane in service with more than 32 errors is replaced, and the counts start
again. A second such lane fails the port. -/
def laneWindowEffect (l : LinkId) (s : State) : State :=
  let p := s.link l
  if s.now % 400000000 ≠ 0 then s
  else
    let bad := (List.finRange 5).filter fun i => p.inService i && decide (32 < p.laneErr[i])
    let s := s.modLink l fun p => { p with laneErr := Vector.replicate 5 0 }
    if p.st ≠ .up ∨ !p.spareEn then s
    else match bad with
      | [] => s
      | i :: rest =>
        if p.spareUsed then secondLane s l i.val
        else match rest with
          | [] => startSparing s l i.val
          | j :: _ => secondLane s l j.val

def execLaneErrorWindow (l : LinkId) (s : State) : Out := .next (laneWindowEffect l s)

/-- The HELLO of this chip (R604): address, CL in force, digest of the hedge section, service state. -/
def helloBytes (s : State) : Bytes :=
  leBytes 2 (hedgeAddr s) ++ leBytes 2 s.boot.cl ++ s.boot.hedgeDigest ++ leBytes 1 s.service

/-- A port that carries flits sends the chip's HELLO, once after it has trained (R604). -/
def greet (s : State) (l : LinkId) : State :=
  if (s.link l).greeted then s
  else sendOn (s.modLink l fun p => { p with greeted := true }) l (newFlit s (upAddr s) tyHello 0xFF (helloBytes s))

/-- SPARING_END: after 16,000 SCLK the port is UP again, its retry buffer is sent again, the replacement is recorded. -/
def sparingEndEffect (l : LinkId) (s : State) : State :=
  let p := s.link l
  if p.st ≠ .sparing ∨ s.now < p.since + 8000 then s
  else
    let s := s.modLink l fun p =>
      { p with st := .up, since := s.now, trainFails := 0, spareUsed := true, laneOk := (0x1F : BitVec 5) &&& ~~~(BitVec.ofNat 5 (2 ^ p.sparedLane)) }
    let s := linkIrq (linkFault s l 0x0502 0 p.sparedLane) (6 + l.val)
    let s := writeWear { s with wear := { s.wear with linkLane := vupd s.wear.linkLane l fun _ => p.sparedLane + 1 } }
    greet ((resend s l 0).modLink l (flushPort s.now)) l

def execSparingEnd (l : LinkId) (s : State) : Out := .next (sparingEndEffect l s)

/-- The port carries flits: it sends what waits, and the chip its HELLO. -/
def portUp (s : State) (l : LinkId) (ok : BitVec 5) : State :=
  let s := s.modLink l fun p => { p with st := .up, since := s.now, trainFails := 0, laneOk := ok }
  greet (s.modLink l (flushPort s.now)) l

/-- TRAINING_COMPLETE: `failed` lists the lanes that failed to train. One data lane may be replaced by the spare lane; a
port that has failed three times in a row, or whose second lane fails, is FAILED. -/
def trainingEffect (l : LinkId) (failed : List (Fin 5)) (s : State) : State :=
  let p := s.link l
  if p.st ≠ .training then s
  else
    let bad := (List.finRange 5).filter fun i => failed.contains i && p.inService i
    let lost := (List.finRange 5).filter fun i => failed.contains i || (p.spareUsed && i.val == p.sparedLane)
    let ok : BitVec 5 := BitVec.ofNat 5 (31 - ofBits (lost.map (·.val)))
    match bad with
    | [] => portUp s l ok
    | i :: rest =>
      if p.spareUsed then secondLane s l i.val
      else if rest = [] ∧ p.spareEn ∧ !failed.contains 4 then startSparing s l i.val
      else
        let n := p.trainFails + 1
        let s := linkFault s l 0x0504 0 (ofBits (failed.map (·.val)))
        let s := s.modLink l fun p => { p with trainFails := n, laneOk := ok }
        if n < 3 then s
        else leaveUp (linkIrq s (12 + l.val)) l .failed

def execTrainingComplete (l : LinkId) (failed : List (Fin 5)) (s : State) : Out := .next (trainingEffect l failed s)

end Sys2Proof.Machine
end

