-- ==== Sys2Proof/Machine/Tiles.lean ====
section
/-! DEFINITION. Tiles between the TDS and the engines (R28, R30-R32, R46, R369-R375, R381-R384, R409, R472, R613-R616):
TAKE_READ, TILE_DISPATCH, TILE_COMMIT. -/

namespace Sys2Proof.Machine

/-! ## TAKE_READ (R369, R370, R614) -/

/-- The TAKE of an engine of a member (R614). -/
def sendTake (s : State) (n : EngId) : State := sendTo s (upAddr s) tyTake 0xFF (leBytes 2 (hedgeAddr s) ++ leBytes 1 n.val)

/-- A take read stalls until a tile is assigned; a member's TDS sends a TAKE for it. One made while a tile is held is an
illegal access (R370). -/
def takeReadEffect (m : Master) (n : EngId) (s : State) : State :=
  if m ≠ .engine n then s.busErr
  else if !engineLive s n then s
  else if (s.eng n).holding.isSome then s.busErr
  else
    let s := (s.modEng n fun e => { e with waiting := true, st := .takeWait, idleFrom := s.now }).reply .stalled
    if isMember s then sendTake s n else s

def execTakeRead (m : Master) (n : EngId) (s : State) : Out := .next (busStop m (takeReadEffect m n) s)

/-! ## What an engine may take (R28, R30, R31, R373, R374, R471, R472, R616) -/

/-- The engine for which alone a tile waits: of a faulted engine's tiles, the one that took its place (R30, R33). DESIGN CHOICE (log 46):
they wait for it until the next step also where it committed the other copy of a cross-checked tile, so that R374 bars it, and where it
is itself found faulty after it became the heir of a retired engine. -/
def keptFor (s : State) (t : Tile) : Option EngId :=
  let r := s.roles
  if !t.redisp || t.notOn.isNone then none
  else if r.standFor == t.notOn then r.coppice
  else match r.heir with
    | some (m, k) => if t.notOn = some m then some k else none
    | none => none
def reserved (s : State) (t : Tile) : Bool := (keptFor s t).isSome

/-- Re-dispatched tiles remain for the coppice engine, or will when their fence is complete. -/
def reservedLeft (s : State) : Bool :=
  s.tds.tiles.any fun t => reserved s t && (match t.status with
    | .ready => true
    | .fenced _ => true
    | _ => false)

/-- The golden frame of the step is due on this engine: after its lane test, and after re-dispatched tiles (R30, R373,
R465, R472, R519). -/
def goldenDue (s : State) (n : EngId) : Bool :=
  s.roles.gold == .due && s.roles.testEng == some n && !s.roles.laneTest.contains n &&
    !(s.roles.coppice == some n && reservedLeft s)

/-- The engine is in its golden-frame slot of REDUCED, or waits for it (R472). -/
def inSlot (s : State) (n : EngId) : Bool :=
  s.service == 2 && s.roles.testEng == some n && (match s.roles.gold with
    | .due => true
    | .running _ => true
    | _ => false)

/-- Where a tile is or was committed: chip and engine. -/
def tilePlace (chip : Nat) (t : Tile) : Option (Nat × EngId) :=
  match t.status with
  | .held e => some (chip, e)
  | .dealt c e => some (c, e)
  | .waitsCopy e c => some (c, e)
  | .committed e c => some (c, e)
  | _ => none

/-- The other copy of a cross-checked tile. -/
def otherCopy (s : State) (t : Tile) : Option Tile :=
  s.tds.tiles.find? fun x => x.xchk && x.ctx == t.ctx && x.frame == t.frame && x.station == t.station && x.seq == t.seq &&
    x.copyB != t.copyB

/-- Some chip other than `chip` is IN: the top root counts as IN. -/
def otherChipIn (s : State) (chip : Nat) : Bool :=
  hedgeRole s == 3 && (chip != hedgeAddr s || s.hedge.members.any fun m => m.st == 3 && m.addr != chip)

/-- A copy of a cross-checked tile is kept from the engine that holds or has committed the other copy, from that copy's
chip while another chip is IN, and from the engine that faulted on it (R374, R616; log 46). -/
def copyBarred (s : State) (chip : Nat) (n : EngId) (t : Tile) : Bool :=
  t.xchk && ((t.notOn == some n && chip == s.chip) || match (otherCopy s t).bind (tilePlace s.chip) with
    | some (c, e) => c == chip && (e == n || otherChipIn s c)
    | none => false)

/-- The ready tiles that the engine's role allows. -/
def allowed (s : State) (n : EngId) (t : Tile) : Bool :=
  t.status == .ready && !copyBarred s s.chip n t &&
    (if s.roles.coppice == some n then
      s.roles.standFor.isSome && (s.roles.gold == .ended || keptFor s t == some n)
    else s.working n && !inSlot s n && (keptFor s t == none || keptFor s t == some n))

/-! ## The order of dispatch (R381) -/

/-- The classes of tiles within a context. -/
def classOf (st : Nat) : Nat :=
  if st = stSmooth then 0 else if st = stSelect then 1 else if st = stScore then 2 else if st = stCheck then 3 else 4

/-- The keys of R381, in order. -/
def dispatchKey (s : State) (t : Tile) : List Nat :=
  match ruleCtx s t with
  | none => [1, 8]
  | some c =>
    let p := partOf s c
    let dl := match s.run c with
      | some r => r.f + us (deadlineUs s c)
      | none => s.now
    [bit (s.tds.parts[p].credit ≤ 0), p.val, dl, c.val, if 16 ≤ t.ctx then 2 else bit (!t.redisp), classOf t.station,
      t.frame, t.seq, t.level, t.node, bit t.copyB]

/-- Lexicographic order of keys. -/
def keyBefore : List Nat → List Nat → Bool
  | a :: as, b :: bs => decide (a < b) || (a == b && keyBefore as bs)
  | _, _ => false

/-- The first of some tiles in the order of R381. -/
def firstTile (s : State) (l : List Tile) : Option Tile :=
  l.foldl (fun best t => match best with
    | none => some t
    | some b => if keyBefore (dispatchKey s t) (dispatchKey s b) then some t else best) none

/-! ## TILE_DISPATCH (R381, R382, R384, R614) -/

/-- What an engine is given. -/
inductive Give where
  | golden
  | load (c : CtxId)
  | dealt (d : DealtTile) (t : Tile)
  | tile (t : Tile)
deriving DecidableEq, Repr

/-- A context whose load the engine has still to make (R351). -/
def loadDue (s : State) (n : EngId) : Option CtxId :=
  if s.working n || s.roles.coppice == some n then
    allCtx.find? fun c => (s.ctx c).st != .idle && (s.ctx c).st != .draining && (s.ctx c).loading.contains n
  else none

/-- A tile of the top root that waits for the engine, and whose context's load has completed on it (R612). -/
def dealtFor (s : State) (n : EngId) : Option (DealtTile × Tile) :=
  s.hedge.dealtWait.findSome? fun (d, e, t) =>
    if e = n ∧ !(decide (t.ctx < 16) && (s.ctx (Fin.ofNat 16 t.ctx)).loading.contains n) then some (d, t) else none

/-- What the next tile of an engine is, if any: the golden frame first, then loads (log 48), then a tile of the top root, then R381. -/
def nextFor (s : State) (n : EngId) : Option Give :=
  if goldenDue s n then some .golden
  else if inSlot s n then none
  else match loadDue s n with
    | some c => some (.load c)
    | none => match dealtFor s n with
    | some (d, t) => some (.dealt d t)
    | none => (firstTile s (s.tds.tiles.filter (allowed s n))).map .tile

/-- An engine whose take read waits. -/
def takes (s : State) (n : EngId) : Bool := engineLive s n && (s.eng n).waiting

/-- The own engine that is served next: the lowest-numbered of those with something to take. -/
def ownTaker (s : State) : Option (EngId × Give) :=
  allEng.findSome? fun n => if takes s n then (nextFor s n).map fun g => (n, g) else none

/-- The tick of the publication that a tile works on: of its frame's snapshot, or of its grid (R87, R91). -/
def tileTick (s : State) (t : Tile) : Nat :=
  if t.ctx < 16 then ((s.run (Fin.ofNat 16 t.ctx)).map (·.tf)).getD 0 else t.frame

/-- The ready tiles that a member may be given (R613): of frames whose snapshot it has published (R606). GROW stays on the top root. -/
def dealable (s : State) (chip : Nat) (n : EngId) (t : Tile) : Bool :=
  (s.hedge.members.any fun m => m.addr == chip && decide (m.joined < tileTick s t)) &&
  t.status == .ready && t.station != stSmooth && t.station != stGrow && t.station != stLoad && !copyBarred s chip n t && !reserved s t

/-- The oldest TAKE that a tile can be dealt to. -/
def remoteTaker (s : State) : Option (Nat × EngId × Nat × Tile) :=
  s.hedge.takes.findSome? fun (a, e, at_) =>
    if s.hedge.members.any fun m => m.addr == a && m.st == 3 then
      (firstTile s (s.tds.tiles.filter (dealable s a e))).map fun t => (a, e, at_, t)
    else none

/-- The log entry of a CHECK tile at its dispatch (R384). -/
def logDispatch (s : State) (t : Tile) : State :=
  if t.station = stCheck ∧ t.ctx < 16 then
    logPut s (Fin.ofNat 16 t.ctx) t.frame t.seq fun x =>
      { x with station := 3, lflags := x.lflags ||| (bit t.redisp + 2 * bit t.xchk) }
  else s

/-- A tile assigned to an own engine: its take read returns the handle, and its working banks are undefined (R353). -/
def assign (s : State) (n : EngId) (t : Tile) : State :=
  let s := s.modTile t.handle fun t => { t with status := .held n, since := s.now }
  let s := s.modEng n fun e =>
    { e.undefine with holding := some t.handle, waiting := false, st := if t.station = stLoad then .loading else .run }
  (tileRegs (logDispatch s t) n t).reply (.ok t.handle)

/-- A new tile assigned to an own engine. -/
def assignNew (s : State) (n : EngId) (t : Tile) : State :=
  let h := s.tds.nextHandle
  assign (addTile s t) n { t with handle := h }

/-- The transfers that a context-load tile queues: code into the instruction RAM, resident data into banks 0-3, within the ranges that
AON has allocated (R351, R352). Where in the planning image they lie is Decgon's (log 112): from the image's first byte. -/
def loadTransfers (s : State) (c : CtxId) (e : Engine) : List Dma :=
  let at_ := match s.images.toList.find? fun e => e.st == 2 && e.kind == 1 && e.handle == cNat s c 0x03 with
    | some e => e.offset
    | none => 0
  let to_ := fun (imem : Bool) (l : List (Nat × List (Nat × Nat) × Bytes)) =>
    ((l.filter fun x => x.1 == c.val).flatMap (·.2.1)).map fun r => (⟨imem, false, false, r.1, at_, r.2⟩ : Dma)
  to_ true e.imem ++ to_ false e.resident

/-- Transfers put into an engine's queue, which holds 8 (R326). -/
def Engine.queueDma (e : Engine) (l : List Dma) : Engine := { e with dma := (e.dma ++ l).take 8 }

/-- What the chosen engine is given takes effect. -/
def giveTile (s : State) (n : EngId) : Give → State
  | .golden =>
    let s := { s with roles := { s.roles with gold := .running s.now } }
    let s := goldenStart (assignNew s n { (default : Tile) with ctx := 16, station := stGolden, status := .ready }) n
    -- the program's access to a working bank that is not ENGINE's ends with a bus error (R329, R340)
    if (s.eng n).workBanks < 12 then stopEngine s n 3 else s
  | .load c =>
    let s := assignNew s n { (default : Tile) with ctx := c.val, frame := (s.ctx c).frameNo, station := stLoad, status := .ready }
    s.modEng n fun e =>
      let e := e.allot c (codeOf s c).length (residentOf s c).length
      e.queueDma (loadTransfers s c e)
  | .dealt d t =>
    let own := s.tds.nextHandle
    let s := assignNew s n t
    { s with hedge := { s.hedge with
        dealtWait := s.hedge.dealtWait.filter fun x => x.1.handle != d.handle
        dealtHere := s.hedge.dealtHere ++ [⟨d.handle, own, d.inputs⟩] } }
  | .tile t => assign s n t

/-- The input records of a dealt tile, as far as the spec gives records (R176; log 49). -/
def tileInputs (s : State) (t : Tile) : Bytes :=
  if t.ctx < 16 then match s.run (Fin.ofNat 16 t.ctx) with
    | some r => if t.station = stCheck ∨ t.station = stScore then (r.tileCands t.seq).flatMap Cand.bytes else []
    | none => []
  else []

/-- A tile dealt to a member. -/
def deal (s : State) (a : Nat) (e : EngId) (t : Tile) : State :=
  let s := s.modTile t.handle fun t => { t with status := .dealt a e, since := s.now }
  let s := { s with hedge := { s.hedge with takes := s.hedge.takes.filter fun x => !(x.1 == a && x.2.1 == e) } }
  sendTo (logDispatch s t) a tyTile (if t.ctx < 16 then t.ctx else 0xFF) (tileInputs s t)

/-- TILE_DISPATCH: one tile goes to the requester whose turn it is, own engines before a TAKE of the same edge. -/
def tileDispatchEffect (s : State) : State :=
  if !s.tds.run || s.boot.phase != .on then s
  else match ownTaker s, remoteTaker s with
    | some (n, g), some (a, e, at_, t) => if (s.eng n).idleFrom ≤ at_ then giveTile s n g else deal s a e t
    | some (n, g), none => giveTile s n g
    | none, some (a, e, _, t) => deal s a e t
    | none, none => s

def execTileDispatch (s : State) : Out := .next (tileDispatchEffect s)

/-! ## TILE_COMMIT (R45, R210, R234, R370-R374, R384, R615) -/

/-- The engine of a place, where it is on this chip. -/
def localEng (s : State) (chip : Nat) (e : EngId) : Option EngId := if chip = s.chip then some e else none

/-- The log entry of a CHECK tile at its commit (R384): kept while the frame's log is. -/
def logCommit (s : State) (t : Tile) (chip : Nat) (e : EngId) : State :=
  if t.station = stCheck ∧ t.ctx < 16 ∧ (s.ctx (Fin.ofNat 16 t.ctx)).frameNo ≤ t.frame + 1 then
    logPut s (Fin.ofNat 16 t.ctx) t.frame t.seq fun x =>
      if t.copyB then { x with engB := e.val, chipB := chip } else { x with engA := e.val, chip := chip }
  else s

/-- The Select unit of an engine holds the rank keys and the overflow key of a list that it made, up to 16 entries: it is used for k up
to 16 (R231, R236, R338). -/
def noteSelect (s : State) (c : CtxId) (n : Option EngId) (l : Option RankList) : State :=
  match n, l with
  | some n, some l =>
    if selK s c ≤ 16 then
      s.modEng n fun e => { e with core := { e.core with select := (l.entries.take 16).map rankKey, selOver := l.overflow } }
    else s
  | _, _ => s

/-- The list that an engine makes of a score tile, by its own costs (R231). -/
def scoreList (s : State) (c : CtxId) (t : Tile) (d : TileDefect) : Option RankList :=
  match s.run c, (s.ctx c).plan with
  | some r, some plan => some (bestOf (selK s c) ((scoreCosts s c r plan t.seq d).map fun x => (x.2.1, x.1)))
  | _, _ => none

/-- The effect of a context's tile that commits. `first` is the copy that had committed before it. -/
def stationCommit (s : State) (t : Tile) (n : Nat × EngId) (d : TileDefect)
    (first : Option ((Nat × EngId) × TileDefect)) : State :=
  let c : CtxId := Fin.ofNat 16 t.ctx
  if t.station = stGrow then growCommit s c t
  else if t.station = stCheck then checkCommit s c t n d first
  else if t.station = stScore then scoreCommit s c t n d first
  else if t.station = stSelect then
    let s' := mergeCommit s c t
    noteSelect s' c (localEng s n.1 n.2) ((s'.run c).bind fun r => r.listAt t.level t.node)
  else if t.station = stSmooth then smoothCommit s c t (localEng s n.1 n.2) d
  else s

/-- A tile commits at an engine of a chip. A cross-checked copy whose other copy has not committed is held. -/
def commitTile (s : State) (t : Tile) (chip : Nat) (e : EngId) (d : TileDefect) : State :=
  let n := localEng s chip e
  let s := logCommit s t chip e
  let s := match n with
    | some n =>
      engFlags (if t.station = stCheck ∨ t.station = stForecast ∨ t.discard then engFreeFlags s n else s) n (tileFlags s t d)
    | none => s
  let c : CtxId := Fin.ofNat 16 t.ctx
  let s := if t.ctx < 16 ∧ t.station = stScore ∧ !t.discard then noteSelect s c n (scoreList s c t d) else s
  if t.discard then s.dropTile t.handle
  else if t.station = stForecast then forecastCommit (s.dropTile t.handle) t.frame
  else match (if t.xchk then otherCopy s t else none) with
    | none => stationCommit (tileFaults (s.dropTile t.handle) t d) t (chip, e) d none
    | some o => match o.status with
      | .waitsCopy m k =>
        stationCommit (tileFaults ((s.dropTile t.handle).dropTile o.handle) t d) t (chip, e) d (some ((k, m), o.defect))
      | _ => tileFaults (s.modTile t.handle fun t => { t with status := .waitsCopy e chip, defect := d }) t d

/-- A context load commits: the engine holds the context's code and resident data (R351). -/
def loadCommit (s : State) (n : EngId) (c : CtxId) : State :=
  (setLoaded s n c true).modCtx c fun x => { x with loading := x.loading.filter fun e => e != n }

/-- A golden frame's tile commits nothing (R373); it waits for its digest to be judged. The flags of its arithmetic are open
(log 5). -/
def goldenCommit (s : State) (n : EngId) (t : Tile) : State :=
  let s := engFreeFlags s n
  if t.discard then s.dropTile t.handle else s.modTile t.handle fun t => { t with status := .committed n s.chip }

/-- The Select unit of an engine that ran a tile of the top root: 16 keys and an overflow key that nothing here gives (log 5). -/
def freeSelect (s : State) (n : EngId) : State :=
  let (l, s) := freeWords 64 17 s
  s.modEng n fun e => { e with core := { e.core with
    select := (sortBy (fun a b => decide (a < b)) ((l.take 16).map (·.toNat))), selOver := (l.getLastD 0).toNat } }

/-- An engine found faulty at this edge by a command that waits: the fault wins over its commit (R371; log 12). -/
def stopWaits (s : State) (n : EngId) : Bool :=
  s.pending.any fun i => match i with
    | .engineStop m _ _ _ => m == n
    | _ => false

/-- TILE_COMMIT: a write of the held handle; any other handle is an illegal access (R370). `d` says what went wrong in the
tile. -/
def tileCommitEffect (m : Master) (n : EngId) (handle : Nat) (d : TileDefect) (s : State) : State :=
  if m ≠ .engine n then s.busErr
  else if !engineLive s n then s
  else if (s.eng n).holding ≠ some handle then s.busErr
  else if stopWaits s n then s
  else match s.tile handle with
    | none => (letGo s n .idle).okBus
    | some t =>
      let s := letGo s n .idle
      let s := s.modEng n fun e => { e with perfTiles := wrapInc 32 e.perfTiles }
      State.okBus (if t.station = stGolden then goldenCommit s n t
        else if t.station = stLoad then
          if t.discard then s.dropTile handle else loadCommit (s.dropTile handle) n (Fin.ofNat 16 t.ctx)
        else match s.hedge.dealtHere.find? fun x => x.own == handle with
          | some x =>
            -- a tile of the top root: its output records go back (log 49); what its arithmetic leaves in the engine is open
            let s := engFreeFlags s n
            let s := if t.station = stScore ∨ t.station = stSelect then freeSelect s n else s
            let s := { s with hedge := { s.hedge with dealtHere := s.hedge.dealtHere.filter fun x => x.own != handle } }
            let (k, s) := s.free 64
            sendTo (s.dropTile handle) 0 tyResult (if t.ctx < 16 then t.ctx else 0xFF) (Config.tileOutput t.station x.inputs k.toNat)
          | none => commitTile s t s.chip n d)

def execTileCommit (m : Master) (n : EngId) (handle : Nat) (d : TileDefect) (s : State) : Out :=
  .next (busStop m (tileCommitEffect m n handle d) s)

end Sys2Proof.Machine
end

