-- ==== Sys2Proof/Machine/Recorder.lean ====
section
/-! DEFINITION. Seeds (R431-R433), MARK (R443), replay (R434-R442): starting, pausing, saving, resuming, stopping, and the
recorded entries. -/

namespace Sys2Proof.Machine

/-! ## Seeds (R431, R432) -/

/-- SEED: the seed captured at the present tick goes to the next slot, and is written after those that wait already (log 54). -/
def seedEffect (s : State) : State :=
  let r := s.recorder
  match r.due with
  | some sd =>
    if r.st ≠ 1 then s
    else { s with recorder := { r with
      due := none, seedRuns := r.seedRuns ++ [(r.nextSlot, sd)], nextSlot := (r.nextSlot + 1) % 2 } }
  | none => s

def execSeed (s : State) : Out := .next (seedEffect s)

/-- SEED_COMPLETE: the first seed that waits is written and its SEED entry, once it is in the ring, makes it usable (R432); its pins are
released. One that does not fit its slot is abandoned (log 119). -/
def seedCompleteEffect (s : State) : State :=
  match s.recorder.seedRuns with
  | [] => s
  | (slot, sd) :: rest =>
    let s := { s with recorder := { s.recorder with seedRuns := rest } }
    match putSeed s slot sd with
    | some s =>
      let entry := leBytes 6 sd.tick ++ leBytes 4 (seedOffset s slot)
      let (t, written) := tryRecord s s.world.tick 0x0E slot entry
      let t := if written then useSeed t slot sd else t
      broadcastEntry t slot (entryBytes s.world.tick 0x0E slot entry)
    | none => { s with recorder := { s.recorder with seedAbandon := wrapInc 32 s.recorder.seedAbandon } }

def execSeedComplete (s : State) : Out := .next (seedCompleteEffect s)

/-! ## MARK (R443) -/

/-- The SRC of a port: 0 Port A, 1 Port B. -/
def portSrc : Port → Nat
  | .a => 0
  | .b => 1

def markApply (p : Port) (v : Nat) (s : State) : State := record s s.world.tick 0x0F (portSrc p) (leBytes 4 v)

/-! ## Starting a replay (R433, R434, R440, procedure "replaying a recording") -/

/-- The seed that START restores: the one that SEED_BASE points to, if its bytes are a seed (procedure "replaying a recording"). -/
def startSeed (s : State) : Option Seed := seedAt s (seedOffset s 0)

/-- The resident partition p of a context holds what the seed names, or the registered image gives it (R434). -/
def residentOk (s : State) (c : CtxId) (q : RmPart) (p : Nat) : Bool :=
  let have_ := (s.ctx c).rm.parts[p]?.getD default
  (have_.st == 2 && have_.handle == q.handle && have_.chain == q.chain) ||
    match goodImage s 2 q.handle with
    | some bs =>
      let h := parseRmHeader bs
      digest128 (slice bs 0 (256 + 64 * h.nCount + 512 * h.eCount)) == q.chain
    | none => false

/-- Every partition that a seed names can stand (R434); otherwise START is refused with 0x0800_0024. -/
def chainsOk (s : State) (sd : Seed) : Bool :=
  sd.ctxs.all fun x => (List.range 2).all fun p =>
    let q := x.rm.parts[p]?.getD default
    q.st != 2 || residentOk s x.ctx q p

/-- The values of a seed in place of those of the context's objects. -/
def restoreVals (c : CtxId) (vals : List (Nat × Bytes)) (m : List (Nat × Bytes)) : List (Nat × Bytes) :=
  vals.foldl (fun m e => amPut m e.1 e.2) (m.filter fun e => !(ctxIndices c).contains (e.1 / 256))

/-- The entries that an admission seed carries for a partition, in their places. -/
def writePart (s : State) (c : CtxId) (p : Nat) (q : RmPart) (bs : Bytes) : State :=
  let m := memWrite s.store (nodeAddr s (nodeFirst s c p)) (bs.take (64 * q.nCount))
  { s with store := memWrite m (edgeAddr s (edgeFirst s c p)) (slice bs (64 * q.nCount) (512 * q.eCount)) }

/-- A context restored from a seed: its values, frames, paths and partitions. -/
def restoreCtx (s : State) (x : SeedCtx) : State :=
  let keep := (s.ctx x.ctx).rm
  let s := { s with
    shadow := restoreVals x.ctx x.vals s.shadow, edgeShadow := restoreVals x.ctx x.vals s.edgeShadow
    force := restoreVals x.ctx x.vals s.force }
  let handle := leNat (shadowVal s (0x2000 + x.ctx.val) 0x03)
  let s := s.modCtx x.ctx fun y =>
    { replayCtx s y handle x.frame with
      warm := x.warm, stop := x.stop, firstF := if x.stop.isSome then some s.now else none, tool := x.tool
      planDigest := imageDigest s handle, rm := { x.rm with auditing := false } }
  -- a partition that is not resident is filled from its image, or from the seed that admits this chip
  (List.range 2).foldl (fun s p =>
    let q := x.rm.parts[p]?.getD default
    let r := keep.parts[p]?.getD default
    if q.st ≠ 2 ∨ (r.st == 2 && r.handle == q.handle && r.chain == q.chain) then s
    else
      let bs := x.parts[p]?.getD []
      let s := if bs.isEmpty then writeImage s x.ctx p ((goodImage s 2 q.handle).getD []) else writePart s x.ctx p q bs
      s.modRm x.ctx fun rm => rm.modPart p fun _ => q) s

/-- The world of a seed. Inputs are read again from the recording; a forecast launched before the seed is launched again
from the grids. -/
def restoreWorld (s : State) (sd : Seed) : State :=
  let w := sd.world
  let now := s.now
  let s := { s with world := { w with
    inputs := [], launches := []
    pubs := (w.pubs.filter fun p => p.tick == sd.tick).map fun p => { p with at_ := now, wait := none, freeNT := none }
    coarsenCount := s.world.coarsenCount, allocFail := s.world.allocFail, fcStaleCount := s.world.fcStaleCount
    updReject := s.world.updReject } }
  -- the bitmap of the current publication is rebuilt (R431)
  let s := writeBitmap s
  w.launches.foldl (fun s l =>
    addTile { s with world := { s.world with launches := s.world.launches ++
      [{ l with handle := s.tds.nextHandle, done := false }] } } (forecastTile l.tick)) s

/-- What a live part stops when a replay begins: frames, tiles of contexts, loads. -/
def clearForReplay (s : State) : State :=
  let tile := fun (t : Tile) => match t.status with
    | .held _ => some (if t.station = stGolden then t else { t with discard := true })
    | .dealt _ _ => some { t with discard := true }
    | .committed _ _ => some t
    | _ => none
  unloadAll { s with
    ctxs := s.ctxs.map fun x => { x with st := .idle, run := none, sstate := .stopped, loading := [] }
    tds := { s.tds with tiles := s.tds.tiles.filterMap tile }, loader := [], vfy := { s.vfy with busy := none } }

/-- How many FRAME entries of a context a replay from a seed passes over: those before the seed's frame of the context, or, where
the context did not run at the seed's tick, those of earlier ticks. -/
def passedFrames (s : State) (sd : Seed) (c : CtxId) : Nat :=
  let es := recFrames s c
  let earlier := (es.filter fun e => decide (e.tick < sd.tick)).length
  match sd.ctxs.find? fun x => x.ctx == c with
  | some x =>
    let k := es.findIdx fun e => decide (sd.tick ≤ e.tick) && e.frame == x.frame
    if k < es.length then k else earlier
  | none => earlier

/-- START accepted: the seed is restored, or the replay starts from the power-on world, where no context runs yet; the entries are
read from their first (R434, R436). -/
def replayStartApply (s : State) : State :=
  let sd := startSeed s
  let s := clearForReplay s
  let rest := fun (s : State) (tick : Nat) (passed : Vector Nat 16) =>
    drivePins { s with recorder := { s.recorder with
      st := 3, replay := 1, pos := 0, nextFr := passed, replayTick := tick, pausing := false, due := none, seedRuns := []
      recorded := match sd with
        | some sd => (sd.ctxs.filter (·.open_)).map (·.ctx)
        | none => []
      barred := if oNat s 0x2700 0x0F = recBase s then s.recorder.rebuilds.find? fun t => decide (tick ≤ t) else none } }
  match sd with
  | some sd =>
    let passed := Vector.ofFn (passedFrames s sd)
    let s := { s with recorder := { s.recorder with st := 3 } }
    let s := giveBanks (sd.ctxs.foldl restoreCtx (restoreWorld s sd))
    let s := setObj s 0x2700 0x01 (leBytes 1 sd.strict)
    rest { s with power := { s.power with inForce := sd.step } } sd.tick passed
  | none =>
    rest { s with world := { World.reset with
      geom := geomOf s, coarsenCount := s.world.coarsenCount, allocFail := s.world.allocFail
      fcStaleCount := s.world.fcStaleCount, updReject := s.world.updReject
      fcStale := wNat s 0x1C, fcImage := wNat s 0x1F } } 0 (Vector.replicate 16 0)

/-- START is refused: 0x0800_0024 where a chain digest differs (R434, procedure). -/
def replayStartRefused (s : State) : Option Nat :=
  match startSeed s with
  | some sd => if chainsOk s sd then none else some 0x08000024
  | none => none

/-! ## PAUSE, SAVE, RESUME, STOP (R440, R442, R443) -/

/-- PAUSE, SAVE and RESUME are refused unless the part replays (R442). -/
def replayOnly (s : State) : Option Nat := if s.replaying then none else some 0x08000022

def replayPauseApply (s : State) : State :=
  if s.recorder.st = 3 then pauseCheck { s with recorder := { s.recorder with pausing := true } } else s

/-- SAVE in PAUSED writes a seed into slot 0; one that does not fit is not written (log 119). -/
def replaySaveApply (s : State) : State :=
  if s.recorder.st ≠ 4 then s else ((putSeed s 0 (makeSeed s s.world.tick)).map fun s => useSeed s 0 (makeSeed s s.world.tick)).getD s

def replayResumeApply (s : State) : State :=
  if s.recorder.st = 4 then { s with recorder := { s.recorder with st := 3, replay := 1, pausing := false } } else s

def replayStopApply (s : State) : State := if s.replaying then drivePins (endReplay s 0) else s

/-! ## REPLAY_ENTRY (R109, R434, R435, R439) -/

/-- The lines of an IMAGE entry decoded: depth and confidence. -/
def decodeImage (conf : Bool) (w : Nat) (bs : Bytes) : Nat → Nat → List (List Nat) → List (List Nat) →
    List (List Nat) × List (List Nat)
  | 0, _, d, c => (d, c)
  | n + 1, pos, d, c =>
    let (px, pos) := decodeLine bs (w / 32 + 1) w pos []
    if conf then decodeImage conf w bs n (pos + 8 * w) (d ++ [px.reverse]) (c ++ [(slice bs (pos / 8) w).map (·.toNat)])
    else decodeImage conf w bs n pos (d ++ [px.reverse]) c

/-- A recorded image: its status stands, its points are computed again (R109). -/
def entryImage (s : State) (e : RecEntry) : State :=
  let st : StreamId := Fin.ofNat 16 e.src
  let b := e.payload
  let status := u b 0 1
  let fcnt := u b 1 4
  let mid : Int := si b 5 8
  let s := s.modStream st fun x => { x with lastCode := status, acc := if status = 0 then x.acc + 1 else x.acc
                                            st := if x.en && status == 0 then .run else x.st }
  match s.fus.streams[st].rec_ with
  | some r =>
    if status ≠ 0 then s
    else
      let (depth, conf) := decodeImage (r.dtConf != 0) (u b 13 2) (b.drop 17) (u b 15 2) 0 [] []
      let (set, out) := updateSet s.world.geom r (maskSpheres s mid) (wNat s 0x1D) depth conf
      { s with world := { s.world with
          inputs := s.world.inputs ++ [.image e.tick st fcnt set], updReject := (s.world.updReject + out) % 2 ^ 32 } }
  | none => s

/-- A joint sample kept, in the order of stamps (R80, R81). -/
def addJoint (s : State) (c : CtxId) (stamp : Nat) (pos : List Word) : State :=
  s.modCtx c fun x => { x with joints := x.joints ++ [(stamp, pos)] }

/-- A recorded input or decision applied (R435). A frozen value of the part takes effect at once, that of a context before its
first frame (`readyFor`). -/
def applyEntry (s : State) (e : RecEntry) : State :=
  let b := e.payload
  if e.ty = 0x01 then entryImage s e
  else if e.ty = 0x02 then
    let st : StreamId := Fin.ofNat 16 e.src
    let failed := u b 0 1 == 1
    let s := s.modStream st fun x => { x with st := if !x.en then x.st else if failed then .failed else .lost }
    { s with world := { s.world with inputs := s.world.inputs ++ [.loss e.tick st failed] } }
  else if e.ty = 0x03 then
    (parseExt (b.length / 24 + 1) b).1.foldl (fun s m =>
      { s with world := { s.world with inputs := s.world.inputs ++ [.ext e.tick m.source m.seq m.entries] } }) s
  else if e.ty = 0x07 then (if e.src = 0xFF then applyItems s false [e] else s)
  else if e.ty = 0x08 then addJoint s (Fin.ofNat 16 e.src) (u b 0 8) (words b 8 12)
  else if e.ty = 0x0C then { s with power := { s.power with inForce := u b 0 1 } }
  else if e.ty = 0x0D then fuseResetEffect s
  else s

/-- An entry that a replay from a seed does not need (R433). -/
def beforeSeed (s : State) (e : RecEntry) : Bool := decide (e.tick + wNat s 0x15 ≤ s.world.tick) && e.ty != 0x08

/-- The replay ends here: no frame is in progress and no recorded frame is left. -/
def replayDone (s : State) : Bool :=
  allCtx.all fun c => (s.ctx c).run.isNone && (nextRecorded s c).isNone

/-- REPLAY_ENTRY: the next entry of the recording. At a GAP entry or a CRC failure the replay stops with ERROR, at the
end of the recording with ENDED, once its frames have run. -/
def replayEntryEffect (s : State) : State :=
  if s.recorder.st ≠ 3 then s
  else match entryAt s s.recorder.pos with
    | none => if replayDone s then drivePins (endReplay s 3) else s
    | some e =>
      if !e.crcOk || e.ty == 0x10 then drivePins (endReplay s 4)
      else if s.world.tick < e.tick then s
      else
        -- the members of a hedge replay it too (R434, R610; log 55)
        let s' := broadcastEntry s e.src (psramRead s (oNat s 0x2700 0x0F + s.recorder.pos) e.size)
        let s' := { s' with recorder := { s'.recorder with pos := s'.recorder.pos + e.size } }
        if beforeSeed s e then s' else applyEntry s' e

def execReplayEntry (s : State) : Out := .next (replayEntryEffect s)

end Sys2Proof.Machine
end

