-- ==== Sys2Proof/Machine/Recovery.lean ====
section
/-! DEFINITION. Reset domains (R505-R514, R518, R524, R546, R599), what each reset clears and brings back, and crash dumps
(R536-R541, R548, R549). -/

namespace Sys2Proof.Machine

/-! ## Port interfaces from the configuration record (R550, R574, R575, R591, R592) -/

/-- An SDIO interface out of its reset. -/
def sdFromCfg (s : State) (i : SdIf) : Sd :=
  match s.boot.cfg.sdio[sdIdx i]? with
  | some c => { Sd.reset with en := c.en, f2En := c.f2En, maxMode := c.maxMode, v18En := c.v18En }
  | none => Sd.reset

/-- A CAN controller out of its reset: it announces itself and becomes pre-operational (R575; log 56). -/
def canFromCfg (s : State) (n : CanIf) : Can :=
  match s.boot.cfg.can[canIdx n - 2]? with
  | some c =>
    { (default : Can) with
      en := c.en, gen := c.gen, nodeId := c.nodeId, emcyEn := c.emcyEn, heartbeatMs := c.heartbeatMs, timing := c.timing
      xlIds := c.xl
      nmt := if c.en then 0x7F else 0, tx := if c.en then [.bootUp] else [], lastHb := s.now }
  | none => default

/-- The port interfaces set up from the configuration record. -/
def ioFromCfg (s : State) : State :=
  { s with
    sda := sdFromCfg s .sda, sdb := sdFromCfg s .sdb, cn0 := canFromCfg s .cn0, cn1 := canFromCfg s .cn1 }

/-! ## What a reset clears (R13, R505) -/

def domFuse : DomainId := 18
def domPsram : DomainId := 21
def domHost : DomainId := 28
def domIo : DomainId := 29

/-- The engine of a domain 0-17. -/
def domEng (d : DomainId) : Option EngId := if h : d.val < 18 then some ⟨d.val, h⟩ else none
/-- The link port of a domain 22-27. -/
def domLink (d : DomainId) : Option LinkId :=
  if h : 22 ≤ d.val ∧ d.val < 28 then some ⟨d.val - 22, by omega⟩ else none

/-- An engine held in reset: its registers take their reset values, its banks are ENGINE's, and banks 4-15 are undefined. Its
lane replacement and the contents of the instruction RAM stay (R333, R505). -/
def Engine.held (e : Engine) : Engine :=
  let und := ({ e with banks := e.banks.map fun _ => default } : Engine).undefine
  { Engine.reset with
    st := if e.st = .off then .off else .reset
    spareUsed := e.spareUsed, lane := e.lane, imemUsed := e.imemUsed, ctxLoaded := e.ctxLoaded
    spad := und.spad, spadGen := und.spadGen, foundAt := e.foundAt, imem := e.imem, resident := e.resident, clipStep := e.clipStep
    idleFrom := e.idleFrom, gfFrom := e.gfFrom, named := e.named, disNamed := e.disNamed, faulty := e.faulty }

/-- What an engine held goes back to the dispatcher, and a golden frame is abandoned (R373-R375, R465). -/
def engineHeld (s : State) (n : EngId) : State :=
  let s := fenceTiles (abortGolden s n) n
  s.modEng n Engine.held

/-- The Fuse unit held in reset (R122): its registers take their reset values, but for FUS_CTRL and the enables of the streams
(log 57). -/
def fuseHeld (s : State) : State :=
  -- in replay the recorded FUSE_RESET stands in place of the part's own (R435)
  let s := if s.replaying then s else fuseResetEffect s
  let str := fun (x : Stream) =>
    { x with lastCode := 0, gaps := 0, lastCam := none, fcnt := 0, acc := 0 }
  { s with fus := { s.fus with
      irq := 0, irqEn := 0, pipeFault := 0, pipeFail := 0, tlRuns := 0, tlSig := Fus.reset.tlSig, tlRays := Fus.reset.tlRays, rx := Fus.reset.rx
      streams := s.fus.streams.map str } }

/-- The Verifier held in reset: its attempt ends without a result, and is not started again (R524). VFY_CTRL stays. -/
def verifierHeld (s : State) : State :=
  { s with vfy := { Vfy.reset with run := s.vfy.run } }

/-- The PSRAM controller held in reset: its registers take their reset values, every populated channel is being set up again (R659,
R682), and a loader operation starts again from its beginning (R524). -/
def psramHeld (s : State) : State :=
  let r := Power.reset
  { s with
    loader := s.loader.map fun j => { j with begun := false }
    power := { s.power with
      chPop := r.chPop, chLc := r.chLc, chDrive := r.chDrive, chTcem := r.chTcem, chSize := r.chSize, chLong := r.chLong
      chSplits := r.chSplits, chId := r.chId
      chState := Vector.ofFn fun c => if (s.boot.cfg.psram[c.val]?.map (·.pop)).getD false then 1 else 0 } }

/-- A populated PSRAM channel set up, with the configuration record's values, `psramMiB` what its device answers (R659). -/
def psramChannel (psramMiB : List Nat) (s : State) (c : Fin 8) : State :=
  match s.boot.cfg.psram[c.val]? with
  | none => s
  | some k =>
    let mib := psramMiB[c.val]?.getD 0
    let ok := k.pop && [8, 16, 32, 64].contains mib
    let p := s.power
    let s := { s with power := { p with
      chPop := vupd p.chPop c fun _ => k.pop, chLc := vupd p.chLc c fun _ => k.lc
      chDrive := vupd p.chDrive c fun _ => k.drive, chTcem := vupd p.chTcem c fun _ => k.tcem
      chSize := vupd p.chSize c fun _ => if ok then mib else 0
      chState := vupd p.chState c fun _ => if !k.pop then 0 else if ok then 2 else 3
      chId := vupd p.chId c fun x => if ok then Config.psramId c.val else x } }
    if k.pop && !ok then fault s 0xFF 21 0x0401 0x1F 0x1F 0 0 else s

/-- Every channel set up (R659). -/
def psramInit (psramMiB : List Nat) (s : State) : State := (List.finRange 8).foldl (psramChannel psramMiB) s

/-- A link port set up as the configuration record and the wear record say; an enabled one starts TRAINING (R531, R599, R623). -/
def linkFromCfg (s : State) (l : LinkId) : State :=
  match s.boot.cfg.links[l.val]? with
  | some k =>
    let lane := s.wear.linkLane[l]
    startTraining (s.modLink l fun p =>
      { p with en := k.en, spareEn := k.spareEn, spareUsed := lane != 0, sparedLane := lane - 1 }) l
  | none => s

/-- The I/O cluster held in reset: frames, commands and answers are lost, and writes that have no SEM yet (R505, R560). -/
def ioHeld (s : State) : State :=
  { s with
    sem := { s.sem with waiting := [], lost := s.sem.holder.isSome }, portA := default, portB := default
    sda := { Sd.reset with en := false }, sdb := { Sd.reset with en := false }, cn0 := default, cn1 := default }

/-- A domain enters its reset. -/
def domainHeld (s : State) (d : DomainId) : State :=
  match domEng d with
  | some n => engineHeld s n
  | none => match domLink d with
    | some l => portHeld s l
    | none =>
      if d = domFuse then fuseHeld s
      else if d = domVerifier then verifierHeld s
      else if d = domPsram then psramHeld s
      else if d = domHost then { s with boot := { s.boot with hostUp := false }, power := { s.power with hostDoze := false } }
      else if d = domIo then ioHeld s
      else s

/-- AON resets a domain (R505, R507, R519, R524). -/
def beginReset (s : State) (d : DomainId) : State := domainHeld (holdReset s d) d

/-- AON asks for a reset: the tag advances at the edge of the request, unless a finding has advanced it (R508). -/
def askReset (s : State) (d : DomainId) : State :=
  beginReset (if s.faults.resetDue.contains d then s else advanceTag s d) d

def allDomains : List DomainId := List.finRange 30

/-- SYS_RST_REQ (R506): AON only. -/
def sysRstReqEffect (m : Master) (bits : BitVec 30) (s : State) : State :=
  if m ≠ .aon then s.busErr
  else State.okBus ((allDomains.filter fun d => bits.toNat.testBit d.val).foldl askReset s)

def execSysRstReq (m : Master) (bits : BitVec 30) (s : State) : Out := .next (busStop m (sysRstReqEffect m bits) s)

/-- The reset that DOMAIN_RESET asks for (R506). -/
def domainResetApply (d : Nat) (s : State) : State := askReset s (Fin.ofNat 30 d)

/-! ## The fence and the end of a reset (R510, R511) -/

/-- FENCE_COMPLETE: the tiles that R30 and R31 dispatch again become ready. -/
def fenceCompleteEffect (d : DomainId) (s : State) : State :=
  if s.faults.fences.any fun x => x.1 == d then
    let tile := fun (t : Tile) => match t.status with
      | .fenced e => if engDomain e = d then { t with status := .ready } else t
      | _ => t
    { s with
      faults := { s.faults with fences := s.faults.fences.filter fun x => x.1 != d }
      tds := { s.tds with tiles := s.tds.tiles.map tile } }
  else s

def execFenceComplete (d : DomainId) (s : State) : Out := .next (fenceCompleteEffect d s)

/-- The HOST image is registered and VALID, so that the host cluster can boot it (R628). -/
def hostImageOk (s : State) : Bool := (goodImage s 4 s.boot.cfg.hostHandle).isSome

/-- The host cluster boots the customer kernel (R524, R628). -/
def hostBoot (s : State) : State := { s with boot := { s.boot with hostUp := hostImageOk s } }

/-- What a domain is when it leaves its reset: AON has set up again what the configuration record gives (log 58). `psramMiB` is what
the PSRAM devices answer. A faulty engine reads RESET until the step that gives it a role (R519). -/
def domainBack (psramMiB : List Nat) (s : State) (d : DomainId) : State :=
  match domEng d with
  | some n => s.modEng n fun e => if e.st = .off ∨ e.faulty then e else { e with st := .idle, idleFrom := s.now }
  | none => match domLink d with
    | some l => linkFromCfg s l
    | none =>
      if d = domHost then hostBoot s
      else if d = domPsram then psramInit psramMiB s
      else if d = domIo then ioFromCfg s
      else s

/-- A retired engine stays held in reset (R25). -/
def staysHeld (s : State) (d : DomainId) : Bool :=
  match domEng d with
  | some n => s.retired n
  | none => false

/-- DOMAIN_RESET_END. -/
def domainResetEndEffect (d : DomainId) (psramMiB : List Nat) (s : State) : State :=
  if !s.inReset d || staysHeld s d || (s.faults.fences.any fun x => x.1 == d) ||
      decide (s.now < s.faults.resetFrom[d] + resetTime d) then s
  else
    let m := BitVec.ofNat 30 (2 ^ d.val)
    domainBack psramMiB { s with faults := { s.faults with inReset := s.faults.inReset &&& ~~~m } } d

def execDomainResetEnd (e : ResetEnd) (s : State) : Out := .next (domainResetEndEffect e.domain e.psramMiB s)

/-! ## Hang detection (R512-R514) -/

/-- TILE_MAX_CTX in µs (R467, R504). -/
def tileMaxCtx (s : State) (c : CtxId) : Nat := ((s.ctx c).plan.map (·.tileMax)).getD 0

/-- The limit of an engine's watchdog in ACLK; none for tiles that it does not watch. -/
def tileLimit (s : State) (t : Tile) : Option Nat :=
  if t.station = stLoad then some 4000000
  else if t.ctx < 16 then some (us (2 * tileMaxCtx s (Fin.ofNat 16 t.ctx)))
  else none

/-- The last progress of the Fuse unit that the state shows: a publication, or a Frame Start. -/
def fuseProgress (s : State) : Nat :=
  s.fus.streams.toList.foldl (fun a x => max a ((x.img.map (·.stamp)).getD 0)) ((s.world.pubs.getLast?.map (·.at_)).getD 0)

/-- The condition that a domain's watchdog watches has lasted for its limit (R512). What the state does not hold, an access or a
transaction that does not complete, the progress of pixels and rays, the command dates: it has stood still since `since` (log 59). -/
def hangs (s : State) (d : DomainId) (since : Nat) : Bool :=
  match domLink d with
  | some l =>
    let p := s.link l
    (p.st == .training && decide (p.since + 400000 ≤ s.now)) ||
      (p.st != .failed && p.fullFrom.any fun t => decide (t + 40000 ≤ s.now))
  | none =>
    let still := fun (from_ limit : Nat) => decide (from_ + limit ≤ s.now)
    if d = domFuse then
      s.fus.run && (!s.world.inputs.isEmpty || s.fus.streams.toList.any fun x => x.img.isSome) &&
        still (max since (fuseProgress s)) 40000
    else if d = domVerifier then s.vfy.busy.isSome && still s.vfy.since 400000
    else if d = domStore then still since 800
    else if d = domPsram then still since 20000
    else if d = domHost then s.boot.hostUp && still since 40000
    else still since 400000

/-- The store controllers found faulty (R513, R524): they are reset at once, and the tiles of the engines that have an access in
flight are dispatched again. -/
def storeFaulty (fcode detail : Nat) (inFlight : List EngId) (s : State) : State :=
  let redo := s.tds.tiles.any fun t =>
    (inFlight.any fun n => t.status == .held n) && !(t.discard || t.station == stLoad || t.station == stGolden)
  fault (inFlight.foldl storeRedo (findFaulty s domStore fcode)) 0xFF 20 fcode 0x1F 0x1F
    ((if redo then actRedispatch else 0) + actReset + actDump) detail

/-- DOMAIN_WATCHDOG (R512, R514). -/
def domainWatchdogEffect (d : DomainId) (since : Nat) (inFlight : List EngId) (s : State) : State :=
  if s.boot.phase ≠ .on ∨ s.inReset d then s
  else match domEng d with
    | some n =>
      -- a finding at the edge of a rotation step is judged against the roles after it (R514)
      let s := stepFirst s
      match s.heldTile n with
      | some t => match tileLimit s t with
        | some k =>
          if t.since + k ≤ s.now then engineFault s n (heldCtx s n) 0x0102 t.seq else s
        | none => s
      | none => s
    | none =>
      if !hangs s d since then s
      else if d = domStore then storeFaulty 0x0401 0 inFlight s
      else fault (findFaulty s d 0x0401) 0xFF d.val 0x0401 0x1F 0x1F (actReset + actDump) 0

def execDomainWatchdog (h : Hang) (s : State) : Out := .next (domainWatchdogEffect h.domain h.since h.inFlight s)

/-- STORE_LOCKSTEP (R513): a controller and its shadow differ. -/
def storeLockstepEffect (ctrl : Fin 4) (inFlight : List EngId) (s : State) : State :=
  if s.boot.phase ≠ .on ∨ s.inReset domStore then s else storeFaulty 0x0206 ctrl.val inFlight s

def execStoreLockstep (m : StoreMismatch) (s : State) : Out := .next (storeLockstepEffect m.ctrl m.inFlight s)

/-! ## Crash dumps (R536-R541) -/

/-- SYS_ENG_ROLE (R38). -/
def engRole (s : State) : Nat :=
  let r := s.roles
  let num := fun (e : Option EngId) => match e with
    | some n => n.val
    | none => 0x1F
  num r.coppice + 2 ^ 8 * num r.reserve + 2 ^ 16 * s.service + 2 ^ 18 * (if r.suspended then 1 else 0) +
    2 ^ 24 * (r.steps % 256)

/-- SAF_PCAUSE (R497). -/
def pcause (s : State) : Nat := s.saf.causes.toNat + (if s.saf.causes &&& persistent != 0 then 2 ^ 31 else 0)

/-- A full dump may be asked for by DUMP_REQ (R537). -/
def dumpReqRefused (s : State) : Option Nat := if s.anyRuns then some 0x08000022 else none

def dumpReqApply (s : State) : State := queueDump s { domain := none, cause := .request }

/-- The dump goes to retention SRAM only (R540). With DUMP_SIZE = 0 there is no area in PSRAM (log 61). -/
def retained (s : State) (j : DumpJob) (psramFailed : Bool) : Bool :=
  j.domain == some domPsram || s.inReset domPsram || psramFailed || oNat s 0x2400 0x13 == 0

/-- The resets that waited for the dump begin, but for those that another dump keeps waiting (R519, R524). -/
def dueResets (s : State) : State :=
  (s.faults.resetDue.filter fun d => !(s.dump.queue.any fun j => j.domain == some d || j.domain == none)).foldl beginReset s

end Sys2Proof.Machine
end

