-- ==== Sys2Proof/Machine/WorldBytes.lean ====
section
/-! DEFINITION. The world as the stacked store holds it (R97): tree entries (R60), brick headers, the planes and masks of the
bricks (R63-R69), the dynamic grids (R90), the forecast slices (R93) and the Verifier's bitmaps (R282). Where each of them
lies in its region is open (log 20). -/

namespace Sys2Proof.Machine

/-- Byte `j` of a number, low byte first. -/
def numByte (v j : Nat) : Byte := BitVec.ofNat 8 (v / 256 ^ j)

/-- The byte whose bits 0 to 7 are items 8k to 8k + 7 of a plane. -/
def planeByte (p : Nat → Bool) (k : Nat) : Byte :=
  BitVec.ofNat 8 (((List.range 8).map fun i => if p (8 * k + i) then 2 ^ i else 0).sum)

/-! ## Tree entries (R60) -/

def uniWord (u : Uni) : Nat := code 8 u.value + u.exp % 16 * 2 ^ 8 + bit u.unknown * 2 ^ 12
/-- A BRICK entry names the slot, a REFINED entry the node, that the pools gave the place. -/
def brickWord (w : World) (p : Place) : Nat := 2 ^ 30 + amGetD w.pools.bricks p.num 0
def nodeWord (w : World) (p : Place) : Nat := 2 ^ 31 + amGetD w.pools.nodes p.num 0

def l0Word (w : World) (p : Place) : L0Entry → Nat
  | .uniform u => uniWord u
  | .brick _ => brickWord w p
def l1Word (w : World) (p : Place) : L1Entry → Nat
  | .uniform u => uniWord u
  | .brick _ => brickWord w p
  | .refined _ => nodeWord w p
/-- The entry of crown cell c; one past the last cell is OUTSIDE. -/
def crownWord (w : World) (c : Nat) : Nat :=
  let g := w.geom
  if g.nx * g.ny * g.nz ≤ c then 3 * 2 ^ 30
  else match g.entry w.crown c with
    | .uniform u => uniWord u
    | .brick _ => brickWord w ⟨2, c, 0, 0⟩
    | .refined _ => nodeWord w ⟨2, c, 0, 0⟩

/-- The 8 entries of a refinement node: of a crown cell its L1 children, of an L1 child its L0 children. -/
def nodeWords (w : World) (p : Place) : List Nat :=
  match w.geom.entry w.crown p.c with
  | .refined ch =>
    if p.lvl = 2 then ch.zipIdx.map fun (x, o1) => l1Word w ⟨1, p.c, o1, 0⟩ x
    else match ch[p.o1]? with
      | some (.refined ch0) => ch0.zipIdx.map fun (x, o0) => l0Word w ⟨0, p.c, p.o1, o0⟩ x
      | _ => []
  | _ => []

/-! ## Bricks -/

/-- The 16 bytes of a brick's header as a number. -/
def headerNat (g : Geom) (p : Place) (b : Brick) : Nat :=
  b.lastEpoch.toNat + p.lvl * 2 ^ 32 + b.exp % 16 * 2 ^ 36 + bit (b.stat.any id) * 2 ^ 40 + bit b.coarsened * 2 ^ 41 +
    bit b.external * 2 ^ 42 + (b.occ.filter g.occ).length * 2 ^ 48 + (b.occ.filter fun l => l == -128).length * 2 ^ 64 +
    p.c * 2 ^ 80 + p.o1 * 2 ^ 96 + p.o0 * 2 ^ 99

/-- The place that stands under a number of a pool. -/
def numbered (m : List (Nat × Nat)) (n : Nat) : Option Place :=
  (m.find? fun x => x.2 == n).map fun x => descPlace (x.1 * 512)

/-- The brick of the present world in a slot. -/
def brickIn (w : World) (slot : Nat) : Option (Place × Brick) :=
  (numbered w.pools.bricks slot).bind fun p => (bricksOf w.crown).find? fun x => x.1.num == p.num

/-! ## Areas -/

/-- A contiguous area of a region: its base from the region's start, its size, and its bytes; none is a byte that no rule
gives. -/
structure Area where
  base : Nat
  size : Nat
  at_ : Nat → Option Byte

/-- The areas that the Fuse unit keeps for CHECK (KIND 4): SDF plane, brick headers, crown pages and nodes. -/
def mirrorAreas (w : World) : List Area :=
  [ ⟨Config.areaBase 0 0, poolSlots * 512, fun i =>
      (brickIn w (i / 512)).bind fun x => x.2.sdf[i % 512]?.map fun v => numByte (code 8 v) 0⟩,
    ⟨Config.areaBase 1 0, poolSlots * 16, fun i => (brickIn w (i / 16)).map fun x => numByte (headerNat w.geom x.1 x.2) (i % 16)⟩,
    ⟨Config.areaBase 2 0, pageSlots * 1024, fun i =>
      (w.pools.pages.find? fun x => x.2 == i / 1024).map fun x => numByte (crownWord w (x.1 * 256 + i % 1024 / 4)) (i % 4)⟩,
    ⟨Config.areaBase 3 0, nodeSlots * 32, fun i =>
      (numbered w.pools.nodes (i / 32)).bind fun p => (nodeWords w p)[i % 32 / 4]?.map fun v => numByte v (i % 4)⟩ ]

/-- Cell `i` of a plane of 8 × 8 × 8 blocks, bx by by_ blocks in a layer (R282). -/
def blockCell (bx by_ i : Nat) : V3 :=
  let b := i / 512
  ((⟨b % bx, b / bx % by_, b / (bx * by_)⟩ : V3).scale 8).add (digits 8 (i % 512))

/-- The distance plane and the bit plane of slice k of a forecast (R93, R282). -/
def sliceAreas (g : Geom) (f : Forecast) (k : Nat) : List Area :=
  let cells := f.cells[k]?.getD []
  let n := g.dynN
  [ ⟨Config.areaBase (7 + k) f.base, g.dynCells, fun i =>
      some (numByte (code 8 (g.sliceCode (some cells) ((g.dynLoOf i).shift 80))) 0)⟩,
    ⟨Config.areaBase (11 + k) f.base, g.dynCells / 8, fun i =>
      some (planeByte (fun j =>
        match g.dynCell (g.dynLoP.add (((blockCell (n.x.toNat / 8) (n.y.toNat / 8) j).scale 160).shift 80)) with
        | some c => cells.contains c
        | none => false) i)⟩ ]

/-- The two sets of forecast slices (R97): the one in force, and the newest other one that a publication still reads (R88). -/
def forecastSets (w : World) : List Forecast :=
  (((w.fc :: (w.pubs.reverse.map (·.fc))).filterMap id).foldl (fun l f =>
    if l.any fun x => x.base == f.base then l else l ++ [f]) []).take 2

/-- The areas of KIND 5: occupancy plane, static masks, dynamic grids, forecast slices. -/
def plainAreas (w : World) : List Area :=
  [ ⟨Config.areaBase 4 0, poolSlots * 512, fun i =>
      (brickIn w (i / 512)).bind fun x => x.2.occ[i % 512]?.map fun v => numByte (code 8 v) 0⟩,
    ⟨Config.areaBase 5 0, poolSlots * 64, fun i =>
      (brickIn w (i / 64)).map fun x => planeByte (fun j => x.2.stat[j]?.getD false) (i % 64)⟩ ] ++
  (w.grids.map fun g => ⟨Config.areaBase 6 g.tick, w.geom.dynCells, fun i => some (numByte (amGetD g.cells i 0) 0)⟩) ++
  (forecastSets w).flatMap fun f => (List.range 4).flatMap (sliceAreas w.geom f)

/-- The bitmap of a publication (KIND 6; R123, R282): cells of the last blocks that lie beyond the box are stored as 1. -/
def bitmapArea (p : Pub) : Area :=
  let g := p.geom
  let bx := ceilDiv (4 * g.sizeX) 8
  let by_ := ceilDiv (4 * g.sizeY) 8
  ⟨Config.areaBase 15 p.tick, bx * by_ * ceilDiv (4 * g.sizeZ) 8 * 64, fun i => some (planeByte (fun j =>
    let k := blockCell bx by_ j
    !g.inside (g.lo.add (k.scale 80)) || g.bmp p.crown k) i)⟩

/-- The node states and the candidate records of a search region (KIND 7; R177): what a frame's node states look like, and what lies
past the records since the snapshot that rebuilt the region, no rule gives. -/
def searchByte (s : State) (r : Region) (off : Nat) : Option Byte :=
  let recs := if h : r.ctx < 16 then (s.ctx ⟨r.ctx, h⟩).searchRecs else 0
  if 2 ^ 20 ≤ off ∧ off < 2 ^ 20 + 32 * recs then some (memByte s.store (storeBase + r.offset + off)) else none

/-- The byte at an offset of a region; none where no rule gives it. -/
def regionByte (s : State) (r : Region) (off : Nat) : Option Byte :=
  let look := fun (l : List Area) => (l.find? fun a => decide (a.base ≤ off) && decide (off < a.base + a.size)).bind fun a =>
    a.at_ (off - a.base)
  match r.kind with
  | 4 => look (mirrorAreas s.world)
  | 5 => look (plainAreas s.world)
  | 6 => look (s.world.pubs.map bitmapArea)
  | 7 => searchByte s r off
  | _ => some (memByte s.store (storeBase + r.offset + off))

end Sys2Proof.Machine
end

