-- ==== Sys2Proof/Machine/Store.lean ====
section
/-! DEFINITION. The stacked store as its requesters meet it: region rights (R19-R21, R481, R482, R484), errors, scrubbing,
row sparing and mirror repair (R525-R530), and the wear record (R542-R545). -/

namespace Sys2Proof.Machine

/-! ## Rows and lines (R19, R525) -/

def dieBit : Nat := 2 ^ 28

def lineKey (die bank row line : Nat) : Nat := ((die * 16 + bank) * 2048 + row) * 128 + line
/-- The line of a store offset. -/
def lineAt (off : Nat) : Nat := lineKey (fld off 28 1) (fld off 6 4) (fld off 17 11) (fld off 10 7)
def rowOf (line : Nat) : Nat := line / 128
def bankOf (row : Nat) : Nat := row / 2048
def dieOf (row : Nat) : Nat := row / 2048 / 16
/-- The same line of the other die. -/
def twin (line : Nat) : Nat := let per := 16 * 2048 * 128; (line + per) % (2 * per)
/-- The store offset of a line. -/
def lineOff (line : Nat) : Nat :=
  let row := line / 128
  row / 2048 / 16 * dieBit + row / 2048 % 16 * 64 + row % 2048 * 2 ^ 17 + line % 128 * 2 ^ 10

/-- The region that holds all of a range of offsets, with its place in the table. -/
def regionAt (s : State) (off n : Nat) : Option (Nat × Region) :=
  s.boot.regions.zipIdx.findSome? fun (r, i) =>
    if r.offset ≤ off ∧ off + n ≤ r.offset + r.size then some (i, r) else none

/-- The line lies in a mirrored region or in its copy. -/
def mirrored (s : State) (line : Nat) : Bool :=
  match regionAt s (lineOff line % dieBit) 1 with
  | some (_, r) => r.mirror == 1
  | none => false

/-! ## Region rights (R482) -/

def readable (q : StoreReq) (r : Region) : Bool :=
  let k := r.kind
  let n := q.req.val
  if q.io then k == 10
  else if n < 18 then [1, 2, 4, 5, 7, 8, 9].contains k
  else match n with
    | 18 => k == 4 || k == 5
    | 19 => [1, 2, 5, 6, 7, 9].contains k
    | 20 => [1, 2, 3].contains k
    | 22 => [7, 8, 9, 10, 11].contains k
    | 23 => true
    | 30 => true
    | _ => false

def writable (q : StoreReq) (r : Region) : Bool :=
  let k := r.kind
  let n := q.req.val
  if q.io then false
  else if n < 18 then
    (k == 5 && q.station == 1) || ([7, 8, 9].contains k && (q.ctx.map (·.val)) == some r.ctx)
  else match n with
    | 18 => [4, 5, 6].contains k
    | 19 => k == 6
    | 20 => [1, 2, 3].contains k
    | 22 => k == 11
    | 23 => k == 6
    | 30 => true
    | 31 => k == 10
    | _ => false

/-- The domain of a request's requester (R398, R505). -/
def reqDomain (q : StoreReq) : Nat := if q.io then 29 else domainOf q.req

/-! ## Sparing (R527-R529) -/

/-- DETAIL of a row: die, bank, row. -/
def rowDetail (row : Nat) : Nat := dieOf row * 2 ^ 31 + bankOf row % 16 * 2 ^ 24 + row % 2048

/-- The spare rows of a bank that are in use. -/
def sparesUsed (s : State) (row : Nat) : Nat := amGetD s.wear.rowsUsed (bankOf row) 0

/-- The next row that waits is copied, when none is. -/
def startCopy (s : State) : State :=
  let c := s.scrub
  match c.copying, c.dueRows with
  | none, r :: rest => { s with scrub := { c with copying := some r, dueRows := rest } }
  | _, _ => s

/-- A row has lines in a mirrored region: its lines 0 to 63 and 64 to 127 lie in two blocks of 64 KiB, by which regions go. -/
def rowMirrored (s : State) (row : Nat) : Bool := mirrored s (row * 128) || mirrored s (row * 128 + 64)

/-- The line is lost on its die: a mirrored line of a row that is marked lost (R529). -/
def lostLine (s : State) (line : Nat) : Bool := s.scrub.lost.contains (rowOf line) && mirrored s line

/-- A row needs sparing. Without a free spare, a row with mirrored lines is marked lost on its die, and unmirrored lines keep their
errors. -/
def needSpare (s : State) (row : Nat) : State :=
  let c := s.scrub
  if c.copying = some row ∨ c.dueRows.contains row ∨ c.lost.contains row then s
  else
    let waiting := ((c.copying.toList ++ c.dueRows).filter fun r => bankOf r == bankOf row).length
    if sparesUsed s row + waiting < 41 then startCopy { s with scrub := { c with dueRows := c.dueRows ++ [row] } }
    else if rowMirrored s row then
      let w := s.wear
      fault { s with
        scrub := { c with lost := c.lost ++ [row] }
        wear := { w with rowsLost := amPut w.rowsLost (bankOf row) (amGetD w.rowsLost (bankOf row) 0 + 1) } }
        0xFF 20 0x0208 0x1F 0x1F 0 (rowDetail row)
    else s

/-- A line read with a corrected error: 16 between two visits spare its row. -/
def noteCorrected (s : State) (line : Nat) : State :=
  let row := rowOf line
  let n := amGetD s.scrub.ceRows row 0 + 1
  let w := s.wear
  let s := { s with
    scrub := { s.scrub with ceRows := amPut s.scrub.ceRows row n }
    wear := { w with
      corrected := amPut w.corrected (bankOf row) (satAdd (2 ^ 32 - 1) (amGetD w.corrected (bankOf row) 0) 1) } }
  if n = 16 then needSpare s row else s

/-- A line read with an uncorrectable error. In a mirrored region it is rewritten from the other copy, and spares its row
where it fails again; elsewhere it spares its row. -/
def noteBad (s : State) (line : Nat) : State :=
  let c := s.scrub
  if c.poisoned.contains line then s
  else
    let again := c.badLines.contains line
    let s' := { s with scrub := { c with badLines := setIns c.badLines line } }
    if mirrored s line && !again then s' else needSpare s' (rowOf line)

def noteLine (s : State) (line : Nat) : LineState → State
  | .clean => s
  | .corrected => noteCorrected s line
  | .bad => noteBad s line

/-- What a read meets in one copy: a lost or a poisoned line is uncorrectable whatever the array gives. -/
def effective (s : State) (line : Nat) (st : LineState) : LineState :=
  if lostLine s line || s.scrub.poisoned.contains line then .bad else st

/-! ## STORE_ACCESS (R20, R21, R482, R484, R507, R528) -/

/-- Bytes of a region from an offset on; those that no rule gives are free (log 20). -/
def regionBytes (s : State) (r : Region) : Nat → Nat → State → Bytes × State
  | _, 0, t => ([], t)
  | off, n + 1, t =>
    let (b, t) := match regionByte s r off with
      | some b => (b, t)
      | none => t.free 8
    let (bs, t) := regionBytes s r (off + 1) n t
    (b :: bs, t)

/-- An access that no region grants (R484). Which region it names where it lies in none is not stated (log 5). -/
def regionFault (s : State) (q : StoreReq) (idx : Option Nat) : State :=
  let (x, s) := s.free 6
  let i := match idx with
    | some i => i
    | none => x.toNat
  State.busErr (fault s (match q.ctx with
    | some c => c.val
    | none => 0xFF) (reqDomain q) 0x0209 0x1F 0x1F 0 (q.req.val * 2 ^ 24 + i))

/-- A granted read: an error that one copy corrects or that the other copy serves is not seen. -/
def storeRead (s : State) (r : Region) (off n : Nat) (d0 d1 : LineState) : State :=
  let line := lineAt off
  let both := r.mirror = 1
  let e0 := effective s line (if both then d0 else if off / dieBit = 0 then d0 else d1)
  let e1 := if both then effective s (twin line) d1 else .bad
  let s := noteLine s line (if lostLine s line then .clean else e0)
  let s := if both then noteLine s (twin line) (if lostLine s (twin line) then .clean else e1) else s
  if e0 = .bad ∧ e1 = .bad then s.busErr
  else
    let (bs, t) := regionBytes s r (off - r.offset) n s
    t.reply (.bytes bs)

/-- A line that an engine reads of the world's tree or bricks goes into its SQU's cache of 4,096 lines of 64 B (R337). -/
def squFetch (s : State) (q : StoreReq) (r : Region) (line : Nat) : State :=
  if h : q.req.val < 18 ∧ q.io = false ∧ (r.kind = 4 ∨ r.kind = 5) then
    let n : EngId := ⟨q.req.val, h.1⟩
    s.modEng n fun e =>
      let l := e.core.lines
      let kept := if l.length < 4096 then l else l.eraseIdx (Config.lineVictim n.val line % 4096)
      { e with core := { e.core with lines := if l.contains line then l else kept ++ [line] } }
  else s

/-- STORE_ACCESS. A request of an old generation that no target has accepted is discarded and counted (R508, R509). -/
def storeAccessEffect (q : StoreReq) (s : State) : State :=
  let n := match q.write with
    | some bs => bs.length
    | none => q.len
  if q.gen ≠ domTag s (reqDomain q) then noteStale s (reqDomain q)
  else if q.addr < storeBase ∨ storeBase + 2 ^ 29 < q.addr + n then s.busErr
  else if s.inReset domStore then s.busErr
  else
    let off := q.addr - storeBase
    match regionAt s off n with
    | none => regionFault s q none
    | some (i, r) =>
      match q.write with
      | some bs =>
        if writable q r then State.okBus { s with store := memWrite s.store q.addr bs } else regionFault s q (some i)
      | none => if readable q r then squFetch (storeRead s r off n q.die0 q.die1) q r (lineAt off) else regionFault s q (some i)

/-- The master behind a store request, where it is an engine. -/
def storeMaster (q : StoreReq) : Master :=
  if h : q.req.val < 18 then (if q.io then .maintenance else .engine ⟨q.req.val, h⟩) else .maintenance

def execStoreAccess (q : StoreReq) (s : State) : Out := .next (busStop (storeMaster q) (storeAccessEffect q) s)

/-! ## SCRUB_READ and the row copy (R526, R527) -/

/-- SCRUB_READ: every 65,536 SCLK one line of every bank, rows and lines in rising order (log 62). `hits` lists the errors
that the lines of this visit show. -/
def scrubReadEffect (hits : List ScrubHit) (s : State) : State :=
  if s.boot.phase ≠ .on ∨ s.now % 32768 ≠ 0 ∨ s.inReset domStore then s
  else
    let row := s.scrub.next / 128
    let line := s.scrub.next % 128
    let here := hits.filter fun h => h.row == row && h.line == line && decide (h.die < 2) && decide (h.bank < 16)
    let s := here.foldl (fun s h => noteLine s (lineKey h.die h.bank row line) h.state) s
    let c := s.scrub
    { s with scrub := { c with
        next := (c.next + 1) % 262144
        ceRows := if line = 127 then c.ceRows.filter fun e => e.1 % 2048 != row else c.ceRows } }

def execScrubRead (hits : List ScrubHit) (s : State) : Out := .next (scrubReadEffect hits s)

/-- ROW_SPARE_COPY_COMPLETE: the map switches; uncorrectable lines outside mirrored regions are copied poisoned; the wear record is written. -/
def rowCopyEffect (s : State) : State :=
  let c := s.scrub
  match c.copying with
  | none => s
  | some row =>
    let mine := c.badLines.filter fun l => rowOf l == row
    let w := s.wear
    let k := sparesUsed s row
    let s := { s with
      scrub := { c with
        copying := none, badLines := c.badLines.filter fun l => rowOf l != row
        poisoned := c.poisoned ++ mine.filter fun l => !mirrored s l
        ceRows := amDel c.ceRows row }
      wear := { w with rowsUsed := amPut w.rowsUsed (bankOf row) (k + 1), spareMap := amPut w.spareMap row k } }
    startCopy (writeWear (fault s 0xFF 20 0x0207 0x1F 0x1F actRowSpared (rowDetail row)))

def execRowSpareCopyComplete (s : State) : Out := .next (rowCopyEffect s)

/-! ## The wear record (R542-R545) -/

/-- An hour of ACLK. -/
def hour : Nat := 3600 * 400000000

/-- The hours of power-on time that have passed since the last ones that entered the wear record: four at most, as the command has
the largest Tj of so many (log 126). -/
def hoursDue (s : State) : Nat := min 4 (s.now / hour - s.clk.hours)

/-- WEAR_RECORD_WRITE: at the end of an hour of power-on time, with the largest Tj of each hour that has passed, the last one last;
every 4 hours the record is written. -/
def wearWriteEffect (t0 t1 t2 t3 : Int) (s : State) : State :=
  if s.boot.phase ≠ .on ∨ s.now % hour ≠ 0 ∨ hoursDue s = 0 then s
  else
    let w := s.wear
    let s := { s with
      clk := { s.clk with hours := s.now / hour }
      wear := { w with
        powerHours := w.powerHours + hoursDue s
        lifeUsed := w.lifeUsed + (([t0, t1, t2, t3].drop (4 - hoursDue s)).map lifeUnits).sum } }
    if s.now % (4 * hour) = 0 then writeWear s else s

def execWearRecordWrite (t0 t1 t2 t3 : Int) (s : State) : Out := .next (wearWriteEffect t0 t1 t2 t3 s)

/-- LIFE_PCT (R544). -/
def lifePct (s : State) : Nat := min 255 (s.wear.lifeUsed * 100 / 1024 / 131400)

end Sys2Proof.Machine
end

