-- ==== Sys2Proof/Machine/Contexts.lean ====
section
/-! DEFINITION. Starting and stopping contexts (R50, R293, R298, R351, R352, R379, R456, R479, R483, R532-R535, R563, R564,
R566, R609, R636, R711). -/

namespace Sys2Proof.Machine

/-! ## The start (R564) -/

/-- A sum of loads, each a planned frame time over a period, as a fraction. -/
def loadSum (l : List (Nat × Nat)) : Nat × Nat :=
  l.foldl (fun (n, d) (a, b) => (n * b + a * d, d * b)) (0, 1)

/-- The chips that are IN, this one included (R622). -/
def chipsIn (s : State) : Nat := 1 + (s.hedge.members.filter fun m => m.st == 3).length

/-- The planned frame time of an image: on a top root that of its hedge table for the largest chip count that is no greater than the
number of IN chips (R617). -/
def plannedUs (s : State) (plan : PlanImage) : Nat :=
  if hedgeRole s ≠ 3 then plan.plannedUs
  else
    let rows := plan.hedgeTable.filter fun r => decide (r.1 ≤ chipsIn s)
    (rows.foldl (fun (best : Nat × Nat) r => if best.1 ≤ r.1 then r else best) (0, plan.plannedUs)).2

/-- The contexts whose loads count when c starts: those started, and c. -/
def loadsWith (s : State) (c : CtxId) (plan : PlanImage) (p : CtxId → Bool) : List (Nat × Nat) :=
  (plannedUs s plan, cNat s c 0x04) :: ((allCtx.filter fun x => x != c && s.started x && p x).map fun x =>
    (((s.ctx x).plan.map (plannedUs s)).getD 0, cNat s x 0x04))

/-- The sum of loads stays within 0.65 (R50). -/
def loadFits (s : State) (c : CtxId) (plan : PlanImage) : Bool :=
  let (n, d) := loadSum (loadsWith s c plan fun _ => true)
  decide (20 * n ≤ 13 * d)

/-- The sum of loads of the partition stays within 0.65 × SHARE / 256 (R379). -/
def shareFits (s : State) (c : CtxId) (plan : PlanImage) : Bool :=
  let p := partOf s c
  let (n, d) := loadSum (loadsWith s c plan fun x => partOf s x == p)
  decide (20 * 256 * n ≤ 13 * s.tds.parts[p].share * d)

/-- Code and resident data of all contexts that run fit (R352). -/
def memoryFits (s : State) (c : CtxId) (plan : PlanImage) : Bool :=
  let others := (allCtx.filter fun x => x != c && (s.ctx x).active).filterMap fun x => (s.ctx x).plan
  decide (((plan :: others).map (·.codeBytes)).sum ≤ 240 * 1024) &&
    decide (((plan :: others).map (·.residentBytes)).sum ≤ 2 ^ 20)

/-- The per-context regions exist and are large enough (R177, R222, R261, R309, R483). -/
def regionsFit (s : State) (c : CtxId) (plan : PlanImage) : Bool :=
  let has := fun (kind need : Nat) => match s.region kind c.val with
    | some r => decide (need ≤ r.size)
    | none => false
  has 7 (2 ^ 20 + 32 * plan.candMax) && has 8 (4 * plan.candMax + 16384) && has 9 32768 && has 10 (4096 * cNat s c 0x8A)

/-- DEADLINE leaves room for the planned frame and two retries, and lies in its range (R298, R711). -/
def deadlineFits (s : State) (c : CtxId) (plan : PlanImage) : Bool :=
  let d := deadlineUs s c
  decide (plan.plannedUs + plan.retryTime ≤ d) && decide (50 ≤ d) && decide (d + 20 ≤ cNat s c 0x04)

/-- No context of the other role runs in the partition (R479). -/
def rolesFit (s : State) (c : CtxId) : Bool :=
  allCtx.all fun x => x == c || !s.started x || partOf s x != partOf s c || safNat s x 0x01 == safNat s c 0x01

/-- A safety context may start here: in PRODUCTION, and on a part that leads no other chip (R609, R636). -/
def safetyAllowed (s : State) (c : CtxId) : Bool :=
  safNat s c 0x01 == 0 ||
    (s.boot.lifecycle == 3 && !(hedgeRole s == 3 && s.hedge.members.any fun m => m.st == 2 || m.st == 3))

/-- The abort code of a start that is refused, in the order of R562. -/
def ctxStartRefused (s : State) (c : CtxId) : Option Nat :=
  let x := s.ctx c
  if x.st = .draining then some 0x08000022
  else if x.st ≠ .idle ∨ s.service = 3 ∨ s.saf.startFail ≠ 0 then some 0x08000020
  else match planOf s (cNat s c 0x03) with
    | none => some 0x08000020
    | some plan =>
      if loadFits s c plan && shareFits s c plan && memoryFits s c plan && regionsFit s c plan && deadlineFits s c plan &&
          rolesFit s c && safetyAllowed s c then none
      else some 0x08000020

/-- The roadmap of a context at its start. The start itself selects no image (R152); selection is due where a stop discarded
the load of the selected image (R166, discardLoads), where the planning image differs from that of the start before, so that an image need
not qualify as it did (R151), or where the context no longer has a tool slot. With a tool slot the state is TOOL_UNKNOWN
until its first Tag record is in force (R153; log 102). -/
def roadmapAtStart (s : State) (c : CtxId) (digest : Bytes) : Roadmap :=
  let x := s.ctx c
  let slot := (s.toolSlot c).isSome
  let again := x.rm.reselect || (x.plan.isSome && x.planDigest != digest) ||
    (!slot && (x.tool.isSome || x.rm.rmState == 3))
  { x.rm with reselect := again, rmState := if slot then 3 else x.rm.rmState }

/-- A start accepted: STARTING, the loads begin, SSTATE is ARMING, or SAFE in the part safe state (R351, R452, R456). The
solver's cache stays as it is (R259-R261); REFACT_ROWS counts from here on (log 106). -/
def ctxStartApply (c : CtxId) (s : State) : State :=
  let handle := cNat s c 0x03
  let plan := planOf s handle
  let digest := imageDigest s handle
  let engines := loadEngines s
  let rm := roadmapAtStart s c digest
  let s := s.modCtx c fun x =>
    { x with
      st := .starting, plan := plan, planDigest := digest, loading := engines, run := none, firstF := none, lastF := none
      lastEdge := none, edgeCount := 0, fDue := false, warm := [], freshImage := false, stop := none
      block := none, sstate := .arming, cause := 0, clearPend := false, tool := none, rm := rm }
  -- from now on every bank of a serving engine is ENGINE's (R342; log 114)
  let s := drivePins (giveBanks s)
  if s.saf.causes ≠ 0 then demand s c causePart else s

/-! ## The stop (R532, R533, R566) -/

/-- The tiles of a context that is stopped: those that run continue to their commit, their results discarded. -/
def stopTiles (c : CtxId) (l : List Tile) : List Tile :=
  l.filterMap fun t =>
    if t.ctx ≠ c.val then some t
    else match t.status with
      | .held _ => some { t with discard := true }
      | .dealt _ _ => some { t with discard := true }
      | _ => none

/-- A stop accepted. The Verifier abandons its attempt at once (log 63). -/
def ctxStopApply (c : CtxId) (s : State) : State :=
  if !s.started c then s
  else
    let s := discardLoads s c
    let s := { s with
      tds := { s.tds with tiles := stopTiles c s.tds.tiles }
      vfy := if s.vfy.busy = some c then { s.vfy with busy := none } else s.vfy }
    drivePins (s.modCtx c fun x =>
      { x with
        st := .draining, drainFrom := s.now, run := none, loading := [], warm := [], freshImage := false, fDue := false
        sstate := .stopped, cause := 0, clearPend := false })

/-! ## The drain (R534, R535) -/

/-- A tile of the context is held by this engine. -/
def holdsOf (s : State) (c : CtxId) (n : EngId) : Bool :=
  s.tds.tiles.any fun t => t.ctx == c.val && t.status == .held n

/-- The drain fence is complete. -/
def drained (s : State) (c : CtxId) : Bool := s.vfy.busy != some c && s.tds.tiles.all fun t => t.ctx != c.val

/-- DRAIN_COMPLETE: the context is IDLE, and its code and resident data are freed (R352). -/
def drainCompleteEffect (c : CtxId) (s : State) : State :=
  if (s.ctx c).st = .draining ∧ drained s c then
    allEng.foldl (fun s n => setLoaded s n c false) (s.modCtx c fun x => { x with st := .idle })
  else s

def execDrainComplete (c : CtxId) (s : State) : Out := .next (drainCompleteEffect c s)

/-- TEARDOWN: the drain has not completed in 2 × TILE_MAX_CTX + 100 µs. -/
def teardownEffect (c : CtxId) (s : State) : State :=
  let x := s.ctx c
  if x.st = .draining ∧ x.drainFrom + us (2 * tileMaxCtx s c + 100) ≤ s.now then
    let s := stepFirst s
    (allEng.filter (holdsOf s c)).foldl (fun s n => engineFault s n c.val 0x0402 c.val) s
  else s

def execTeardown (c : CtxId) (s : State) : Out := .next (teardownEffect c s)

end Sys2Proof.Machine
end

