-- ==== Sys2Proof/Machine/Images.lean ====
section
/-! DEFINITION. The image table: registering, checking and unregistering (R640-R643, R653, R663). -/

namespace Sys2Proof.Machine

/-- A handle is registered: VERIFYING or VALID. -/
def registered (s : State) (handle : Nat) : Bool :=
  s.images.toList.any fun e => (e.st == 1 || e.st == 2) && e.handle == handle

/-- The entry that a new registration takes: the first free one, else the first REFUSED one (log 64). -/
def freeEntry (s : State) : Option (Fin 64) :=
  match (List.finRange 64).find? fun i => (s.images[i]).st == 0 with
  | some i => some i
  | none => (List.finRange 64).find? fun i => (s.images[i]).st == 3

/-- A registration accepted: its entry reads VERIFYING. Whether the handle stands already is judged at once; with 64 images
registered there is no entry to show TOO_MANY (log 64). -/
def registerImage (s : State) (handle kind off len : Nat) : State :=
  let dup := handle = 0 ∨ registered s handle
  match freeEntry s with
  | none => s
  | some i =>
    { s with images := vupd s.images i fun _ =>
        { handle := handle, kind := kind, st := 1, reason := if dup then 4 else 0, offset := off, length := len, digest := [] } }

/-- IMG_REGISTER (R641): HANDLE, KIND, offset and LENGTH. -/
def imgRegisterApply (data : Bytes) (s : State) : State :=
  registerImage s (u data 0 4) (u data 4 1) (u data 8 4) (u data 12 4)

/-- The header of an image's kind is well formed. -/
def imageFormOk (kind : Nat) (bs : Bytes) : Bool :=
  if kind = 2 then headerFine bs
  else if kind = 1 then Config.headerOk kind bs && (Config.planImage bs).isSome
  else if kind = 3 ∨ kind = 4 then Config.headerOk kind bs
  else false

/-- The first reason of R641 that applies to an entry; 0 for none. -/
def imageVerdict (s : State) (e : ImgEntry) : Nat :=
  let bs := psramRead s e.offset e.length
  let c := s.boot.cfg
  if !signedBy s.boot.ownerKey bs then 1
  else if !imageFormOk e.kind bs then 2
  else if e.offset < c.imageBase ∨ c.imageBase + c.imageSize < e.offset + e.length ∨ !psramOk s e.offset e.length then 3
  else e.reason

/-- IMAGE_CHECK_COMPLETE: the entry becomes VALID or REFUSED, and the digest is taken (R641, R663). -/
def imageCheckEffect (i : Fin 64) (s : State) : State :=
  let e := s.images[i]
  if e.st ≠ 1 then s
  else
    let why := imageVerdict s e
    let digest := sha512 (psramRead s e.offset e.length)
    { s with images := vupd s.images i fun e =>
        { e with st := if why = 0 then 2 else 3, reason := why, digest := if why = 0 then digest else [] } }

def execImageCheckComplete (i : Fin 64) (s : State) : Out := .next (imageCheckEffect i s)

/-- A handle that something still uses (R643). -/
def imageBusy (s : State) (handle : Nat) : Bool :=
  handle != 0 &&
    ((allCtx.any fun c => ((s.ctx c).active && cNat s c 0x03 == handle) ||
        (s.ctx c).rm.parts.toList.any fun p => p.st != 0 && p.handle == handle) ||
      s.world.fcImage == handle ||
      s.loader.any fun j => match j.op with
        | .load _ _ h _ => h == handle
        | _ => false)

/-- The abort code of an IMG_UNREGISTER that is refused. -/
def imgUnregisterRefused (s : State) (handle : Nat) : Option Nat :=
  if imageBusy s handle then some 0x08000022
  else if handle = 0 ∨ !(s.images.toList.any fun e => e.st != 0 && e.handle == handle) then some 0x06090030
  else none

/-- The handle and its range become free; of several entries the VALID one (log 64). -/
def imgUnregisterApply (handle : Nat) (s : State) : State :=
  let find := fun (p : Nat → Bool) => (List.finRange 64).find? fun i => p (s.images[i]).st && (s.images[i]).handle == handle
  match (match find (· == 2) with
    | some i => some i
    | none => find (· != 0)) with
  | some i => { s with images := vupd s.images i fun _ => default }
  | none => s

/-- IMG_TABLE (R653). -/
def imgTableBytes (s : State) : Bytes :=
  s.images.toList.flatMap fun e =>
    leBytes 4 e.handle ++ leBytes 1 e.kind ++ leBytes 1 e.st ++ leBytes 1 (if e.st = 3 then e.reason else 0) ++ [0] ++
      leBytes 4 e.offset ++ leBytes 4 e.length

end Sys2Proof.Machine
end

