-- ==== Sys2Proof/Machine/Modules.lean ====
section
/-! DEFINITION. Attached modules: slots, polls, reads and verification (R644-R653). -/

namespace Sys2Proof.Machine

def State.slot (s : State) (k : Fin 32) : Slot := s.modules.slots[k]
def State.modSlot (s : State) (k : Fin 32) (f : Slot → Slot) : State :=
  { s with modules := { s.modules with slots := vupd s.modules.slots k f } }

/-- A slot changed, what it held before the changes of this edge kept (R650). -/
def changeSlot (s : State) (k : Fin 32) (f : Slot → Slot) : State :=
  s.modSlot k fun x =>
    let y := f x
    { y with
      before := if x.changedAt = some s.now then x.before else if x.st = 2 then x.rec_ else none
      changedAt := some s.now }

/-- A fixed slot of the MODULES section. -/
def fixedSlot (s : State) (k : Fin 32) : Option FixedSlot := if k.val < 16 then s.boot.cfg.fixedSlots[k.val]? else none

/-- Bus, address and context of a slot: the fixed slot's, else those of the module found there. -/
def slotPlace (s : State) (k : Fin 32) : Option (Nat × Nat) :=
  if k.val < 16 then (fixedSlot s k).map fun x => (x.bus, x.addr)
  else if (s.slot k).st = 0 then none else some ((s.slot k).bus, (s.slot k).addr)

/-- The slot of a bus and address, if it has one. -/
def slotOf (s : State) (bus addr : Nat) : Option (Fin 32) := (List.finRange 32).find? fun k => slotPlace s k == some (bus, addr)

/-- An address of a scan window. -/
def inWindow (s : State) (bus addr : Nat) : Bool :=
  s.boot.cfg.scanWindows.any fun w => w.1 == bus && decide (w.2.1 ≤ addr) && decide (addr ≤ w.2.2)

/-- The module is removed: the slot is EMPTY, and a dynamic one is free (R647, R648). -/
def removeModule (s : State) (k : Fin 32) : State :=
  changeSlot s k fun x => { x with st := 0, rec_ := none, raw := [], nacks := 0 }

/-- The read of a record begins (R647, R648). -/
def beginRead (s : State) (k : Fin 32) (bus addr : Nat) : State :=
  let ctx := match fixedSlot s k with
    | some x => x.ctx
    | none => 255
  s.modSlot k fun x => { x with st := 1, bus := bus, addr := addr, ctx := ctx, raw := [], nacks := 0 }

/-- A module found at an address: its slot, or the lowest free dynamic slot for one in a scan window (R646). -/
def foundAt (s : State) (bus addr : Nat) : State :=
  match slotOf s bus addr with
  | some k => if (s.slot k).st = 0 then beginRead s k bus addr else s
  | none =>
    if !inWindow s bus addr then s
    else match (List.finRange 32).find? fun k => decide (16 ≤ k.val) && (s.slot k).st == 0 with
      | some k => beginRead s k bus addr
      | none => s

/-- Bytes 8-23 and the last 16 B of a record. -/
def identOf (raw : Bytes) : Bytes := slice raw 8 16 ++ raw.drop (raw.length - 16)

/-- A poll's outcome for a slot that holds a record. -/
def pollSlot (s : State) (answers : List PollAnswer) (k : Fin 32) : State :=
  match slotPlace s k with
  | none => s
  | some (bus, addr) =>
    let x := s.slot k
    if 2 ≤ bus ∨ (x.st ≠ 2 ∧ x.st ≠ 3) then s
    else match answers.find? fun a => a.bus == bus && a.addr == addr && a.ack with
      | some a =>
        if a.ident = identOf x.raw then s.modSlot k fun x => { x with nacks := 0 } else removeModule s k
      | none => if 1 ≤ x.nacks then removeModule s k else s.modSlot k fun x => { x with nacks := x.nacks + 1 }

/-- Module discovery runs: the part is READY and no member (R628, R651). -/
def polls (s : State) : Bool := s.serves && !isMember s && !s.inReset domIo

/-- TAG_POLL: every slot and address is polled; `answers` lists those that acknowledge. A module removed at this poll is read
anew at the next one. -/
def tagPollEffect (answers : List PollAnswer) (s : State) : State :=
  let n := s.boot.cfg.tagPollMs
  if !polls s ∨ n = 0 ∨ s.now % (n * 400000) ≠ 0 then s
  else
    let s' := (List.finRange 32).foldl (fun t k => pollSlot t answers k) s
    let fresh := answers.filter fun a => a.ack && decide (a.bus < 2) && match slotOf s a.bus a.addr with
      | some k => (s.slot k).st == 0
      | none => true
    fresh.foldl (fun t a => foundAt t a.bus a.addr) s'

def execTagPoll (answers : List PollAnswer) (s : State) : Out := .next (tagPollEffect answers s)

/-- TAG_READ_COMPLETE: the record is read whole, or the read has failed (R649). -/
def tagReadEffect (k : Fin 32) (ok : Bool) (record : Bytes) (s : State) : State :=
  let x := s.slot k
  if x.st ≠ 1 ∨ !x.raw.isEmpty then s
  else if ok then s.modSlot k fun x => { x with raw := record }
  else
    let s := s.modSlot k fun x => { x with st := 0 }
    { s with modules := { s.modules with readFail := wrapInc 32 s.modules.readFail } }

def execTagReadComplete (k : Fin 32) (ok : Bool) (record : Bytes) (s : State) : Out := .next (tagReadEffect k ok record s)

/-- TAG_VERIFIED: the slot is PRESENT or INVALID. A CAN module's vendor and serial number are those of its node (R645). -/
def tagVerifiedEffect (k : Fin 32) (vendor serial : Nat) (s : State) : State :=
  let x := s.slot k
  if x.st ≠ 1 ∨ x.raw.isEmpty then s
  else
    let t := parseTag x.raw
    let ok := tagOk s.boot.cfg.moduleKeys x.raw &&
      (decide (x.bus < 2) || (t.vendor == vendor && t.serial == serial))
    if ok then changeSlot s k fun x => { x with st := 2, rec_ := some t }
    else
      let s := changeSlot s k fun x => { x with st := 3, rec_ := none }
      { s with modules := { s.modules with tagInvalid := wrapInc 32 s.modules.tagInvalid } }

def execTagVerified (k : Fin 32) (vendor serial : Nat) (s : State) : Out := .next (tagVerifiedEffect k vendor serial s)

/-- SLOT_TABLE (R653). A free slot reads all 0. -/
def slotTableBytes (s : State) : Bytes :=
  (List.finRange 32).flatMap fun k =>
    let x := s.slot k
    let (cls, serial) := match x.st, x.rec_ with
      | 2, some t => (t.cls, t.serial)
      | _, _ => (0, 0)
    match slotPlace s k with
    | some (bus, addr) =>
      let ctx := match fixedSlot s k with
        | some f => f.ctx
        | none => 255
      leBytes 1 x.st ++ leBytes 1 bus ++ leBytes 1 addr ++ leBytes 1 ctx ++ leBytes 4 cls ++ leBytes 4 serial ++
        leBytes 4 x.lastFrame
    | none => leBytes 4 0 ++ leBytes 4 0 ++ leBytes 4 0 ++ leBytes 4 x.lastFrame

/-- The record of a slot, or empty. -/
def slotRecordBytes (s : State) (k : Fin 32) : Bytes := if (s.slot k).st = 2 then (s.slot k).raw else []

end Sys2Proof.Machine
end

