-- ==== Sys2Proof/Machine/Boot.lean ====
section
/-! DEFINITION. Power-on, boot and recovery (R25, R36, R448, R475, R476, R545, R625-R639, R653, R659, R691-R696). -/

namespace Sys2Proof.Machine

/-! ## Whole-part resets -/

/-- Whether the real-time counter and the memories outside the part live on, and what the outside has queued. -/
def carry (old new : State) : State :=
  { new with
    pending := old.pending, freeCount := old.freeCount, psram := old.psram, store := old.store, flash := old.flash
    flashWear := old.flashWear }

/-- A power-on reset: every output takes its reset state, time starts again; the real-time counter runs on (R657, R691, R694).
What PSRAM and the store then hold is not stated: it is left (log 65). -/
def powerOn (s : State) : State :=
  let c := s.clk
  carry s { State.reset with clk := { (default : Clk) with rtc := c.rtc, rtcPhase := c.rtcPhase, rtcOk := c.rtcOk } }

/-- POWER_ON_RESET (R694, R696). -/
def execPowerOnReset (s : State) : Out := .next (powerOn s)

/-- The core loses its state, AON does not: part OFF and RESTART (R448, R517, R632, R672, R673). -/
def coreReset (s : State) : State :=
  let f := s.faults
  let t := carry s State.reset
  { t with
    clk := { s.clk with apllLock := false, spllLock := false, hpllLock := false, lpllLock := false }
    faults := { f with inReset := 0, fences := [], resetDue := [] }
    dump := { s.dump with st := if s.dump.st = 1 then 0 else s.dump.st, cur := none, queue := [], timeouts := 0 }
    saf := { s.saf with outEn := false, driveA := false, driveB := false, stDone := false, chkRunning := false }
    power := { t.power with pmbusFail := s.power.pmbusFail }
    wear := s.wear
    shadow := match amGet s.shadow (objKey 0x2600 0x0E) with
      | some v => [(objKey 0x2600 0x0E, v)]
      | none => [] }

/-! ## The configuration record (R634-R636) -/

def rootSigned (obj : Bytes) : Bool := signedBy (Config.rootKey 0) obj || signedBy (Config.rootKey 1) obj

/-- The owner certificate is one of Torvend's. -/
def certOk (c : Bytes) : Bool := u c 0 4 == 1 && decide (u c 4 1 < 2) && signedBy (Config.rootKey (u c 4 1)) c

/-- The sections of a record: TYPE and body. -/
def sectionsOf : Nat → Bytes → Option (List (Nat × Bytes))
  | 0, bs => if bs.isEmpty then some [] else none
  | fuel + 1, bs =>
    if bs.isEmpty then some []
    else
      let n := u bs 4 4
      let whole := 8 + (n + 7) / 8 * 8
      if bs.length < whole then none
      else (sectionsOf fuel (bs.drop whole)).map fun t => (u bs 0 2, slice bs 8 n) :: t

/-- Length of the record that the flash, or the staging window, holds. -/
def recLength (bs : Bytes) : Nat := u bs 4 4

/-- A record's recovery reason: 1 NO_CONFIG, 2 CFG_SIGNATURE, 7 DEVICE_BIND; 0 where it passes. A LIFECYCLE outside 1-4 is
taken as one that its certificate does not allow (log 67). -/
def recordReason (id bs : Bytes) : Nat :=
  let cert := slice bs 64 128
  let life := u bs 12 1
  let bound := slice bs 16 16
  if u bs 0 4 ≠ 1 ∨ bs.length < 448 ∨ 262144 < bs.length ∨ bs.length ≠ recLength bs then 1
  else if !certOk cert || !signedBy (slice cert 16 32) bs || !within 1 4 life || !(u cert 5 1).testBit life then 2
  else if (life = 2 ∨ life = 4) ∧ (allZero bound ∨ bound ≠ id) then 7
  else if life = 3 ∧ !allZero bound ∧ bound ≠ id then 7
  else 0

/-- The record in the boot flash. -/
def flashRecord (s : State) : Bytes := flashRead s cfgBase (min 262144 (u (flashRead s cfgBase 8) 4 4))

def secBody (l : List (Nat × Bytes)) (ty : Nat) : Option Bytes := (l.find? fun x => x.1 == ty).map (·.2)

/-- The region table (R481). -/
def regionsOf (body : Bytes) : List Region :=
  (chunks 16 64 body).map fun d =>
    { offset := u d 0 4, size := u d 4 4, kind := u d 8 1, ctx := u d 9 1, mirror := u d 10 1 }

/-- Two ranges meet. -/
def meets (a n b m : Nat) : Bool := decide (a < b + m) && decide (b < a + n)

/-- One descriptor follows R481 and R482. -/
def regionOk (r : Region) : Bool :=
  r.offset % 65536 == 0 && r.size % 65536 == 0 && decide (65536 ≤ r.size) && decide (r.offset + r.size ≤ 2 ^ 29) &&
    within 1 11 r.kind && decide (r.mirror ≤ 1) &&
    (if 7 ≤ r.kind ∧ r.kind ≤ 10 then decide (r.ctx < 16) else r.ctx == 0xFF) &&
    (r.mirror != 1 || decide (r.offset + r.size ≤ dieBit)) && (decide (4 < r.kind) || r.mirror == 1) &&
    (r.kind != 6 || (decide (dieBit ≤ r.offset) && r.mirror == 0))

/-- The REGIONS section is accepted (R483). -/
def regionsOk (body : Bytes) : Bool :=
  let l := regionsOf body
  body.length % 16 == 0 && decide (body.length ≤ 1024) && ((chunks 16 64 body).all fun d => allZero (slice d 11 5)) &&
    l.all regionOk && ([1, 2, 3, 4, 5, 6].all fun k => l.any fun r => r.kind == k) &&
    (l.zipIdx.all fun (a, i) => l.zipIdx.all fun (b, j) =>
      i == j || !(meets a.offset a.size b.offset b.size ||
        (a.mirror == 1 && meets (a.offset + dieBit) a.size b.offset b.size)))

/-- The IMAGES section (R640): offset and size of the image area, 4 B each (log 126), and the directory, of entries of 16 B. -/
def imagesOf (body : Bytes) : List DirEntry :=
  (chunks 16 64 (body.drop 8)).map fun d => { handle := u d 0 4, kind := u d 4 1, flashOff := u d 8 4, length := u d 12 4 }

/-- The IMAGES section is well formed: a directory of up to 64 entries. -/
def imagesOk (body : Bytes) : Bool := within 8 (8 + 1024) body.length && (body.length - 8) % 16 == 0

/-- The contents of the sections: what the spec lays out is read from the bytes, the rest is Config's (R634, R640; log 6). -/
def bodiesOf (l : List (Nat × Bytes)) : CfgBodies :=
  let body := (secBody l 13).getD []
  { Config.sections l with imageBase := u body 0 4, imageSize := u body 4 4, images := imagesOf body }

/-- The sections are accepted: each type known and once, the required ones there, each well formed, both ports bound to
different interfaces (R483, R550, R634). -/
def sectionsOk (l : List (Nat × Bytes)) : Bool :=
  let tys := l.map (·.1)
  let cfg := bodiesOf l
  tys.all (within 1 15) && tys.eraseDups.length == tys.length && [1, 2, 3].all tys.contains &&
    (l.all fun (t, b) => t == 2 || (if t = 13 then imagesOk b else Config.sectionOk t b)) && regionsOk ((secBody l 2).getD []) &&
    decide (cfg.portA < 4) && decide (cfg.portB < 4) && cfg.portA != cfg.portB

/-! ## Firmware (R627, R628) -/

/-- The firmware image in the boot flash, where it is one. -/
def flashFirmware (s : State) : Option Bytes :=
  let n := u (flashRead s fwBase 8) 4 4
  let bs := flashRead s fwBase (min (15 * 2 ^ 20) n)
  if u bs 0 4 = 1 ∧ n ≤ 15 * 2 ^ 20 ∧ rootSigned bs then some bs else none

/-! ## Recovery boot (R630) -/

/-- An SDIO card in default speed or high speed at 3.3 V. -/
def recoverySd : Sd := { Sd.reset with en := true, f2En := true, maxMode := 3, v18En := false }

/-- Recovery boot: the pins stay undriven, FAULT_N is low, PS0 alone is set up. -/
def recovery (s : State) (f : BootFinding) (reason : Nat) : State :=
  let mib := f.psramMiB[0]?.getD 0
  { s with
    boot := { Boot.reset with
      phase := .on, pwrgd := true, coreEn := true, st := 1, reason := reason, flashSize := f.flashSize
      deviceId := match deviceSeed s with
        | some seed => deviceIdOf seed
        | none => zeros 16 }
    saf := { s.saf with faultLow := true }
    power := { s.power with
      chSize := vupd s.power.chSize 0 fun _ => mib, chState := vupd s.power.chState 0 fun _ => if mib = 0 then 3 else 2
      chId := vupd s.power.chId 0 fun _ => Config.psramId 0 }
    sda := recoverySd, sdb := recoverySd }

/-! ## Step 6: wear record, roles, sections -/

/-- The wear record in force, power-on counted; with neither copy valid a new one and a WEAR_LOST record. -/
def restoreWear (s : State) : State :=
  let s := match restoredWear s with
    | some w => { s with wear := w }
    | none => fault { s with wear := default } 0xFF 0x1E 0x0403 0x1F 0x1F 0 0
  { s with wear := { s.wear with powerCycles := s.wear.powerCycles + 1 } }

/-- The roles of R36 and the engines as they stand (R25, R333). -/
def assignRoles (s : State) : State :=
  let sound := allEng.filter fun n => s.wear.engReason[n] == 0
  let bits := fun (l : List EngId) => BitVec.ofNat 18 (ofBits (l.map (·.val)))
  let working := sound.take 16
  let s := { s with roles := { (default : Roles) with
    working := bits working, coppice := sound[16]?, reserve := sound[17]?
    retired := bits (allEng.filter fun n => s.wear.engReason[n] != 0), assigned := true } }
  let eng := fun (n : EngId) (e : Engine) =>
    let lane := s.wear.engLane[n]
    { e with
      st := if s.working n || s.roles.coppice == some n then .idle else .off
      spareUsed := lane != 0, lane := lane - 1, gfFrom := s.aoclk, idleFrom := s.now
      imem := [(16, [(imemBytes, 2 ^ 14)], Config.goldenProgram)] }
  allEng.foldl (fun s n => s.modEng n (eng n)) s

/-- A camera record of the CAMERAS section (R103). -/
def cameraRecord (s : State) (st : StreamId) (bs : Bytes) : State :=
  let s := setObj s 0x2101 (st.val + 1) bs
  s.modStream st fun x => { x with rec_ := if camOk s.world.geom st.val bs then some (parseCam bs) else none }

/-- The sections applied (R103, R376, R404, R550, R574, R581, R591, R601, R623, R634, R659, R675). -/
def applySections (f : BootFinding) (l : List (Nat × Bytes)) (s : State) : State :=
  let cfg := bodiesOf l
  let s := { s with
    boot := { s.boot with
      cfg := cfg, regions := regionsOf ((secBody l 2).getD []), hedgeDigest := digest128 ((secBody l 10).getD []) }
    power := { s.power with vset := cfg.vcoreNom } }
  let part := fun (p : Fin 8) =>
    if cfg.partitions.isEmpty then (if p = 0 then 256 else 0) else cfg.partitions[p.val]?.getD 0
  let s := { s with tds := { s.tds with
    parts := Vector.ofFn fun p => { (default : Part) with share := part p } } }
  let arb := fun (v : Vector Nat 32) (g : Nat × Nat × Nat × Nat → Nat) =>
    Vector.ofFn fun (i : Fin 32) => match cfg.arbWeights[i.val]? with
      | some w => g w
      | none => v[i]
  let s := { s with arb := { s.arb with
    wStore := arb s.arb.wStore (·.1), wPsram := arb s.arb.wPsram (·.2.1), wLink := arb s.arb.wLink (·.2.2.1)
    wlimit := arb s.arb.wlimit (·.2.2.2) } }
  let s := ioFromCfg s
  let box := fun (i : Fin 32) (b : Mbox) => match cfg.mailboxes[i.val]? with
    | some m => { b with sender := BitVec.ofNat 2 m.sender, receiver := BitVec.ofNat 2 m.receiver }
    | none => b
  let s := { s with mbx := { s.mbx with box := Vector.ofFn fun i => box i s.mbx.box[i] } }
  let s := psramInit f.psramMiB s
  let s := cfg.cameras.foldl (fun s (i, bs) => if h : i < 16 then cameraRecord s ⟨i, h⟩ bs else s) s
  let s := { s with hedge := { s.hedge with
    members := cfg.hedge.expected.map fun a => { (default : Member) with addr := a, st := 1 } } }
  (List.finRange 6).foldl linkFromCfg s

/-! ## Step 7: start tests (R475, R476) -/

/-- An engine that fails its start test is retired at once: 1 golden frame, 3 lane test. -/
def failStart (s : State) (n : EngId) (reason fcode detail : Nat) : State :=
  let s := fault (advanceTag s (engDomain n)) 0xFF n.val fcode n.val 0x1F actRetire detail
  let s := { s with wear := { s.wear with engReason := vupd s.wear.engReason n fun _ => reason } }
  emcy (writeWear s) 0xFF05 0xFF (n.val + 256 * reason)

/-- The start test of one engine: its lane test, then its golden frame. -/
def startTest (f : BootFinding) (s : State) (n : EngId) : State :=
  let lanes := (f.lanes.filter fun x => x.1 == n).map fun x => x.2.val
  let used := s.wear.engLane[n] != 0
  let golden := fun (s : State) =>
    match f.engines.find? fun x => x.1 == n with
    | some (_, why) =>
      let s := { s with saf := { s.saf with
        gfFail := wrapInc 32 s.saf.gfFail, gfFails := satAdd 65535 s.saf.gfFails 1, lastEng := n.val, lastPass := false } }
      failStart s n retGolden 0x0103 (why.val + 1)
    | none => { s with saf := { s.saf with gfPass := wrapInc 32 s.saf.gfPass, lastEng := n.val, lastPass := true } }
  match lanes with
  | [] => golden s
  | l :: rest =>
    let detail := lanes.length + 256 * l
    if rest = [] ∧ l < 64 ∧ !used then
      let s := fault s 0xFF n.val 0x0108 n.val 0x1F 0 detail
      golden (writeWear { s with wear := { s.wear with engLane := vupd s.wear.engLane n fun _ => l + 1 } })
    else failStart s n retOther 0x0108 detail

/-- The start tests. A checker that fails latches SELFTEST_START; else the engines are tested, all at once: the last of them in
order stands as the last golden frame (log 66). -/
def startTests (f : BootFinding) (s : State) : State :=
  let before := min 3 ((allEng.filter fun n => s.wear.engReason[n] != 0).length)
  let s := { s with saf := { s.saf with
    startFail := BitVec.ofNat 16 (ofBits (f.checkers.map (·.val))), stDone := true, startAt := s.now, ageSent := false } }
  let s := if f.checkers.isEmpty then
      (allEng.filter fun n => s.wear.engReason[n] == 0).foldl (startTest f) s
    else partCause s 8
  let s := assignRoles s
  let s := if before < 2 ∧ s.service = 2 then emcy s 0xFF04 0xFF s.roles.retired.toNat else s
  if s.service = 3 then partCause s 7 else s

/-! ## Steps 8 to 10 -/

/-- The images of the directory, one after another from the start of the image area (R640), registered and checked. -/
def bootImages (s : State) : State :=
  (s.boot.cfg.images.foldl (fun (s, off) (d : DirEntry) =>
    let bs := flashRead s (storeImages + d.flashOff) d.length
    let s := if psramOk s off d.length then { s with psram := memWrite s.psram off bs } else s
    let slot := freeEntry s
    let s := registerImage s d.handle d.kind off d.length
    let s := match slot with
      | some i => imageCheckEffect i s
      | none => s
    (s, off + d.length)) (s, s.boot.cfg.imageBase)).1

/-- Step 10: the pins are driven where the start self-tests have passed (R448), with the test pulses that PULSE_EN asks for. -/
def bootReady (s : State) : State :=
  let s := { s with
    saf := { s.saf with
      outEn := s.saf.startFail == 0, pulseEn := oNat s 0x2300 0x05 == 1, faultLow := s.saf.causes != 0, wdtLast := s.aoclk
      wdtNext := false }
    tds := { s.tds with run := true }
    boot := { s.boot with st := 5 } }
  drivePins s

/-! ## The boot sequence (R628) -/

/-- Steps 1 to 10. -/
def bootSequence (f : BootFinding) (s : State) : State :=
  let s := { s with
    clk := { s.clk with apllLock := true, spllLock := true, hpllLock := true, lpllLock := true }
    boot := { s.boot with phase := .on, pwrgd := true } }
  if f.flashSize = 0 then recovery s f 8
  else match deviceSeed s with
    | none => recovery s f 6
    | some seed =>
      let id := deviceIdOf seed
      let bs := flashRecord s
      match recordReason id bs with
      | 0 =>
        match flashFirmware s with
        | none => recovery s f 5
        | some fw =>
          let cl := u bs 14 2
          if Config.clMax < cl ∨ u fw 12 2 < cl then recovery s f 4
          else
            let life := u bs 12 1
            let s := { s with boot := { Boot.reset with
              phase := .on, pwrgd := true, coreEn := true, st := 2, lifecycle := life, jtagOpen := life != 3
              keyProd := life == 3, cfgVersion := u bs 8 4, cfgDigest := digest128 bs, fwDigest := digest128 fw
              fwVersion := u fw 8 4, cl := cl, deviceId := id, cert := flashRead s certBase 128
              ownerKey := slice (slice bs 64 128) 16 32, flashSize := f.flashSize } }
            let body := slice bs 192 (bs.length - 256)
            let s := restoreWear s
            match sectionsOf (body.length / 8 + 1) body with
            | none => recovery s f 3
            | some l =>
              if !sectionsOk l then recovery s f 3
              else bootReady (hostBoot (bootImages (startTests f (applySections f l s))))
      | r => recovery s f r

/-- PORST_N_RISE: the boot ROM brings up the core rail at VCORE_NOM (R693), as the record in the flash gives it. -/
def porstRiseEffect (s : State) : State :=
  if s.boot.phase ≠ .held then s
  else
    let bs := flashRecord s
    let body := slice bs 192 (bs.length - 256)
    let (v, s) := s.free 12
    let nom := match sectionsOf (body.length / 8 + 1) body with
      | some l => (bodiesOf l).vcoreNom
      | none => v.toNat
    { s with
      clk := { s.clk with xinOk := true, rtcOk := true }
      boot := { s.boot with phase := .ramp, coreEn := true, rampFrom := s.now }
      power := { s.power with vset := nom } }

def execPorstNRise (s : State) : Out := .next (porstRiseEffect s)

/-- VDD_AON_RETURN: the part leaves the brown-out reset and boots (R696). -/
def execVddAonReturn (s : State) : Out := .next (porstRiseEffect s)

/-- PWRGD_CORE_RISE. -/
def pwrgdRiseEffect (f : BootFinding) (s : State) : State :=
  if s.boot.phase = .ramp then bootSequence f s
  else if s.boot.phase = .on then { s with boot := { s.boot with pwrgd := true } } else s

def execPwrgdCoreRise (f : BootFinding) (s : State) : Out := .next (pwrgdRiseEffect f s)

/-- PWRGD_CORE_TIMEOUT: 10 ms after CORE_EN (R693). -/
def pwrgdTimeoutEffect (s : State) : State :=
  if s.boot.phase = .ramp ∧ s.boot.rampFrom + 4000000 ≤ s.now then
    { s with
      boot := { s.boot with phase := .coreOff, coreEn := false, rampFrom := s.now }
      saf := { s.saf with faultLow := true } }
  else s

def execPwrgdCoreTimeout (s : State) : Out := .next (pwrgdTimeoutEffect s)

/-- 100 ms after CORE_EN fell the boot ROM tries again (R693); the tick calls this. -/
def rampAgain (s : State) : State :=
  if s.boot.phase = .coreOff ∧ s.boot.rampFrom + 40000000 ≤ s.now then
    { s with boot := { s.boot with phase := .ramp, coreEn := true, rampFrom := s.now } }
  else s

/-- PWRGD_CORE_FALL: VOLTAGE is latched (R693). -/
def execPwrgdCoreFall (s : State) : Out :=
  .next (if s.boot.phase = .on then partCause { s with boot := { s.boot with pwrgd := false } } 4 else s)

/-! ## The recovery commands (R632, R633) -/

/-- The bytes staged at PS0 offset 0. -/
def staged (s : State) : Bytes := psramRead s 0 (min s.boot.recLen.toNat (2 ^ 24))

/-- Bytes that the staging window can hold, on the PSRAM of PS0. -/
def stagedOk (s : State) : Bool := decide (s.boot.recLen.toNat ≤ 2 ^ 24) && psramOk s 0 s.boot.recLen.toNat

def recFail (s : State) (err : Nat) : State := { s with boot := { s.boot with recState := 3, recErr := err } }
def recDone (s : State) : State := { s with boot := { s.boot with recState := 2, recErr := 0 } }

/-- A recovery command of an interface: the session is taken, another port's command fails with REC_ERR 5. Outside recovery
boot there is no REC_CMD. -/
def recCmd (i : SdIf) (s : State) (f : State → State) : State :=
  if s.boot.phase ≠ .on ∨ s.boot.st ≠ 1 ∨ !(s.sd i).en then s
  else match s.boot.recHolder with
    | some j => if j = i then f s else recFail s 5
    | none => f { s with boot := { s.boot with recHolder := some i } }

def zeroFill (s : State) (off n : Nat) : State := { s with flash := memClear s.flash off n }

/-- PROGRAM_CFG: owner certificate, signature and DEVICE_ID binding. -/
def programCfgBody (s : State) : State :=
  let bs := staged s
  let id := s.boot.deviceId
  if !stagedOk s || !within 448 262144 bs.length || recLength bs != bs.length then recFail s 3
  else match recordReason id bs with
    | 0 => recDone (flashWrite (zeroFill s cfgBase 262144) cfgBase bs)
    | 7 => recFail s 2
    | _ => recFail s 1

def execProgramCfg (i : SdIf) (s : State) : Out := .next (recCmd i s programCfgBody)

/-- PROGRAM_FW: root signature. -/
def programFwBody (s : State) : State :=
  let bs := staged s
  if !stagedOk s || decide (15 * 2 ^ 20 < bs.length) then recFail s 3
  else if !rootSigned bs then recFail s 1
  else recDone (flashWrite (zeroFill s fwBase (15 * 2 ^ 20)) fwBase bs)

def execProgramFw (i : SdIf) (s : State) : Out := .next (recCmd i s programFwBody)

/-- PROGRAM_IMAGE: the staged bytes go into the image store at REC_ARG, unchecked. -/
def programImageBody (s : State) : State :=
  let bs := staged s
  let off := storeImages + s.boot.recArg.toNat
  if !stagedOk s || decide (s.boot.flashSize < off + bs.length) then recFail s 3
  else recDone (flashWrite (zeroFill s off bs.length) off bs)

def execProgramImage (i : SdIf) (s : State) : Out := .next (recCmd i s programImageBody)

/-- ENROL: a token signed by a root key; REC_DATA returns the production public key of the new helper data. -/
def enrolBody (s : State) : State :=
  let bs := staged s
  if !stagedOk s then recFail s 3
  else if !rootSigned bs then recFail s 1
  else
    let h := padTo 4096 (Config.enrolHelper bs)
    let s := flashWrite (zeroFill s helperBase 4096) helperBase h
    recDone { s with boot := { s.boot with recData := padTo 64 (prodPublic (Config.pufSeed h)) } }

def execEnrol (i : SdIf) (s : State) : Out := .next (recCmd i s enrolBody)

/-- PROGRAM_CERT: root signature, and this part's production public key. -/
def programCertBody (s : State) : State :=
  let bs := staged s
  if !stagedOk s || bs.length != 128 then recFail s 3
  else if !certOk bs then recFail s 1
  else match deviceSeed s with
    | none => recFail s 2
    | some seed =>
      if slice bs 16 32 ≠ prodPublic seed then recFail s 2
      else recDone (flashWrite (zeroFill s certBase 4096) certBase bs)

def execProgramCert (i : SdIf) (s : State) : Out := .next (recCmd i s programCertBody)

/-- RESTART: a whole-part reset that enters the boot ROM again; PWRGD_CORE_RISE then stands for the boot (log 68). -/
def restartBody (s : State) : State :=
  let t := coreReset s
  { t with
    boot := { t.boot with phase := .ramp, coreEn := true, rampFrom := s.now }
    saf := { t.saf with faultLow := false } }

def execRestart (i : SdIf) (s : State) : Out := .next (recCmd i s restartBody)

/-! ## Attestation (R639) -/

/-- What the report says of a context. -/
def attestCtx (s : State) (c : CtxId) : Bytes :=
  let x := s.ctx c
  leBytes 4 (cNat s c 0x03) ++ leBytes 1 (match x.st with
    | .idle => 0
    | .starting => 1
    | .running => 2
    | .draining => 3) ++ zeros 3 ++ padTo 16 x.planDigest ++ padTo 16 (x.rm.parts[x.rm.activePart]?.getD default).chain ++
    zeros 8

/-- Bytes 0-959 of the report. -/
def attestBody (s : State) (nonce : Bytes) : Bytes :=
  let b := s.boot
  leBytes 4 1 ++ leBytes 2 b.cl ++ leBytes 2 Config.stepping ++ leBytes 1 b.lifecycle ++ zeros 3 ++ leBytes 4 b.cfgVersion ++
    padTo 16 b.deviceId ++ padTo 32 nonce ++ padTo 16 b.fwDigest ++ padTo 16 b.cfgDigest ++ leBytes 4 b.fwVersion ++
    leBytes 4 s.wear.powerCycles ++ zeros 8 ++ allCtx.flatMap (attestCtx s) ++ edPublic (keyInForce s) ++ zeros 48

/-- A write while the state is BUSY is refused. -/
def attestRefused (s : State) : Option Nat := if s.boot.attest = 1 then some 0x08000022 else none

/-- ATTEST_NONCE: the report takes its values now. -/
def attestApply (nonce : Bytes) (s : State) : State :=
  { s with boot := { s.boot with attest := 1, attestBody := attestBody s nonce } }

/-- ATTEST_COMPLETE. -/
def attestCompleteEffect (s : State) : State :=
  if s.boot.attest ≠ 1 then s
  else
    let b := s.boot.attestBody
    { s with boot := { s.boot with attest := 2, attestReport := b ++ edSign (keyInForce s) b } }

def execAttestComplete (s : State) : Out := .next (attestCompleteEffect s)

end Sys2Proof.Machine
end

