-- ==== Sys2Proof/Machine/Clock.lean ====
section
/-! DEFINITION. What one ACLK does when no command waits (log 2): the clocks (R655, R657), the credit of the partitions
(R377, R378), the time that engines spend in RUN (R367) and the second try of the core supply (R693). -/

namespace Sys2Proof.Machine

/-- The ACLK and the RTC counts: an RTC cycle is 390,625 / 32 ACLK (log 2). -/
def Clk.tick (k : Clk) : Clk :=
  let p := k.rtcPhase + 32
  let k := { k with now := k.now + 1 }
  if !k.rtcOk then k
  else if 390625 ≤ p then { k with rtcPhase := p - 390625, rtc := (k.rtc + 1) % 2 ^ 48 } else { k with rtcPhase := p }

/-- The tiles of a partition that engines hold (R377). -/
def heldOf (s : State) (p : Fin 8) : Nat :=
  (s.tds.tiles.filter fun t =>
    (match t.status with
      | .held _ => true
      | _ => false) && chargedTo s t p).length

/-- One ACLK of a partition. -/
def tickPart (s : State) (p : Fin 8) (k : Part) : Part :=
  let n := heldOf s p
  { k with credit := k.credit - n, used := k.used + n, starved := k.starved && partReady s p }

/-- One ACLK of an engine: the time in RUN (R367), and the commands that its units' queues hold while it runs a tile (R364). -/
def tickEngine (now : Nat) (n : EngId) (e : Engine) : Engine :=
  let e := if e.st = .run then { e with perfBusy := wrapInc 32 e.perfBusy } else e
  match e.holding with
  | some h => { e with queued := Config.cmdsQueued n.val h now % 256 }
  | none => e

/-- One ACLK of the part. -/
def tickEffect (s : State) : State :=
  rampAgain { s with
    clk := s.clk.tick
    engines := Vector.ofFn fun n => tickEngine s.now n s.engines[n]
    tds := { s.tds with parts := Vector.ofFn fun p => tickPart s p s.tds.parts[p] } }

end Sys2Proof.Machine
end

