-- ==== Sys2Proof/Machine/Power.lean ====
section
/-! DEFINITION. Power states, part OFF, telemetry, voltage and throttling (R423, R667-R678, R683). -/

namespace Sys2Proof.Machine

/-! ## NAP and DOZE (R667-R670) -/

/-- NAP_ENTRY: blocked in a take read, with no tile ready for it, for 64 ACLK. -/
def napEntryEffect (n : EngId) (s : State) : State :=
  let e := s.eng n
  if takes s n && e.st == .takeWait && decide (e.idleFrom + 64 ≤ s.now) && (nextFor s n).isNone then
    s.modEng n fun e => { e with st := .nap }
  else s

def execNapEntry (n : EngId) (s : State) : Out := .next (napEntryEffect n s)

/-- ACLK to the next F of a context, or of the AON frame timer (R565, R669). The F of a context that follows SYNC_IN is
expected one period after the last one (log 71). -/
def toNextF (s : State) (c : CtxId) : Nat :=
  let p := us (cNat s c 0x04)
  if p = 0 then 0
  else if cNat s c 0x05 = 0 then (us (cNat s c 0x06) % p + p - s.now % p) % p
  else match (s.ctx c).lastF with
    | some f => f + p - s.now
    | none => 0

/-- ACLK to the earliest wake that R669 foresees. -/
def toNextWake (s : State) : Nat :=
  let fs := ((allCtx.filter fun c => s.started c).map (toNextF s)) ++
    (if s.pacing.isNone then [(us 1000 - s.now % us 1000) % us 1000] else [])
  (fs.foldl min (fs.headD 0)) - us (oNat s 0x2600 0x0A)

/-- The engines that sleep together: every working and coppice engine. -/
def inService (s : State) (n : EngId) : Bool := s.working n || s.roles.coppice == some n

/-- Some tile is ready, or a golden frame or a context load is to be taken or runs. -/
def workWaits (s : State) : Bool :=
  (s.tds.tiles.any fun t => match t.status with
    | .ready => true
    | .held _ => true
    | _ => false) || s.roles.gold == .due || allEng.any fun n => (loadDue s n).isSome

/-- DOZE_ENTRY: every engine in NAP for 5 µs, nothing to do, the next wake at least 20 µs away. -/
def dozeEntryEffect (s : State) : State :=
  let ready := allEng.all fun n => !inService s n ||
    ((s.eng n).st == .nap && decide ((s.eng n).idleFrom + 64 + us 5 ≤ s.now))
  if s.boot.phase = .on ∧ s.boot.st = 5 ∧ oNat s 0x2600 0x09 = 1 ∧ ready ∧ !workWaits s ∧ us 20 ≤ toNextWake s then
    let s := (allEng.filter (inService s)).foldl (fun s n => s.modEng n fun e => { e with st := .doze }) s
    { s with power := { s.power with dozeCount := wrapInc 32 s.power.dozeCount } }
  else s

def execDozeEntry (s : State) : Out := .next (dozeEntryEffect s)

/-- The engines wake: their logic in its reset state, role, memories and clipping-pass position kept. They are blocked in
their take reads again (R669). -/
def wakeEngines (s : State) : State :=
  allEng.foldl (fun s n => s.modEng n fun e =>
    if e.st = .doze then { e with st := .takeWait, core := Engine.reset.core, idleFrom := s.now } else e) s

/-- DOZE_WAKE. -/
def dozeWakeEffect (w : WakeCause) (s : State) : State :=
  match w with
  | .wakeLead => if toNextWake s = 0 then wakeEngines s else s
  | .tileReady => if workWaits s then wakeEngines s else s
  | .access => wakeEngines s

def execDozeWake (w : WakeCause) (s : State) : Out := .next (dozeWakeEffect w s)

/-- HOST_DOZE_ENTRY (R671): all four cores wait for an interrupt. -/
def hostDozeEffect (s : State) : State :=
  if s.boot.phase = .on ∧ s.boot.hostUp ∧ oNat s 0x2600 0x0B = 1 then { s with power := { s.power with hostDoze := true } } else s

def execHostDozeEntry (s : State) : Out := .next (hostDozeEffect s)

/-- HOST_DOZE_WAKE: an interrupt to a core, or a mailbox wake event. -/
def execHostDozeWake (s : State) : Out := .next { s with power := { s.power with hostDoze := false } }

/-! ## Part OFF (R672, R673) -/

/-- OFF_REQ is refused unless every context is IDLE and no replay runs. -/
def offRefused (s : State) : Option Nat := if s.anyRuns || s.replaying then some 0x08000022 else none

/-- Part OFF: the wear record is written, the PLLs and the core regulator stop. -/
def offApply (s : State) : State :=
  let s := writeWear s
  let b := s.boot
  let t := coreReset s
  { t with boot := { t.boot with phase := .partOff, coreEn := b.coreEn, lifecycle := b.lifecycle, keyProd := b.keyProd } }

/-- RTC_ALARM: the match leaves part OFF, and the part boots from step 1 of R628. -/
def rtcAlarmEffect (f : BootFinding) (s : State) : State :=
  let a := oNat s 0x2600 0x0E
  if s.boot.phase = .partOff ∧ a ≠ 0 ∧ a = s.clk.rtc then bootSequence f s else s

def execRtcAlarm (f : BootFinding) (s : State) : Out := .next (rtcAlarmEffect f s)

/-! ## Telemetry and voltage (R674-R677) -/

/-- A transaction that failed after its retries. -/
def busFails (s : State) : State :=
  { s with power := { s.power with pmbusFail := wrapInc 32 s.power.pmbusFail, backToNom := true } }

/-- The bus answers again: the setpoint is VCORE_NOM. -/
def busAnswers (s : State) : State :=
  if s.power.backToNom then { s with power := { s.power with vset := s.boot.cfg.vcoreNom, backToNom := false } } else s

/-- TELEMETRY_POLL: every 1 ms. PCORE is the mean of the last ten products, rounded down (log 69); any bit of STATUS_WORD is
taken as a fault bit (log 70). -/
def telemetryEffect (r : RegulatorPoll) (s : State) : State :=
  if s.boot.phase ≠ .on ∨ s.now % us 1000 ≠ 0 then s
  else
    let p := s.power
    let tj := max r.tjLogic (max r.tjStore0 r.tjStore1)
    let s := { s with power := { p with tjMax := tj, tjDie := [r.tjLogic, r.tjStore0, r.tjStore1] } }
    if !r.ok then busFails s
    else
      let hist := (r.vout * r.iout :: p.pHist).take 10
      let s := busAnswers { s with power := { s.power with
        vread := r.vout, iread := r.iout, pHist := hist, pcore := hist.sum / hist.length / 100 } }
      if r.statusWord = 0 then s else fault s 0xFF 0x1E 0x0404 0x1F 0x1F 0 r.statusWord

def execTelemetryPoll (r : RegulatorPoll) (s : State) : Out := .next (telemetryEffect r s)

/-- AVS_ADJUST: every 10 ms the setpoint moves by 5 mV within its limits. -/
def avsEffect (up ok : Bool) (s : State) : State :=
  let c := s.boot.cfg
  if s.boot.phase ≠ .on ∨ s.now % us 10000 ≠ 0 then s
  else if !ok then busFails s
  else if s.power.backToNom then busAnswers s
  else
    let v := s.power.vset
    { s with power := { s.power with vset := if up then min c.vcoreNom (v + 5) else max c.vcoreMin (v - 5) } }

def execAvsAdjust (up ok : Bool) (s : State) : Out := .next (avsEffect up ok s)

/-- SPEED_MONITOR_ALERT: 25 mV up at once. -/
def speedAlertEffect (s : State) : State :=
  if s.boot.phase ≠ .on then s
  else { s with power := { s.power with vset := min s.boot.cfg.vcoreNom (s.power.vset + 25) } }

def execSpeedMonitorAlert (s : State) : Out := .next (speedAlertEffect s)

/-! ## Throttling (R677) -/

/-- The threshold of a step in °C. -/
def stepT (s : State) (k : Nat) : Int := (oNat s 0x2600 0x07 : Int) + 5 * ((k : Int) - 1)

/-- The condition of a step: its temperature, for step 1 also P_LIMIT. -/
def stepCond (s : State) (k : Nat) : Bool :=
  decide (stepT s k ≤ s.power.tjMax) || (k == 1 && decide (oNat s 0x2600 0x08 ≤ s.power.pcore))

/-- The condition of the current step is absent, with the temperature 5 °C below its threshold. -/
def stepGone (s : State) (k : Nat) : Bool := !stepCond s k && decide (s.power.tjMax ≤ stepT s k - 5)

/-- THROTTLE_STEP_CHANGE: the thermal controller's evaluation at a tick. It rises by one step per 10 ticks at most, and falls
by one after 100 ticks without the condition of the current step. -/
def throttleEffect (s : State) : State :=
  if s.boot.phase ≠ .on then s
  else
    let p := s.power
    let t := s.world.tick
    let cause := fun (k : Nat) => k == 1 && decide (s.power.tjMax < stepT s 1)
    let k := p.step
    if k < 3 ∧ stepCond s (k + 1) then
      if p.lastRise.all fun r => decide (r + 10 ≤ t) then
        { s with power := { p with step := k + 1, lastRise := some t, absentFrom := none, pCause := cause (k + 1) } }
      else s
    else if k = 0 ∨ !stepGone s k then { s with power := { p with absentFrom := none, pCause := cause k } }
    else match p.absentFrom with
      | none => { s with power := { p with absentFrom := some t, pCause := cause k } }
      | some f =>
        if f + 100 ≤ t then
          { s with power := { p with step := k - 1, absentFrom := none, pCause := cause (k - 1) } }
        else { s with power := { p with pCause := cause k } }

def execThrottleStepChange (s : State) : Out := .next (throttleEffect s)

end Sys2Proof.Machine
end

