-- ==== Sys2Proof/Machine/Hedge.lean ====
section
/-! DEFINITION. Hedges: forming one, what a member runs, dealt tiles, and the loss of a member (R601-R622). -/

namespace Sys2Proof.Machine

def State.member (s : State) (addr : Nat) : Option Member := s.hedge.members.find? fun m => m.addr == addr
def State.modMember (s : State) (addr : Nat) (f : Member → Member) : State :=
  { s with hedge := { s.hedge with members := s.hedge.members.map fun m => if m.addr = addr then f m else m } }

/-! ## Admission at the top root (R605-R607) -/

/-- The first reason for which a HELLO is refused; 0 for none. -/
def helloReason (s : State) (addr cl : Nat) (digest : BitVec 128) (service : Nat) : Nat :=
  if cl ≠ s.boot.cl then 1
  else if !s.boot.cfg.hedge.expected.contains addr then 2
  else if (s.member addr).any fun m => m.st == 2 || m.st == 3 then 3
  else if leBytes 16 digest.toNat ≠ s.boot.hedgeDigest then 4
  else if service = 3 then 5
  else 0

/-- A refusal: sent as an ADMIT flit without payload (log 49), recorded, and the chip is ignored until its next power-on. Where its
address is admitted already, it is its HELLOs that are ignored (log 75). -/
def refuseChip (s : State) (l : LinkId) (addr reason : Nat) : State :=
  let s := sendFlit s (newFlit s addr tyAdmit 0xFF [])
  let s := linkFault s l 0x0506 0 (addr + reason * 2 ^ 16)
  let s := { s with hedge := { s.hedge with refusedLast := addr + reason * 2 ^ 16 } }
  if reason = 3 then s.modMember addr fun m => { m with ignored := true }
  else if (s.member addr).isSome then s.modMember addr fun m => { m with st := 5 }
  else { s with hedge := { s.hedge with members := s.hedge.members ++ [{ (default : Member) with addr := addr, st := 5 }] } }

/-- The registered images that an admitted chip receives: planning, roadmap and forecast images. -/
def imagesFor (s : State) : List Bytes :=
  (s.images.toList.filter fun e => e.st == 2 && decide (1 ≤ e.kind) && decide (e.kind ≤ 3)).map fun e =>
    leBytes 4 e.handle ++ leBytes 1 e.kind ++ psramRead s e.offset e.length

/-- A chip admitted: ADMIT with its tag, the images, and, when contexts run, a seed at the first tick with an empty loader
queue; without running contexts it is IN at once (R606). -/
def admitChip (s : State) (addr : Nat) : State :=
  let tag := ((s.member addr).map (·.tag)).getD 0
  let s := sendTo s addr tyAdmit 0xFF (leBytes 1 tag)
  let s := (imagesFor s).foldl (fun s b => sendTo s addr tyImage 0xFF b) s
  let now := s.now
  let from_ := if s.world.started then s.world.tick + 1 else 0
  s.modMember addr fun m => { m with st := if s.runningCtxs.isEmpty then 3 else 2, heard := now, joined := from_ }

/-- A chip that was refused is judged anew at its first HELLO after a power-on (R605). -/
def judgeAnew (s : State) (addr : Nat) : State :=
  let again := fun (m : Member) =>
    if m.addr ≠ addr then some m
    else if m.st ≠ 5 then some { m with ignored := false }
    else if s.boot.cfg.hedge.expected.contains addr then some { m with st := 1 } else none
  { s with hedge := { s.hedge with members := s.hedge.members.filterMap again } }

/-- HELLO_FLIT: the far end of the port is noted; a unit root sends a HELLO of its own hedge on, with its own; the top root
admits or refuses the chip. A refused chip is ignored until its next power-on. -/
def helloEffect (l : LinkId) (h : Greeting) (cl : Nat) (digest : BitVec 128) (service : Nat) (s : State) : State :=
  let addr := h.addr.toNat
  let s := s.modLink l fun p => { p with peer := if p.peer = 0 then addr else p.peer }
  if hedgeRole s = 2 then
    if addr / 256 = hedgeAddr s / 256 ∧ addr ≠ hedgeAddr s then
      let body := leBytes 2 addr ++ leBytes 2 cl ++ leBytes 16 digest.toNat ++ leBytes 1 service
      sendTo (sendTo s 0 tyHello 0xFF body) 0 tyHello 0xFF (helloBytes s)
    else s
  else if hedgeRole s ≠ 3 then s
  else
    let s := if h.powered then judgeAnew s addr else s
    match s.member addr with
    | some m =>
      if m.st = 5 ∨ m.ignored ∨ (m.st = 4 ∧ oNat s 0x2800 0x09 = 0) then s
      else
        let r := helloReason s addr cl digest service
        if r ≠ 0 then refuseChip s l addr r else admitChip s addr
    | none => refuseChip s l addr (helloReason s addr cl digest service)

def execHelloFlit (l : LinkId) (h : Greeting) (cl : Nat) (digest : BitVec 128) (service : Nat) (s : State) : Out :=
  .next (helloEffect l h cl digest service s)

/-- EXCLUDE and ADMIT are accepted only by the top root, and only for admitted or lost addresses (R622). -/
def memberOrderOk (s : State) (addr : Nat) : Bool :=
  hedgeRole s == 3 && (s.member addr).any fun m => m.st == 2 || m.st == 3 || m.st == 4

def excludeApply (addr : Nat) (s : State) : State := loseMember s addr 4

def admitApply (addr : Nat) (s : State) : State :=
  if (s.member addr).any fun m => m.st == 4 then admitChip s addr else s

/-! ## The side of a member (R606, R608, R610-R612) -/

/-- ADMIT_FLIT: the chip is a member under its tag; an admission seed replaces its world and contexts. It applies the broadcast entries
from now on, or, where a seed is to follow, from the seed on (R606). The take reads that its engines have pending ask the top root. -/
def admitFlitEffect (a : Admission) (seed : Option Bytes) (s : State) : State :=
  if hedgeRole s = 0 ∨ hedgeRole s = 3 then s
  else
    let asked := !isMember s
    let s := { s with hedge := { s.hedge with
      admitted := true, myTag := a.tag.toNat, applies := seed.isSome || !a.waits, dealtHere := [], dealtWait := [], heads := [] } }
    let s := match seed.bind seedOf with
      | none => s
      | some sd =>
        let s := sd.ctxs.foldl restoreCtx s
        let s := setObj (restoreWorld s sd) 0x2700 0x01 (leBytes 1 sd.strict)
        { s with power := { s.power with inForce := sd.step } }
    drivePins (if asked then (allEng.filter (takes s)).foldl sendTake s else s)

def execAdmitFlit (a : Admission) (seed : Option Bytes) (s : State) : Out := .next (admitFlitEffect a seed s)

/-- Where a member keeps an image that it receives: behind the images of its image area (log 77). -/
def imagePlace (s : State) : Nat :=
  s.images.toList.foldl (fun a e => if e.st = 0 then a else max a ((e.offset + e.length + 4095) / 4096 * 4096)) s.boot.cfg.imageBase

/-- IMAGE_FLIT: an image received is checked and registered under the same handle; one of the same handle is replaced. -/
def imageFlitEffect (handle kind : Nat) (data : Bytes) (s : State) : State :=
  if !isMember s then s
  else
    let s := imgUnregisterApply handle s
    let off := imagePlace s
    let s := { s with psram := if psramOk s off data.length then memWrite s.psram off data else s.psram }
    let i? := freeEntry s
    let s := registerImage s handle kind off data.length
    match i? with
    | some i => imageCheckEffect i s
    | none => s

def execImageFlit (handle kind : Nat) (data : Bytes) (s : State) : Out := .next (imageFlitEffect handle kind data s)

/-- The entry that a flit carries (R426). -/
def entryOf (bs : Bytes) : RecEntry :=
  let n := u bs 8 4
  { tick := u bs 0 6, ty := u bs 6 1, src := u bs 7 1, payload := slice bs 16 n, size := bs.length
    crcOk := u bs 12 4 == crc32 (slice bs 0 12 ++ slice bs 16 n) }

/-- The nominal period of a member's ticks: of its pacing context, or 1,000 µs (R82). -/
def tickPeriod (s : State) : Nat :=
  match s.pacing with
  | some c => cNat s c 0x04
  | none => 1000

/-- The ticks up to that of an entry (R610, R612; log 52). -/
def memberTicks : Nat → State → State
  | 0, s => s
  | n + 1, s => memberTicks n (stepAndTick s (tickPeriod s) [])

/-- The oldest operations of the loader carried out (R156, R160). -/
def workLoader : Nat → State → State
  | 0, s => s
  | n + 1, s =>
    workLoader n (auditCompleteEffect (deltaValidationEffect (loadCompleteEffect (loaderStartEffect s))))

/-- Where a member finds the image that a recorded switch makes active: in the load that has just become READY, else in a partition
that holds it. -/
def switchPart (before after : Roadmap) (h : Nat) : Option Nat :=
  let holds := fun (p : Nat) => (after.parts[p]?.getD default).st == 2 && (after.parts[p]?.getD default).handle == h
  (before.ready.toList ++ [1 - after.activePart, after.activePart]).find? holds

/-- A recorded switch (R154, R157): a member that has not finished the load waits for it, so that its loader's queue is carried out
first; where it knows of no load, it makes one (R160; log 76). -/
def memberSwitch (s : State) (c : CtxId) (h : Nat) : State :=
  let ready := fun (s : State) =>
    let s := if loadQueued s c h then workLoader s.loader.length s else s
    let t := s.modRm c Roadmap.settle
    (t, switchPart (s.ctx c).rm (t.ctx c).rm h)
  let (s, p) := ready s
  let (s, p) := match p with
    | some p => (s, some p)
    | none => ready { s with loader := s.loader ++ [{ op := .load c (loadPart s c) h true, begun := false }] }
  match p with
  | some p => activate (dropQueued s c h) c p (s.ctx c).frameNo
  | none => s

/-- A ROADMAP entry applied: switch, delta, preload or audit (R427, R435). A preload is a load of the member's own loader, which makes the
checks of R167 (R160). -/
def memberRoadmap (s : State) (c : CtxId) (op : Nat) (what : Bytes) : State :=
  let h := u what 0 4
  if op = 1 then memberSwitch s c h
  else if op = 2 then copyDelta s c what
  else if op = 3 then { s with loader := s.loader ++ [{ op := .load c (1 - (s.ctx c).rm.activePart) h false, begun := false }] }
  else if op = 4 then auditApply c s
  else s

/-- The selection that the top root makes when a context's tool, LIBRARY or PAYLOAD_ID changes, or when a load of the selected image has
failed (R152): it asks the member's loader for the same loads. What becomes active comes as a recorded switch. -/
def memberSelect (s : State) (c : CtxId) : State :=
  selectImage (s.modRm c fun r => { r.settle with reselect := false }) c (s.ctx c).frameNo fun _ => false

/-- A TAG entry applied: the slot's record, and the mounted tool of the contexts whose tool slot it is (R651). -/
def memberTag (s : State) (k : Nat) (raw : Bytes) : State :=
  let t := if raw.isEmpty then none else some (parseTag raw)
  let s := if h : k < 32 then changeSlot s ⟨k, h⟩ fun x => { x with st := if raw.isEmpty then 0 else 2, rec_ := t, raw := raw } else s
  allCtx.foldl (fun s c => if s.toolSlot c = some k then memberSelect (s.modCtx c fun x => { x with tool := t }) c else s) s

/-- The items of an OD_APPLY entry applied on a member: the live values are in force at once. -/
def memberItems (s : State) (payload : Bytes) : State :=
  let items := odItems payload.length (payload.drop 6)
  let s := items.foldl (fun s (i, sub, v) =>
    let s := replayItem s (i, sub, v)
    { s with force := if (objDef i sub).any fun d => d.acc == .rwf then amPut s.force (objKey i sub) v else s.force }) s
  allCtx.foldl (fun s c =>
    if items.any fun x => x.1 == 0x2201 + c.val && (x.2.1 == 0x06 || x.2.1 == 0x07) then memberSelect s c else s) s

/-- A context runs on a member from its first FRAME entry on (log 76): its banks are ENGINE's, and the loads of its code and data begin
(R342, R351, R612). -/
def memberFrame (s : State) (c : CtxId) (frame : Nat) : State :=
  let s := if (s.ctx c).rm.reselect then memberSelect s c else s
  if (s.ctx c).st = .running then s.modCtx c fun x => { x with frameNo := frame }
  else giveBanks (s.modCtx c fun x => { x with st := .running, frameNo := frame, loading := loadEngines s })

/-- An entry that the top root records before the publication of its own tick: a throttle step, and the live world objects (R89, R423). -/
def beforePublication (e : RecEntry) : Bool :=
  e.ty == 0x0C || (e.ty == 0x07 && e.src == 0xFF &&
    (odItems e.payload.length (e.payload.drop 6)).any fun x => x.1 == 0x2100 && (objDef x.1 x.2.1).any fun d => d.acc == .rwf)

/-- ENTRY_FLIT: a member brings its ticks up to the entry's, or to the one before it, and applies the entry as a replaying part does
(R435, R610). One that joins, or that is lost, applies none (R606, R621). -/
def entryFlitEffect (x : EntryIn) (s : State) : State :=
  if !isMember s then s
  else if x.lost then { s with hedge := { s.hedge with applies := false } }
  else if !s.hedge.applies then s
  else
    let e := entryOf x.entry
    let s := memberTicks (e.tick - (if beforePublication e then 1 else 0) - s.world.tick) s
    let s := { s with hedge := { s.hedge with heads := s.hedge.heads ++ x.entry.take 16 } }
    if e.ty = 0x07 then memberItems s e.payload
    else if e.ty = 0x09 then memberTag s e.src (e.payload.drop 6)
    else if e.ty = 0x0A then memberRoadmap s (Fin.ofNat 16 e.src) (u e.payload 6 1) (e.payload.drop 7)
    else if e.ty = 0x0B then memberFrame s (Fin.ofNat 16 e.src) (u e.payload 4 6)
    else applyEntry s e

def execEntryFlit (e : EntryIn) (s : State) : Out := .next (entryFlitEffect e s)

/-! ## Reports and dealt tiles (R611-R616) -/

/-- A flit of a member that is joining or IN, under its tag: flits with an old tag are discarded (R620). -/
def current (s : State) (m : MemberRef) : Bool :=
  (s.member m.addr.toNat).any fun x => (x.st == 2 || x.st == 3) && x.tag == m.tag.toNat

/-- A root hears a chip. -/
def heardFrom (s : State) (addr : Nat) : State :=
  let now := s.now
  s.modMember addr fun m => if m.st = 2 ∨ m.st = 3 then { m with heard := now } else m

/-- REPORT_FLIT: the top root compares epoch and digest of the tick with its own, from the first tick on whose entries the member has
applied all. -/
def reportEffect (m : MemberRef) (tick : Nat) (epoch : Word) (digest : BitVec 128) (s : State) : State :=
  let addr := m.addr.toNat
  if hedgeRole s ≠ 3 ∨ !current s m then s
  else
    let s := heardFrom s addr
    match if (s.member addr).any fun x => decide (x.joined < tick) then s.hedge.digests.find? fun x => x.1 == tick else none with
    | some (_, e, d) => if e = epoch ∧ d = leBytes 16 digest.toNat then s else loseMember s addr 3
    | none => s

def execReportFlit (m : MemberRef) (tick : Nat) (epoch : Word) (digest : BitVec 128) (s : State) : Out :=
  .next (reportEffect m tick epoch digest s)

/-- TAKE_FLIT: a unit root sends it on in the order of arrival, the top root keeps it until it deals a tile to it. -/
def takeFlitEffect (m : MemberRef) (e : EngId) (s : State) : State :=
  let addr := m.addr.toNat
  if !current s m then s
  else if hedgeRole s = 2 then
    if addr / 256 = hedgeAddr s / 256 then sendTo (heardFrom s addr) 0 tyTake 0xFF (leBytes 2 addr ++ leBytes 1 e.val) else s
  else if hedgeRole s ≠ 3 then s
  else
    let s := heardFrom s addr
    if (s.member addr).any (fun m => m.st == 3) ∧ !(s.hedge.takes.any fun x => x.1 == addr && x.2.1 == e) then
      { s with hedge := { s.hedge with takes := s.hedge.takes ++ [(addr, e, s.now)] } }
    else s

def execTakeFlit (m : MemberRef) (engine : EngId) (s : State) : Out := .next (takeFlitEffect m engine s)

/-- TILE_FLIT: a tile dealt to this chip runs on the engine that asked, once the load of its context has completed there (R612). -/
def tileFlitEffect (d : DealtTile) (c : CtxId) (station seq : Nat) (n : EngId) (s : State) : State :=
  if !isMember s then s
  else
    let t : Tile := { (default : Tile) with ctx := c.val, station := station, seq := seq, status := .ready }
    let s := { s with hedge := { s.hedge with dealtWait := s.hedge.dealtWait ++ [(d, n, t)] } }
    if takes s n ∧ nextFor s n = some (.dealt d t) then giveTile s n (.dealt d t) else s

def execTileFlit (d : DealtTile) (c : CtxId) (station seq : Nat) (n : EngId) (s : State) : Out :=
  .next (tileFlitEffect d c station seq n s)

/-- RESULT_FLIT: the last one of a dealt tile commits it; one that carries an old tag is discarded (R615, R620). -/
def resultFlitEffect (addr tag handle : Nat) (last : Bool) (d : TileDefect) (s : State) : State :=
  if hedgeRole s ≠ 3 ∨ !((s.member addr).any fun m => m.st == 3 && m.tag == tag) then s
  else
    let s := heardFrom s addr
    match s.tile handle with
    | none => s
    | some t => match t.status with
      | .dealt a e =>
        if a ≠ addr ∨ !last then s else if t.discard then s.dropTile handle else commitTile s t addr e d
      | _ => s

def execResultFlit (addr : BitVec 16) (tag : BitVec 4) (handle : Nat) (last : Bool) (d : TileDefect) (s : State) : Out :=
  .next (resultFlitEffect addr.toNat tag.toNat handle last d s)

/-! ## Heartbeats, faults, losses (R600, R619-R621) -/

/-- HEARTBEAT_FLIT. -/
def heartbeatFlitEffect (m : MemberRef) (s : State) : State := if current s m then heardFrom s m.addr.toNat else s

def execHeartbeatFlit (m : MemberRef) (s : State) : Out := .next (heartbeatFlitEffect m s)

/-- The fields of a record's 32 bytes (R515). -/
def faultOf (b : Bytes) : FaultRec :=
  { frame := u b 0 6, ctx := u b 6 1, domain := u b 7 1, fcode := u b 8 2, engA := u b 10 1, engB := u b 11 1, chip := u b 12 2
    gen := u b 14 1, action := u b 15 1, stamp := u b 16 8, detail := u b 24 4, seq := u b 28 4 }

/-- FAULT_FLIT: the top root places the record in its log with CHIP set to the sender. MEMBER_LOST from a unit root reports a loss
(R619): it is the loss of that member here, and its one record is the top root's own, with its first-hop port (R600). SEQ counts
the records of the log (log 78). A port of the sender that has left UP breaks the routes through it (R619, cause 2). -/
def faultFlitEffect (m : MemberRef) (bytes : Bytes) (s : State) : State :=
  let addr := m.addr.toNat
  if hedgeRole s ≠ 3 ∨ !current s m then s
  else
    let s := heardFrom s addr
    let r := faultOf bytes
    if r.fcode = 0x0505 ∧ addr ≠ 0 ∧ addr % 256 = 0 then loseMember s (r.detail % 2 ^ 16) (fld r.detail 16 4)
    else
      let s := putRecord s { r with chip := addr, seq := (s.faults.nextSeq + 1) % 2 ^ 32 }
      match portLost r.fcode r.domain with
      | some l => loseRoutes s addr l
      | none => s

def execFaultFlit (m : MemberRef) (record : Bytes) (s : State) : Out := .next (faultFlitEffect m record s)

/-- HEARTBEAT_SEND: a member that has sent nothing for 10 µs. -/
def heartbeatSendEffect (s : State) : State :=
  if isMember s && decide (s.hedge.lastTx + us 10 ≤ s.now) then sendTo s 0 tyHeartbeat 0xFF (leBytes 2 (hedgeAddr s)) else s

def execHeartbeatSend (s : State) : Out := .next (heartbeatSendEffect s)

/-- MEMBER_TIMEOUT: a root has heard nothing of a member for MEMBER_TIMEOUT. -/
def memberTimeoutEffect (addr : Nat) (s : State) : State :=
  if (s.member addr).any fun m => (m.st == 2 || m.st == 3) && decide (m.heard + us (oNat s 0x2800 0x0A) ≤ s.now) then
    loseMember s addr 1
  else s

def execMemberTimeout (addr : BitVec 16) (s : State) : Out := .next (memberTimeoutEffect addr.toNat s)

end Sys2Proof.Machine
end

