-- ==== Sys2Proof/Machine/ObjValues.lean ====
section
/-! DEFINITION. What every object reads as (R15, R552, R557, R562, R563, R574, R586, R587, R629, R715 and the object tables). -/

namespace Sys2Proof.Machine

/-- A number in n bytes. -/
def n1 (v : Nat) : Bytes := leBytes 1 v
def n2 (v : Nat) : Bytes := leBytes 2 v
def n4 (v : Nat) : Bytes := leBytes 4 v
def n6 (v : Nat) : Bytes := leBytes 6 v
def i1 (v : Int) : Bytes := leBytes 1 (code 8 v)

def bit1 (b : Bool) : Nat := if b then 1 else 0

/-! ## Standard objects (R587) -/

/-- Bit 0 of the error register: a context is SAFE or the part is in the part safe state. -/
def errorRegister (s : State) : Nat := bit1 ((allCtx.any fun c => (s.ctx c).sstate == .safe) || s.saf.causes != 0)

/-- 0x1000-0x1018. -/
def stdValue (s : State) (index sub : Nat) : Bytes :=
  match index with
  | 0x1001 => n1 (errorRegister s)
  | 0x1003 => if sub = 0 then n1 s.errField.length else n4 ((s.errField[sub - 1]?.getD 0).toNat)
  | 0x1008 => ascii "BND1600"
  | 0x1009 => ascii "A"
  | 0x100A => Config.versionText s.boot.fwVersion
  | 0x1018 => match sub with
    | 1 => n4 0x0A7D
    | 2 => n4 0x1600
    | 3 => n4 (Config.stepping * 2 ^ 16 + Config.clMax)
    | _ => n4 Config.serial.toNat
  | _ => n4 0

/-! ## Context objects (R219, R244, R279, R325, R563, R715) -/

/-- CTX_STATE. -/
def ctxStateNat : CtxState → Nat
  | .idle => 0
  | .starting => 1
  | .running => 2
  | .draining => 3

/-- Twelve REAL32. -/
def reals12 (l : List Word) : Bytes := padTo 48 (l.flatMap fun w => n4 w.toNat)

/-- MODE_IN_FORCE (R215). -/
def modeInForce (s : State) (c : CtxId) : Nat := bit1 (oNat s 0x2700 0x01 == 0 && cNat s c 0x2A == 1)

/-- The objects that take their values from the planning image; 0 before one is named (R715). -/
def planValue (p : Option PlanImage) (sub : Nat) : Bytes :=
  let g := fun (f : PlanImage → Nat) => (p.map f).getD 0
  let r := fun (f : PlanImage → List Word) => reals12 ((p.map f).getD [])
  match sub with
  | 0x2D => n1 (g (·.waves))
  | 0x2E => n2 (g (·.nodesPerWave))
  | 0x2F => n4 (g (·.candMax))
  | 0x49 => n4 (g fun x => x.net.h1 + x.net.h2 * 2 ^ 8 + x.net.h3 * 2 ^ 16)
  | 0x61 => n1 (g (·.iterPlan))
  | 0x62 => n4 (g (·.hStep))
  | 0x63 => n2 (g (·.mMax))
  | 0x64 => r (·.vmax)
  | 0x65 => r (·.amax)
  | 0x66 => r (·.jmax)
  | 0x67 => r (·.corridor)
  | 0x85 => n1 (g (·.vSub))
  | 0x86 => n2 (g (·.vPad))
  | _ => n4 (g (·.retryTime))

/-- Read-only objects of 0x2000 + c. -/
def ctxValue (s : State) (c : CtxId) (sub : Nat) : Bytes :=
  let x := s.ctx c
  let k := x.cnt
  match sub with
  | 0x02 => n1 (ctxStateNat x.st)
  | 0x0A => n6 x.frameNo
  | 0x0B => padTo 4096 x.result
  | 0x0F => n4 k.syncMiss
  | 0x10 => n4 k.jointDrop
  | 0x30 => n1 (modeInForce s c)
  | 0x31 => n4 k.candLast
  | 0x32 => n4 k.narrowLast
  | 0x33 => n4 k.passLast
  | 0x34 => n1 k.warmLast
  | 0x35 => n4 k.pqEvict
  | 0x36 => n4 k.capHit
  | 0x37 => n4 k.xchkMismatch
  | 0x38 => n2 k.searchStatus
  | 0x4A => n4 k.scoredLast
  | 0x4B => n2 k.selCountLast
  | 0x4C => n4 k.tieCount
  | 0x4D => n4 k.nanCount
  | 0x4E => n4 k.scoreMismatch
  | 0x4F => n4 k.dupEdge
  | 0x50 => n2 k.selectStatus
  | 0x71 => n4 k.fallbackCount
  | 0x72 => n4 k.pivotFixCount
  | 0x73 => padTo 32 k.smoothLast
  | 0x8B => n4 k.verifyFail
  | 0x8C => n4 k.worldChanged
  | 0x8D => n4 k.disagree
  | 0x8E => n4 k.late
  | 0x8F => n4 k.noPath
  | _ => planValue x.plan sub

/-! ## World, roadmap and safety objects (R98, R171, R504) -/

/-- The latest publication that is complete. -/
def latestPub (s : State) : Option Pub := (s.world.pubs.filter fun p => p.wait.isNone).getLast?

/-- Read-only objects of 0x2100. -/
def worldValue (s : State) (sub : Nat) : Bytes :=
  let w := s.world
  match sub with
  | 0x16 => n4 (if w.started then w.period else 1000)
  | 0x20 => n4 ((latestPub s).elim 0 fun p => p.epoch.toNat)
  | 0x21 => n4 (poolFree w)
  | 0x22 => n4 w.coarsenCount
  | 0x23 => n4 w.allocFail
  | 0x24 => n4 w.fcStaleCount
  | _ => n4 w.updReject

/-- Objects of 0x2200. -/
def tableValue (s : State) (sub : Nat) : Bytes :=
  match sub with
  | 1 => n4 262144
  | 2 => n4 65536
  | _ => n1 s.loader.length

/-- Read-only objects of 0x2201 + c. -/
def rmValue (s : State) (c : CtxId) (sub : Nat) : Bytes :=
  let r := (s.ctx c).rm
  let other := r.parts[1 - r.activePart]?.getD default
  let cur := if r.active then r.cur else RmPart.empty
  match sub with
  | 0x09 => n1 r.rmState
  | 0x0A => n4 cur.handle
  | 0x0B => n1 r.activePart
  | 0x0C => n4 cur.nCount
  | 0x0D => n4 cur.eCount
  | 0x0E => padTo 16 cur.chain
  | 0x0F => n1 other.st
  | 0x10 => n4 (if other.st = 0 then 0 else other.handle)
  | 0x11 => n4 r.loadStatus
  | 0x12 => n4 r.deltaApplied
  | 0x13 => n4 r.deltaRefused
  | 0x16 => padTo 16 r.content
  | _ => n4 r.tableFaults

/-- TILE_MAX: the largest TILE_MAX_CTX of the running contexts (R467). -/
def tileMaxPart (s : State) : Nat :=
  allCtx.foldl (fun m c => if (s.ctx c).active then max m (tileMaxCtx s c) else m) 0

/-- Read-only objects of 0x2300. -/
def partValue (s : State) (sub : Nat) : Bytes :=
  match sub with
  | 0x01 => n1 (bit1 s.permit + 2 * bit1 (s.saf.causes != 0))
  | 0x02 => n4 (pcause s)
  | 0x06 => n4 (stepS s)
  | 0x07 => n4 (20 * stepS s)
  | 0x08 => n4 (tileMaxPart s)
  | 0x09 => n4 s.saf.gfPass
  | 0x0A => n4 s.saf.gfFail
  | 0x0B => n2 s.saf.startFail.toNat
  | 0x0C => n2 s.saf.runFail.toNat
  | _ => n4 (testAge s)

def sstateNat : SState → Nat
  | .stopped => 0
  | .arming => 1
  | .operate => 2
  | .safe => 3

/-- Read-only objects of 0x2301 + c. -/
def safValue (s : State) (c : CtxId) (sub : Nat) : Bytes :=
  let x := s.ctx c
  match sub with
  | 0x02 => n1 (sstateNat x.sstate)
  | 0x03 => n1 x.cause.toNat
  | 0x06 => n4 x.cnt.safeCount
  | _ => n4 (tileMaxCtx s c)

/-! ## Diagnostics, boot, power (R3, R544, R549, R653, R683) -/

def faultLogBytes (s : State) : Bytes :=
  s.faults.ring.toList.flatMap fun r => match r with
    | some r => r.bytes
    | none => zeros 32

/-- Read-only objects of 0x2400. -/
def diagValue (s : State) (sub : Nat) : Bytes :=
  match sub with
  | 0x01 => n2 s.boot.cl
  | 0x10 => faultLogBytes s
  | 0x11 => n4 s.faults.nextSeq
  | 0x15 => n1 s.dump.st
  | 0x16 => padTo 1024 s.dump.summary
  | 0x17 => padTo 31744 s.dump.ret
  | 0x19 => wearBytes s.wear
  | _ => n1 (lifePct s)

/-- Read-only objects of 0x2500. -/
def bootValue (s : State) (sub : Nat) : Bytes :=
  let b := s.boot
  match sub with
  | 0x01 => n1 b.st
  | 0x02 => n1 b.lifecycle
  | 0x03 => n4 b.cfgVersion
  | 0x04 => padTo 16 b.cfgDigest
  | 0x05 => padTo 16 b.fwDigest
  | 0x06 => padTo 16 b.deviceId
  | 0x07 => padTo 128 b.cert
  | 0x09 => n1 b.attest
  | 0x0A => padTo 1024 b.attestReport
  | 0x12 => imgTableBytes s
  | 0x20 => slotTableBytes s
  | 0x21 => n1 b.cfg.tagPollMs
  | 0x22 => n4 s.modules.readFail
  | 0x23 => n4 s.modules.tagInvalid
  | 0x24 => n4 s.modules.toolChanges
  | _ => slotRecordBytes s (Fin.ofNat 32 (sub - 0x40))

/-- Read-only objects of 0x2600. -/
def powerValue (s : State) (sub : Nat) : Bytes :=
  let p := s.power
  match sub with
  | 0x01 => n2 p.vset
  | 0x02 => n2 p.vread
  | 0x03 => n2 p.iread
  | 0x04 => n4 p.pcore
  | 0x05 => i1 p.tjMax
  | 0x06 => padTo 3 (p.tjDie.flatMap i1)
  | 0x0C => p.chSize.toList.flatMap n1
  | 0x10 => n4 p.pmbusFail
  | _ => n4 p.dozeCount

/-! ## Record and replay, hedge (R443, R622) -/

/-- REC_OLDEST: the oldest tick whose entries the ring holds whole. -/
def recOldest (s : State) : Nat :=
  ((s.recorder.ents.find? fun e => decide (s.recorder.evicted ≤ e.tick) && decide (e.tick < s.world.tick)).map (·.tick)).getD 0

/-- Read-only objects of 0x2700. -/
def recValue (s : State) (sub : Nat) : Bytes :=
  let r := s.recorder
  match sub with
  | 0x08 => n1 r.st
  | 0x09 => n4 r.head
  | 0x0A => n6 (recOldest s)
  | 0x0B => n6 r.seedTick
  | 0x0C => n4 r.seedAbandon
  | 0x0D => n4 r.gaps
  | 0x14 => n1 r.replay
  | 0x15 => n6 r.replayTick
  | 0x16 => n4 r.mismatch
  | 0x17 => n4 r.expected
  | 0x18 => padTo 7 r.firstMismatch
  | _ => n1 s.power.inForce

def linkStateNat : LinkState → Nat
  | .down => 0
  | .training => 1
  | .up => 2
  | .sparing => 3
  | .failed => 4

/-- MEMBER_STATE: one byte an address. -/
def memberStates (s : State) : Bytes :=
  (List.range 65536).map fun a => BitVec.ofNat 8 (((s.member a).map (·.st)).getD 0)

/-- Read-only objects of 0x2800. -/
def hedgeValue (s : State) (sub : Nat) : Bytes :=
  match sub with
  | 0x01 => n2 (hedgeAddr s)
  | 0x02 => n1 (hedgeRole s)
  | 0x03 => n1 s.boot.cfg.hedge.levels
  | 0x04 => n4 (1 + s.boot.cfg.hedge.expected.length)
  | 0x05 => n4 (chipsIn s)
  | 0x06 => memberStates s
  | 0x07 => n4 s.hedge.lostCount
  | 0x08 => n4 s.hedge.refusedLast
  | _ => n4 ((List.finRange 6).foldl (fun a l => a + linkStateNat (s.link l).st * 2 ^ (4 * l.val)) 0)

/-! ## Reading an object (R557, R562, R574, R629) -/

/-- The value of a read-only object. -/
def roValue (s : State) (index sub : Nat) : Bytes :=
  match objCtx index with
  | (some c, 0x2000) => ctxValue s c sub
  | (some c, 0x2201) => rmValue s c sub
  | (some c, _) => safValue s c sub
  | (none, i) => match i with
    | 0x2100 => worldValue s sub
    | 0x2200 => tableValue s sub
    | 0x2300 => partValue s sub
    | 0x2400 => diagValue s sub
    | 0x2500 => bootValue s sub
    | 0x2600 => powerValue s sub
    | 0x2700 => recValue s sub
    | 0x2800 => hedgeValue s sub
    | _ => stdValue s index sub

/-- The value that a writable object reads as: what was written last, but for DEADLINE (R711), AUDIT (R170) and RTC (R683). -/
def rwValue (s : State) (index sub : Nat) : Bytes :=
  match objCtx index, sub with
  | (some c, 0x2000), 0x80 => n4 (deadlineUs s c)
  | (some c, 0x2201), 0x15 => n1 (bit1 (s.ctx c).rm.auditing)
  | (none, 0x2600), 0x0D => n6 s.clk.rtc
  | _, _ => shadowVal s index sub

/-- The communication objects (R574): 0x1005-0x1029 and 0x1200-0x1BFF, but for the standard objects among them, and for 0x1010 and
0x1011, which do not exist (R587). -/
def commIndex (index : Nat) : Bool :=
  ((decide (0x1005 ≤ index) && decide (index ≤ 0x1029)) || (decide (0x1200 ≤ index) && decide (index ≤ 0x1BFF))) &&
    !indexExists index && index != 0x1010 && index != 0x1011

/-- A customer object (R552). -/
def customIndex (index : Nat) : Bool := decide (0x3000 ≤ index) && decide (index ≤ 0x5FFF)

/-- The communication objects that an access through a port's interface shows: CN1's through CN1, else CN0's. -/
def commOf (s : State) (p : Port) : List (Nat × Nat × Bytes) :=
  ((s.boot.cfg.can[if s.ifOf p = 3 then 1 else 0]?).map (·.comm)).getD []

/-- A read judged: the abort code, or 0 and the value. -/
def objRead (s : State) (p : Port) (index sub : Nat) : Answer :=
  let no := fun (a : Nat) => ({ index := index, sub := sub, abort := BitVec.ofNat 32 a, data := [] } : Answer)
  let yes := fun (b : Bytes) => ({ index := index, sub := sub, abort := 0, data := b } : Answer)
  if !s.serves then no 0x08000023
  else if commIndex index then
    let l := commOf s p
    if !(l.any fun e => e.1 == index) then no 0x06020000
    else match l.find? fun e => e.1 == index && e.2.1 == sub with
      | some e => yes e.2.2
      | none => no 0x06090011
  else if !indexExists index then no 0x06020000
  else match objDef index sub with
    | none => no 0x06090011
    | some d => match d.acc with
      | .wo => no 0x06010001
      | .ro => yes (roValue s index sub)
      | _ => yes (rwValue s index sub)

end Sys2Proof.Machine
end

