-- ==== Sys2Proof/Machine/Objects.lean ====
section
/-! DEFINITION. Accesses to the object dictionary: the checks of a write, what an accepted write does, SEM, customer objects, and
the commands that are writes of one object (R14-R17, R89, R99, R105, R134, R178, R279, R298, R427, R434, R443, R549, R552-R566,
R608, R622, R629, R642, R643, R711, R715). -/

namespace Sys2Proof.Machine

/-! ## Ranges that one object decides (the Range columns; R244, R279) -/

/-- A REAL32 that is finite and within bounds. -/
def realIn (lo hi v : Nat) : Bool := f32fin v && fle fp32 (num lo) (num v) && fle fp32 (num v) (num hi)

/-- A value in the range that its object's row states. -/
def rngOk (r : Rng) (b : Bytes) : Bool :=
  let v := leNat b
  match r with
  | .any => true
  | .nat lo hi => within lo hi v
  | .int lo hi => let i := sext (8 * b.length) v; decide (lo ≤ i) && decide (i ≤ hi)
  | .real lo hi => realIn lo hi v
  | .reals none => (words b 0 (b.length / 4)).all fun w => f32fin w.toNat
  | .reals (some (lo, hi)) => (words b 0 (b.length / 4)).all fun w => realIn lo hi w.toNat

/-! ## Ranges that depend on other objects -/

/-- The world objects stand together (R98, R99): region boxes lie within the crown cells of the workspace box, the dynamic
box, of at least one cell on each axis, within the workspace box itself (log 103). -/
def worldFits (s : State) : Bool :=
  let g := geomOf s
  let face := fun (lo : Int) (n : Nat) => decide (-102 ≤ lo) && decide (lo + n ≤ 102)
  let i8 := fun (sub : Nat) => sext 8 (oNat s 0x2100 sub)
  let d := g.dynN
  let lo := unpack3 g.dynLo
  let dyn := fun (n m : Int) (top : Int) (size : Nat) =>
    decide (0 < n) && decide (n % 8 = 0) && decide (n ≤ top) && decide (8 * m + n ≤ 2 * size)
  face g.boxLoX g.sizeX && face g.boxLoY g.sizeY && face g.boxLoZ g.sizeZ && (g.l1Size == 0 || regionInBox g g.l1Lo g.l1Size) &&
    (g.l0Size == 0 || regionInBox g g.l0Lo g.l0Size) && dyn d.x lo.x 256 g.sizeX && dyn d.y lo.y 256 g.sizeY &&
    dyn d.z lo.z 64 g.sizeZ && decide (i8 0x0F < i8 0x11) && decide (i8 0x11 ≤ i8 0x10) && decide (i8 0x0F ≤ i8 0x12) &&
    decide (i8 0x12 < i8 0x11) && decide (oNat s 0x2100 0x1A ≤ oNat s 0x2100 0x19)

/-- The partitions of all contexts lie in the tables and apart from each other (R134). -/
def partitionsFit (s : State) : Bool :=
  let span := fun (c : CtxId) (base size : Nat) =>
    let i := 0x2201 + c.val
    (oNat s i base, oNat s i size * (1 + oNat s i 0x05))
  let apart := fun (a b : Nat × Nat) => a.2 == 0 || b.2 == 0 || decide (a.1 + a.2 ≤ b.1) || decide (b.1 + b.2 ≤ a.1)
  let fine := fun (base size top : Nat) => allCtx.all fun c =>
    let a := span c base size
    decide (a.1 + a.2 ≤ top) && allCtx.all fun d => d == c || apart a (span d base size)
  fine 0x01 0x02 65536 && fine 0x03 0x04 262144

/-- The sum of PQ_QUOTA over all contexts (R178). -/
def quotaFits (s : State) : Bool := decide ((allCtx.map fun c => oNat s (0x2000 + c.val) 0x2C).sum ≤ 131072)

/-- An area of PSRAM: offset and size; none of size 0. -/
def recAreas (s : State) : List (Nat × Nat) :=
  [(recBase s, recSize s), (oNat s 0x2700 0x05, 2 * oNat s 0x2700 0x06)].filter fun a => a.2 != 0

def areasApart (a b : Nat × Nat) : Bool := decide (a.1 + a.2 ≤ b.1) || decide (b.1 + b.2 ≤ a.1)

/-- The record ring and the seed slots lie in populated PSRAM and apart (R443). -/
def recordingFits (s : State) : Bool :=
  let l := recAreas s
  (l.all fun a => psramOk s a.1 a.2) && match l with
    | [a, b] => areasApart a b
    | _ => true

/-- The dump area lies in populated PSRAM and apart from the ring and the seed slots (R549). -/
def dumpFits (s : State) : Bool :=
  let a := (oNat s 0x2400 0x12, oNat s 0x2400 0x13)
  a.2 == 0 || (psramOk s a.1 a.2 && (recAreas s).all (areasApart a))

/-- A handle that PLAN_IMAGE, FC_IMAGE and PRELOAD may name: 0, or a VALID one (R642). -/
def handleOk (s : State) (h : Nat) : Bool := h == 0 || s.images.toList.any fun e => e.st == 2 && e.handle == h

/-- DEADLINE: 50 µs to PERIOD − 20 µs, with room for the planned frame and two retries (R298, R325, R711). -/
def deadlineOk (s : State) (c : CtxId) (v : Nat) : Bool :=
  decide (50 ≤ v) && decide (v + 20 ≤ cNat s c 0x04) && match (s.ctx c).plan with
    | some plan => decide (plan.plannedUs + plan.retryTime ≤ v)
    | none => true

/-- With FRAME_SRC = 1, PERIOD × 400 is a multiple of SYNC_DIV (R565). -/
def syncFits (t : State) (c : CtxId) : Bool :=
  cNat t c 0x05 != 1 || decide (cNat t c 0x04 * 400 % cNat t c 0x07 = 0)

/-- A context object in a range that another object decides (R178, R279, R325, R563, R565, R642). -/
def ctxRangeOk (s : State) (c : CtxId) (sub v : Nat) (t : State) : Bool :=
  match sub with
  | 0x03 => handleOk s v
  | 0x04 => syncFits t c
  | 0x05 => syncFits t c
  | 0x06 => decide (v < cNat s c 0x04)
  | 0x07 => decide (250 * v ≤ cNat s c 0x04) && syncFits t c
  | 0x08 => decide (v * (2 * cNat s c 0x07) < cNat s c 0x04)
  | 0x0C => decide (v < 32) || v == 255
  | 0x2C => quotaFits t
  | 0x40 => within 1 1024 v
  | 0x60 => within 1 (((s.ctx c).plan.map (·.iterPlan)).getD 0) v
  | 0x80 => deadlineOk s c v
  | 0x82 => decide (v ≤ deadlineUs s c)
  | _ => true

/-- A value in a range that other objects decide. `t` is the state with the value in place. DESIGN CHOICE (log 107): a camera record
is judged when it is written, so a later write of the workspace box may leave its cover box partly outside. -/
def relOk (s : State) (index sub : Nat) (b : Bytes) : Bool :=
  let v := leNat b
  let t := setObj s index sub b
  match objCtx index with
  | (some c, 0x2000) => ctxRangeOk s c sub v t
  | (some _, 0x2201) =>
    if sub = 0x08 then handleOk s v else if sub ≤ 0x05 then partitionsFit t else true
  | (none, 0x2100) => if sub = 0x1F then handleOk s v else worldFits t
  | (none, 0x2101) => camOk (geomOf s) (sub - 1) b
  | (none, 0x2400) =>
    if sub = 0x12 then v % 4096 == 0 && dumpFits t
    else if sub = 0x13 then (v == 0 || within 65536 4194304 v) && dumpFits t
    else true
  | (none, 0x2500) => if sub = 0x11 then imgUnregisterRefused s v != some 0x06090030 else true
  | (none, 0x2700) => match sub with
    | 0x03 => v % 4096 == 0 && recordingFits t && dumpFits t
    | 0x04 => v % 2 ^ 20 == 0 && within (2 ^ 20) (2 ^ 29) v && recordingFits t && dumpFits t
    | 0x05 => v % 4096 == 0 && recordingFits t && dumpFits t
    | 0x06 => v % 2 ^ 20 == 0 && recordingFits t && dumpFits t
    | 0x07 => v == 0 || within 100 1000000 v
    | _ => true
  | (none, 0x2800) => if sub = 0x0B ∨ sub = 0x0C then memberOrderOk s v else true
  | _ => true

/-! ## The checks of a write, in the order of R562 -/

/-- A frozen object whose owning block runs (R17, R89, R103, R561). In replay the record and replay objects stay writable
(R434). -/
def frozenNow (s : State) (d : ObjDef) (index sub : Nat) : Bool :=
  match d.own with
  | .none => false
  | .ctx => ((objCtx index).1.map fun c => (s.ctx c).active).getD false
  | .anyCtx => s.anyRuns && !(index == 0x2700 && s.replaying)
  | .stream => (s.fus.streams[sub - 1]?.getD default).en
  | .fuse => s.fus.run

/-- A planning object: in replay, no port traffic is applied to one (R434; log 73). -/
def planningIndex (index : Nat) : Bool := decide (0x2000 ≤ index) && decide (index ≤ 0x23FF)

/-- A write that a replay turns away. A demand of 0x2300 or 0x2301 is no planning and stands. -/
def notInReplay (w : ObjWrite) : Bool :=
  planningIndex w.index && ((stopOrder w).isNone || (objCtx w.index).2 == 0x2000)

/-- The abort code of a write that the part's state refuses (R162, R434, R440, R442, R457, R458, R506, R534, R537, R564, R639,
R643, R672). -/
def stateRefuses (s : State) (w : ObjWrite) : Option Nat :=
  let v := leNat w.data
  if s.replaying && notInReplay w then some 0x08000022
  else match objCtx w.index, w.sub with
    | (some c, 0x2000), 0x01 => if v = 1 ∧ (s.ctx c).st = .draining then some 0x08000022 else none
    | (some c, 0x2201), 0x14 => if (s.ctx c).rm.rmState = 2 ∨ 4 ≤ deltasDue s c then some 0x08000022 else none
    | (some c, 0x2301), 0x05 => if v = 1 ∧ (safeClear s c).isNone then some 0x08000022 else none
    | (none, 0x2300), 0x04 => if v = 1 ∧ (partClear s).isNone then some 0x08000022 else none
    | (none, 0x2400), 0x14 => if v = 1 then dumpReqRefused s else none
    | (none, 0x2400), 0x18 => if s.anyRuns then some 0x08000022 else none
    | (none, 0x2500), 0x08 => attestRefused s
    | (none, 0x2500), 0x11 => if imgUnregisterRefused s v = some 0x08000022 then some 0x08000022 else none
    | (none, 0x2600), 0x0F => if v = 1 then offRefused s else none
    | (none, 0x2700), 0x10 => if v = 2 ∨ v = 3 ∨ v = 4 then replayOnly s else if v = 1 then replayStartRefused s else none
    | _, _ => none

/-- A write of the object data judged: 0 where it is accepted, else the abort code of the first failing check. -/
def writeAbort (s : State) (p : Port) (w : ObjWrite) : Nat :=
  if !s.serves then 0x08000023
  else if isMember s then 0x08000022
  else if commIndex w.index then
    let l := commOf s p
    if !(l.any fun e => e.1 == w.index) then 0x06020000
    else if !(l.any fun e => e.1 == w.index && e.2.1 == w.sub) then 0x06090011
    else 0x06010002
  else if !indexExists w.index then 0x06020000
  else match objDef w.index w.sub with
    | none => 0x06090011
    | some d =>
      if d.acc = .ro then 0x06010002
      else if d.len.any fun n => n != w.data.length then 0x06070010
      else if frozenNow s d w.index w.sub then 0x08000022
      else match stateRefuses s w with
        | some a => a
        | none =>
          if !rngOk d.rng w.data || !relOk s w.index w.sub w.data then 0x06090030
          else match objCtx w.index with
            | (some c, 0x2000) =>
              if w.sub = 0x01 ∧ leNat w.data = 1 then (ctxStartRefused s c).getD 0 else 0
            | _ => 0

/-! ## What an accepted write does (R556) -/

/-- REC_MODE: recording begins with an empty ring and no complete seed (log 119), or ends (R430, R443). -/
def recModeWritten (s : State) (v : Nat) : State :=
  if s.replaying then s
  else if v = 0 then { s with recorder := { s.recorder with st := 0 } }
  else { s with recorder := { s.recorder with st := 1, head := 0, ents := [], lost := 0, evicted := 0, seedTick := 0, due := none } }

/-- What follows from the new value of an object that holds one. -/
def afterWrite (s : State) (w : ObjWrite) : State :=
  let v := leNat w.data
  match objCtx w.index, w.sub with
  | (some c, 0x2000), 0x03 => planWritten s c v
  | (some c, 0x2201), 0x06 => s.modRm c fun r => { r with forgiven := r.forgiven ++ [(s.now, r.failed)] }
  | (some c, 0x2201), 0x08 => s.modRm c fun r => { r with preload := r.preload ++ [(v, s.now)] }
  | (none, 0x2101), sub =>
    if h : sub - 1 < 16 then s.modStream ⟨sub - 1, h⟩ fun x => { x with rec_ := some (parseCam w.data) } else s
  | (none, 0x2300), 0x05 => { s with saf := { s.saf with pulseEn := v == 1 } }
  | (none, 0x2600), 0x0D => { s with clk := { s.clk with rtc := v, rtcPhase := 0 } }
  | (none, 0x2700), 0x02 => recModeWritten s v
  | _, _ => s

/-- The OD_APPLY entry of a frozen write (R427): the value written, and with PLAN_IMAGE that of SMOOTH_ITER, which the image sets
(R715). -/
def recordWrite (s : State) (w : ObjWrite) : State :=
  let (src, more) := match objCtx w.index with
    | (some c, 0x2000) => (c.val, if w.sub = 0x03 then [(w.index, 0x60, shadowVal s w.index 0x60)] else [])
    | (some c, _) => (c.val, [])
    | (none, _) => (0xFF, [])
  record s s.world.tick 0x07 src (odApplyBytes (faultFrame s src) ((w.index, w.sub, w.data) :: more))

/-- A write of an object that holds a value: a live one to its shadow, any other to its value (R14-R17, R556). -/
def storeWrite (s : State) (d : ObjDef) (w : ObjWrite) : State :=
  let s := if d.acc = .rwf then writeObj s w.index w.sub w.data else setObj s w.index w.sub w.data
  let s := afterWrite s w
  if d.acc = .rw ∧ d.own ≠ .none then recordWrite s w else s

/-- The effect of a REPLAY_CMD value (R434, R440, R443). -/
def replayCmd (s : State) (v : Nat) : State :=
  if v = 1 then replayStartApply s
  else if v = 2 then replayPauseApply (stopWins none s)
  else if v = 3 then replaySaveApply s
  else if v = 4 then replayResumeApply s
  else replayStopApply (stopWins none s)

/-- The effect of a write that holds no value, or `none` where the object holds one. A SAF clear that the same edge refuses
leaves the state. -/
def actionOf (s : State) (p : Port) (w : ObjWrite) : Option State :=
  let v := leNat w.data
  match objCtx w.index, w.sub with
  | (some c, 0x2000), 0x01 => some (if v = 1 then ctxStartApply c s else ctxStopApply c (stopWins (some c) s))
  | (some c, 0x2201), 0x14 => some (deltaInApply c w.data s).1
  | (some c, 0x2201), 0x15 => some (auditApply c s)
  | (some c, 0x2301), 0x04 => some (hostDemand c s)
  | (some c, 0x2301), 0x05 => some ((safeClear s c).getD s)
  | (none, 0x2300), 0x03 => some (hostPart s)
  | (none, 0x2300), 0x04 => some ((partClear s).getD s)
  | (none, 0x2400), 0x14 => some (dumpReqApply s)
  | (none, 0x2400), 0x18 => some (domainResetApply v s)
  | (none, 0x2500), 0x08 => some (attestApply w.data s)
  | (none, 0x2500), 0x10 => some (imgRegisterApply w.data s)
  | (none, 0x2500), 0x11 => some (imgUnregisterApply v s)
  | (none, 0x2600), 0x0F => some (offApply s)
  | (none, 0x2700), 0x0E => some (markApply p v s)
  | (none, 0x2700), 0x10 => some (replayCmd s v)
  | (none, 0x2800), 0x0B => some (excludeApply v s)
  | (none, 0x2800), 0x0C => some (admitApply v s)
  | _, _ => none

/-- An accepted write takes effect. -/
def applyWrite (s : State) (p : Port) (w : ObjWrite) : State :=
  match actionOf s p w with
  | some t => t
  | none => match objDef w.index w.sub with
    | some d => storeWrite s d w
    | none => s

/-- SEM_LAST: the last completed write, and its port or 3 for a stop order (R590). -/
def noteLast (s : State) (w : ObjWrite) (port : Nat) : State :=
  { s with sem := { s.sem with lastIndex := w.index, lastSub := w.sub, lastPort := port } }

def portNat : Port → Nat
  | .a => 1
  | .b => 2

/-! ## Customer objects (R552) -/

/-- The host cluster cannot answer: it is held in reset, or runs no kernel. -/
def hostHeld (s : State) : Bool := !s.boot.hostUp || s.inReset domHost

/-- An access forwarded to the customer's server; the port then waits for its answer. A write is complete once it is on its way, and
SEM_LAST shows it (R590). `lost`: a reset of the I/O cluster has lost the answer (R560). -/
def customForward (s : State) (p : Port) (index sub : Nat) (write : Option Bytes) (lost : Bool) : State :=
  let no := fun (a : Nat) =>
    if lost then s else answerAt s p write.isNone { index := index, sub := sub, abort := BitVec.ofNat 32 a, data := [] }
  if !s.serves then no 0x08000023
  else if write.isSome && isMember s then no 0x08000022
  else if hostHeld s then no 0x08000021
  else
    let s := match write with
      | some d => noteLast s { index := index, sub := sub, data := d } (portNat p)
      | none => s
    let q : CustReq := { index := index, sub := sub, write := write, at_ := s.now, posted := false, lost := lost }
    postCustom (s.modPort p fun x => { x with cust := some q })

/-- The access that a port waits for is answered. -/
def answerCustom (s : State) (p : Port) (q : CustReq) (abort : Word) (data : Bytes) : State :=
  let s := s.modPort p fun x => { x with cust := none }
  if q.lost then s
  else answerAt s p q.write.isNone { index := q.index, sub := q.sub, abort := abort, data := if q.write.isNone then data else [] }

/-- The server can answer no more: 10 ms have passed, or the host cluster is held in reset (R552). -/
def customLate (s : State) (q : CustReq) : Bool := decide (q.at_ + us 10000 ≤ s.now) || hostHeld s

/-- The server's answer to the access that a port waits for, once mailbox 31 has carried it. -/
def customAnswer (s : State) (p : Port) (reply : Word × Bytes) : State :=
  match (s.port p).cust with
  | none => s
  | some q =>
    if customLate s q then answerCustom s p q 0x08000021 []
    else if q.posted then answerCustom s p q reply.1 reply.2
    else s

/-- CUSTOMER_OBJECT_ACCESS: an access of a port forwarded, or the server's answer to the access that the port waits for
(`reply`; log 79). -/
def customAccessEffect (p : Port) (index sub : Nat) (write : Option Bytes) (reply : Option (Word × Bytes)) (s : State) : State :=
  if !customIndex index then s
  else
    let waits := (s.port p).cust.any fun q => q.index == index && q.sub == sub && q.write == write
    let s := if waits then s else customForward s p index sub write false
    match reply with
    | some r => customAnswer s p r
    | none => s

def execCustomerObjectAccess (p : Port) (index sub : Nat) (write : Option Bytes) (reply : Option (Word × Bytes)) (s : State) :
    Out := .next (customAccessEffect p index sub write reply s)

/-- CUSTOMER_SERVER_TIMEOUT: no answer within 10 ms, or the host cluster went into reset. -/
def customTimeoutEffect (p : Port) (s : State) : State :=
  match (s.port p).cust with
  | none => s
  | some q => if customLate s q then answerCustom s p q 0x08000021 [] else s

def execCustomerServerTimeout (p : Port) (s : State) : Out := .next (customTimeoutEffect p s)

/-! ## Completing a write (R556-R559) -/

/-- A write completes: checked, applied, answered. A customer object's answer comes from its server. -/
def completeWrite (s : State) (p : Port) (w : ObjWrite) (lost : Bool) : State :=
  if customIndex w.index then customForward (forget s p w) p w.index w.sub (some w.data) (lost || (s.port p).ended.contains w)
  else
    let a := writeAbort s p w
    let s := if a = 0 then noteLast (applyWrite s p w) w (portNat p) else s
    if lost then s else answerWrite s p w a

/-- A stop order: it takes no SEM and is never refused for a conflict (R558). -/
def stopWrite (s : State) (p : Port) (w : ObjWrite) : State :=
  let a := writeAbort s p w
  answerWrite (if a = 0 then noteLast (applyWrite s p w) w 3 else s) p w a

/-- A write complete at a port of a part that does not serve objects yet is answered at once (R629). -/
def askWrite (s : State) (p : Port) (w : ObjWrite) : State :=
  if !s.serves then answerWrite s p w 0x08000023
  else if (stopOrder w).isSome then stopWrite s p w
  else askOne s p w

/-- OBJECT_WRITE: the writes that become complete at the ports at one edge. -/
def objectWriteEffect (a b : Option ObjWrite) (s : State) : State :=
  match a, b with
  | none, none => s
  | some w, none => askWrite s .a w
  | none, some w => askWrite s .b w
  | some x, some y =>
    if s.serves && (stopOrder x).isNone && (stopOrder y).isNone then askBoth s x y
    else
      -- stop orders take effect before a write of the same edge asks
      let first := fun (s : State) (p : Port) (w : ObjWrite) => if (stopOrder w).isSome then askWrite s p w else s
      let then_ := fun (s : State) (p : Port) (w : ObjWrite) => if (stopOrder w).isSome then s else askWrite s p w
      -- a run order complete at the edge of a stop order that defeats it is refused (R559)
      let beaten := fun (p : Port) (x w : ObjWrite) => match stopOrder x with
        | some t => beats t w && writeAbort s p x == 0
        | none => false
      let lose := fun (s : State) (p : Port) (w : ObjWrite) =>
        answerWrite { s with sem := { s.sem with stopWins := satAdd 65535 s.sem.stopWins 1 } } p w 0x08000022
      let loseA := beaten .b y x
      let loseB := beaten .a x y
      let s := first (first s .a x) .b y
      let s := if loseA then lose s .a x else then_ s .a x
      if loseB then lose s .b y else then_ s .b y

def execObjectWrite (a b : Option ObjWrite) (s : State) : Out := .next (objectWriteEffect a b s)

/-- SEM_GRANT: SEM is free and the oldest waiting write takes it. -/
def semGrantEffect (s : State) : State := semNext s

def execSemGrant (s : State) : Out := .next (semGrantEffect s)

/-- OBJECT_WRITE_COMPLETE: the write that holds SEM completes, and SEM is released, to the oldest that waits (R554, R556). -/
def writeCompleteEffect (s : State) : State :=
  match s.sem.holder with
  | none => s
  | some (p, w) =>
    let lost := s.sem.lost
    semNext (completeWrite { s with sem := { s.sem with holder := none, lost := false } } p w lost)

def execObjectWriteComplete (s : State) : Out := .next (writeCompleteEffect s)

/-- A read by a port: answered at once, without SEM; one of a customer object is forwarded (R552, R557). -/
def readEffect (p : Port) (index sub : Nat) (s : State) : State :=
  if customIndex index then customForward s p index sub none false else answerAt s p true (objRead s p index sub)

def execObjectRead (p : Port) (index sub : Nat) (s : State) : Out := .next (readEffect p index sub s)

/-! ## The commands that are writes of one object

Each stands for the write from its completion at the port to its answer. A stop order takes effect at once. Any other write
takes SEM where that is free or held by this very write, and completes; where another write holds SEM, it waits (log 80). -/

def ownWrite (p : Port) (index sub : Nat) (data : Bytes) (s : State) : State :=
  let w : ObjWrite := { index := index, sub := sub, data := data }
  if !s.serves ∨ (stopOrder w).isSome then askWrite s p w
  else match (semNext s).sem.holder with
    | none => completeWrite s p w false
    | some h => if h = (p, w) then writeCompleteEffect (semNext s) else askOne s p w

def execDeltaIn (p : Port) (c : CtxId) (data : Bytes) (s : State) : Out := .next (ownWrite p (0x2201 + c.val) 0x14 data s)
def execAudit (p : Port) (c : CtxId) (v : Byte) (s : State) : Out := .next (ownWrite p (0x2201 + c.val) 0x15 [v] s)
def execMark (p : Port) (v : Word) (s : State) : Out := .next (ownWrite p 0x2700 0x0E (n4 v.toNat) s)
def execReplayStart (p : Port) (s : State) : Out := .next (ownWrite p 0x2700 0x10 [1] s)
def execReplayPause (p : Port) (s : State) : Out := .next (ownWrite p 0x2700 0x10 [2] s)
def execReplaySave (p : Port) (s : State) : Out := .next (ownWrite p 0x2700 0x10 [3] s)
def execReplayResume (p : Port) (s : State) : Out := .next (ownWrite p 0x2700 0x10 [4] s)
def execReplayStop (p : Port) (s : State) : Out := .next (ownWrite p 0x2700 0x10 [5] s)
def execSafeReq (p : Port) (c : CtxId) (s : State) : Out := .next (ownWrite p (0x2301 + c.val) 0x04 [1] s)
def execPartReq (p : Port) (s : State) : Out := .next (ownWrite p 0x2300 0x03 [1] s)
def execSafeClear (p : Port) (c : CtxId) (s : State) : Out := .next (ownWrite p (0x2301 + c.val) 0x05 [1] s)
def execPartClear (p : Port) (s : State) : Out := .next (ownWrite p 0x2300 0x04 [1] s)
def execDomainReset (p : Port) (d : Byte) (s : State) : Out := .next (ownWrite p 0x2400 0x18 [d] s)
def execCtxCtrlStart (p : Port) (c : CtxId) (s : State) : Out := .next (ownWrite p (0x2000 + c.val) 0x01 [1] s)
def execCtxCtrlStop (p : Port) (c : CtxId) (s : State) : Out := .next (ownWrite p (0x2000 + c.val) 0x01 [2] s)
def execDumpReq (p : Port) (s : State) : Out := .next (ownWrite p 0x2400 0x14 [1] s)
def execAttestNonce (p : Port) (nonce : Bytes) (s : State) : Out := .next (ownWrite p 0x2500 0x08 nonce s)
def execImgRegister (p : Port) (data : Bytes) (s : State) : Out := .next (ownWrite p 0x2500 0x10 data s)
def execImgUnregister (p : Port) (handle : Word) (s : State) : Out := .next (ownWrite p 0x2500 0x11 (n4 handle.toNat) s)
def execExclude (p : Port) (addr : BitVec 16) (s : State) : Out := .next (ownWrite p 0x2800 0x0B (n2 addr.toNat) s)
def execAdmitOrder (p : Port) (addr : BitVec 16) (s : State) : Out := .next (ownWrite p 0x2800 0x0C (n2 addr.toNat) s)
def execOffReq (p : Port) (s : State) : Out := .next (ownWrite p 0x2600 0x0F [1] s)

end Sys2Proof.Machine
end

