-- ==== Sys2Proof/Machine/Sdio.lean ====
section
/-! DEFINITION. The SDIO interfaces: the object window (R568, R569), the card commands (R567, R698) and the channels of
function 2 (R570, R630). -/

namespace Sys2Proof.Machine

/-- The interface answers: it is enabled and its cluster is not in reset. -/
def State.sdOn (s : State) (i : SdIf) : Bool := (s.sd i).en && !s.inReset domIo

/-- What a command did, with the command noted for diagnosis where the interface answers (R427; log 43). -/
def sdHeard (i : SdIf) (cmd arg : Nat) (s t : State) : State := if s.sdOn i then noteSdio t (sdIdx i) cmd arg else t

/-- The same for an access to a register or a channel of the part: CMD53, with an argument that the command does not give. -/
def sdAccess (i : SdIf) (s t : State) : State := sdHeard i 53 (Config.sdioArg (sdIdx i) s.now) s t

/-! ## The object window (R551, R569) -/

/-- OD_CMD = 1: the object named by OD_INDEX and OD_SUB is read. Ignored while a request is BUSY. -/
def odReadEffect (i : SdIf) (s : State) : State :=
  match s.portOf (sdIdx i) with
  | none => s
  | some p =>
    let x := s.sd i
    if !s.sdOn i || x.odStatus == 1 then s
    else readEffect p x.odIndex x.odSub (s.modSd i fun x => { x with odStatus := 1, fifo := [] })

def execOdCmdRead (i : SdIf) (s : State) : Out := .next (sdAccess i s (odReadEffect i s))

/-- OD_CMD = 2: the bytes in OD_FIFO are written; a count that differs from OD_LEN ends the request. -/
def odWriteEffect (i : SdIf) (s : State) : State :=
  match s.portOf (sdIdx i) with
  | none => s
  | some p =>
    let x := s.sd i
    if !s.sdOn i || x.odStatus == 1 then s
    else
      let w : ObjWrite := { index := x.odIndex, sub := x.odSub, data := x.fifo }
      let s := s.modSd i fun x => { x with odStatus := 1 }
      if x.fifo.length ≠ x.odLen then answerWrite s p w 0x06070010 else askWrite s p w

def execOdCmdWrite (i : SdIf) (s : State) : Out := .next (sdAccess i s (odWriteEffect i s))

/-- OD_CMD = 3: a request that has not asked for SEM ends. Writes ask at once, so that it is a read that waits for the customer's
server. -/
def odCancelEffect (i : SdIf) (s : State) : State :=
  match s.portOf (sdIdx i) with
  | none => s
  | some p =>
    if !s.sdOn i || (s.sd i).odStatus != 1 then s
    else match (s.port p).cust with
      | some q =>
        if q.write.isSome then s
        else
          let s := s.modPort p fun x => { x with cust := none }
          answerAt s p true { index := q.index, sub := q.sub, abort := 0x05040000, data := [] }
      | none => s

def execOdCmdCancel (i : SdIf) (s : State) : Out := .next (sdAccess i s (odCancelEffect i s))

/-! ## The card commands (R567, R591, R698; log 81) -/

/-- A command to a card that is on the bus and not inactive. -/
def cardCmd (i : SdIf) (s : State) (f : Sd → Sd) (reply : Sd → Nat) : State :=
  let x := s.sd i
  if !s.sdOn i || x.card == .inactive then s else (s.modSd i f).reply (.ok (reply x))

/-- A bus mode that MAX_MODE offers; none where it does not (R591). -/
def Sd.offered (x : Sd) (m : Nat) : Nat := if m ≤ x.maxMode then m else 0

/-- The bus mode after CMD0 (R591): SPI where CS is low at 3.3 V, and then until power-on; else default speed, or SDR12 at 1.8 V. -/
def Sd.resetMode (x : Sd) (csLow : Bool) : Nat := x.offered (if x.v18 then 4 else if csLow || x.mode == 1 then 1 else 2)

/-- The registers of function 0 at their reset values: no function enabled, no interrupt, no block size (R567; log 82). -/
def Sd.ioReset (x : Sd) : Sd := { x with ioEn := 0, intEn := 0, busCtl := 0, blk := default }

/-- CMD0: the card interface is reset. -/
def cmd0Effect (i : SdIf) (csLow : Bool) (s : State) : State :=
  cardCmd i s (fun x => { x.ioReset with card := .idle, rca := 0, mode := x.resetMode csLow }) fun _ => 0

def execCmd0 (r : SdReset) (s : State) : Out := .next (sdHeard r.port 0 0 s (cmd0Effect r.port r.csLow s))

/-- The bus mode that bits 3:1 of the Bus Speed Select register ask for: the UHS-I modes at 1.8 V, default or high speed at 3.3 V. -/
def Sd.askedMode (x : Sd) (b : Nat) : Nat := if x.v18 then 4 + b else if b < 2 then 2 + b else 9

/-- A write of the Bus Speed Select register of function 0: the mode asked for, where the interface is not in SPI and MAX_MODE
offers it (R567, R591; logs 81, 82). -/
def busSpeedSelect (i : SdIf) (v : Word) (s : State) : State :=
  s.modSd i fun x =>
    let m := x.askedMode (fld v.toNat 1 3)
    if 2 ≤ x.mode ∧ m ≤ min x.maxMode 8 then { x with mode := m } else x

/-- The Bus Speed Select register as it is read: bit 0 says that high speed is offered, bits 3:1 give the mode. -/
def busSpeedView (x : Sd) : Nat :=
  (if 3 ≤ x.maxMode then 1 else 0) + 2 * (if 4 ≤ x.mode then x.mode - 4 else if x.mode = 3 then 1 else 0)

/-- CMD3: a relative card address, which is a free value, and the standby state. -/
def cmd3Effect (i : SdIf) (s : State) : State :=
  let x := s.sd i
  if !s.sdOn i || !(x.card == .ready || x.card == .standby) then s
  else
    let (v, s) := s.free 16
    (s.modSd i fun x => { x with card := .standby, rca := v }).reply (.ok v.toNat)

def execCmd3 (i : SdIf) (s : State) : Out := .next (sdHeard i 3 0 s (cmd3Effect i s))

/-- The answer to CMD5: ready, the number of functions, and whether 1.8 V is accepted. -/
def cmd5Reply (v18 : Bool) (x : Sd) : Nat :=
  2 ^ 31 + (if x.f2En then 2 else 1) * 2 ^ 28 + (if v18 && x.v18En then 2 ^ 24 else 0)

/-- CMD5: the card is ready. On an SD bus that MAX_MODE does not offer there is no answer. -/
def cmd5Effect (i : SdIf) (v18 : Bool) (s : State) : State :=
  if (s.sd i).mode = 0 ∧ (s.sd i).maxMode < 2 then s
  else cardCmd i s (fun x => { x with
    card := if x.card = .idle then .ready else x.card
    mode := if x.mode = 0 then 2 else x.mode }) (cmd5Reply v18)

def execCmd5 (i : SdIf) (v18 : Bool) (s : State) : Out := .next (sdHeard i 5 (bit v18 * 2 ^ 24) s (cmd5Effect i v18 s))

/-- CMD7: the addressed card is selected, another is deselected. -/
def cmd7Effect (i : SdIf) (rca : BitVec 16) (s : State) : State :=
  cardCmd i s (fun x => { x with
    card := if x.card = .standby ∧ rca = x.rca ∧ rca ≠ 0 then .command
      else if x.card = .command ∧ rca ≠ x.rca then .standby else x.card }) fun _ => 0

def execCmd7 (i : SdIf) (rca : BitVec 16) (s : State) : Out := .next (sdHeard i 7 (rca.toNat * 65536) s (cmd7Effect i rca s))

/-- CMD11: 1.8 V signalling, where V18_EN accepts it and a UHS-I mode is offered. -/
def cmd11Effect (i : SdIf) (s : State) : State :=
  let x := s.sd i
  if !s.sdOn i || x.card != .ready || !x.v18En || decide (x.maxMode < 4) then s
  else (s.modSd i fun x => { x with v18 := true, mode := 4 }).reply (.ok 0)

def execCmd11 (i : SdIf) (s : State) : Out := .next (sdHeard i 11 0 s (cmd11Effect i s))

/-- CMD15: the addressed card is inactive until power-on. -/
def cmd15Effect (i : SdIf) (rca : BitVec 16) (s : State) : State :=
  cardCmd i s (fun x =>
    { x with card := if (x.card = .standby ∨ x.card = .command) ∧ rca = x.rca then .inactive else x.card }) fun _ => 0

def execCmd15 (i : SdIf) (rca : BitVec 16) (s : State) : Out := .next (sdHeard i 15 (rca.toNat * 65536) s (cmd15Effect i rca s))

/-- The 64-byte tuning block of the SD Physical Layer for four data lines. -/
def tuningBlock : Bytes :=
  [0xFF, 0x0F, 0xFF, 0x00, 0xFF, 0xCC, 0xC3, 0xCC, 0xC3, 0x3C, 0xCC, 0xFF, 0xFE, 0xFF, 0xFE, 0xEF,
   0xFF, 0xDF, 0xFF, 0xDD, 0xFF, 0xFB, 0xFF, 0xFB, 0xBF, 0xFF, 0x7F, 0xFF, 0x77, 0xF7, 0xBD, 0xEF,
   0xFF, 0xF0, 0xFF, 0xF0, 0x0F, 0xFC, 0xCC, 0x3C, 0xCC, 0x33, 0xCC, 0xCF, 0xFF, 0xEF, 0xFF, 0xEE,
   0xFF, 0xFD, 0xFF, 0xFD, 0xDF, 0xFF, 0xBF, 0xFF, 0xBB, 0xFF, 0xF7, 0xFF, 0xF7, 0x7F, 0x7B, 0xDE]

/-- CMD19: the tuning block, for a selected card at 1.8 V. -/
def cmd19Effect (i : SdIf) (s : State) : State :=
  let x := s.sd i
  if !s.sdOn i || x.card != .command || !x.v18 then s else s.reply (.bytes tuningBlock)

def execCmd19 (i : SdIf) (s : State) : Out := .next (sdHeard i 19 0 s (cmd19Effect i s))

/-! ## Function 2 (R570, R630) -/

/-- RESULT_OUT: the oldest whole record. -/
def resultOutEffect (i : SdIf) (s : State) : State :=
  if !s.f2 i then s
  else match (s.sd i).outQ with
    | [] => s.reply (.bytes [])
    | b :: rest => (s.modSd i fun x => { x with outQ := rest, out := b }).reply (.bytes b)

def execResultOut (i : SdIf) (s : State) : Out := .next (sdAccess i s (resultOutEffect i s))

/-- The MEM channel is offered: also in recovery boot. -/
def State.memOn (s : State) (i : SdIf) : Bool :=
  s.f2 i || (s.boot.phase == .on && s.boot.st == 1 && (s.sd i).en && (s.sd i).f2En)

/-- The window that MEM writes reach: the image area, or the staging window at PS0 offset 0. -/
def memWindow (s : State) : Nat × Nat :=
  if s.boot.st = 1 then (0, 2 ^ 24) else (s.boot.cfg.imageBase, s.boot.cfg.imageSize)

/-- The bytes of a MEM write that land, one by one. -/
def memLand (s : State) (lo n : Nat) : Nat → Bytes → Memory → Memory
  | _, [], m => m
  | a, b :: rest, m =>
    memLand s lo n (a + 1) rest (if lo ≤ a ∧ a < lo + n ∧ psramOk s a 1 then memPut m a b else m)

/-- MEM write at MEM_ADDR: what lies outside the window is dropped, and the write counted. -/
def memWriteEffect (i : SdIf) (data : Bytes) (s : State) : State :=
  if !s.memOn i then s
  else
    let a := (s.sd i).memAddr.toNat
    let (lo, n) := memWindow s
    let all := decide (lo ≤ a) && decide (a + data.length ≤ lo + n) && psramOk s a data.length
    let s := { s with psram := memLand s lo n a data s.psram }
    if all then s else s.modSd i fun x => { x with memDrop := satAdd 255 x.memDrop 1 }

def execMemWrite (i : SdIf) (data : Bytes) (s : State) : Out := .next (sdAccess i s (memWriteEffect i data s))

/-- MEM read at MEM_ADDR; in recovery boot from the staging window. A read that leaves populated PSRAM, or while its controller is
held in reset, ends with a bus error (R55, R507). -/
def memReadEffect (i : SdIf) (len : Nat) (s : State) : State :=
  let a := (s.sd i).memAddr.toNat
  if !s.memOn i then s
  else if s.inReset domPsram || !psramOk s a len || (s.boot.st == 1 && decide (2 ^ 24 < a + len)) then s.busErr
  else s.reply (.bytes (psramRead s a len))

def execMemRead (i : SdIf) (len : Nat) (s : State) : Out := .next (sdAccess i s (memReadEffect i len s))

end Sys2Proof.Machine
end

