-- ==== Sys2Proof/Machine/Can.lean ====
section
/-! DEFINITION. Joint samples (R572, R573) and CAN: SDO, USDO and XL transfers (R574, R577-R580), NMT, heartbeats, bus-off
(R575), module nodes (R648). -/

namespace Sys2Proof.Machine

/-! ## Joint samples -/

/-- The sample's positions are finite below AXES and 0 from AXES on. -/
def jointPosOk (axes : Nat) (pos : List Word) : Bool :=
  ((pos.take axes).all fun w => f32fin w.toNat) && (pos.drop axes).all fun w => w.toNat % 2 ^ 31 == 0

/-- The interface takes a joint sample: JOINT_IN is a channel of function 2, and an RPDO carries one as 64 B on an operational
controller of the FD or XL generation (R570, R576; log 56). -/
def jointTaken (j : JointArrival) (s : State) : Bool :=
  match j.via with
  | .jointIn i => s.f2 i && j.data.length == 56
  | .rpdo n _ => (s.can n).en && (s.can n).bus != 2 && (s.can n).nmt == 5 && (s.can n).gen != 0 && j.data.length == 64

/-- JOINT_SAMPLE: stamped and recorded, or dropped and counted. -/
def jointEffect (arrival : JointArrival) (s : State) : State :=
  if !s.serves || s.replaying || isMember s || s.inReset domIo || !jointTaken arrival s then s
  else
    let j := parseJoint arrival.data
    if h : j.ctx < 16 then
      let c : CtxId := ⟨j.ctx, h⟩
      let x := s.ctx c
      let stamp := s.now - us j.delay
      let axes := (x.plan.map (·.axes)).getD 0
      let late : Bool := match x.joints.getLast? with
        | some l => decide (stamp ≤ l.1)
        | none => false
      if x.st != .running || j.axes != axes || !jointPosOk axes j.pos || late then
        s.modCnt c fun k => { k with jointDrop := wrapInc 32 k.jointDrop }
      else
        record (addJoint s c stamp j.pos) s.world.tick 0x08 c.val (leBytes 8 stamp ++ j.pos.flatMap fun w => n4 w.toNat)
    else s

def execJointSample (j : JointArrival) (s : State) : Out := .next (jointEffect j s)

/-! ## Frames noted for diagnosis (R427; log 43) -/

/-- SRC of a controller's entries: 0 for CN0, 1 for CN1. -/
def canSrc (n : CanIf) : Nat := canIdx n - 2

/-- A request of a transfer noted: the identifier of the part's SDO server, the operation, the object, and the data. -/
def noteTransfer (n : CanIf) (gen op : Nat) (what data : Bytes) (s t : State) : State :=
  let on := (s.can n).talks && (s.can n).gen == gen && (s.can n).nmt != 0 && !s.inReset domIo && (s.portOf (canIdx n)).isSome
  canHeard on (canSrc n) (0x600 + (s.can n).nodeId) (leBytes 1 op ++ what ++ data) t

/-- The object that a transfer names. -/
def objName (index sub : Nat) : Bytes := leBytes 2 index ++ leBytes 1 sub

/-- An NMT command noted. -/
def noteNmt (n : CanIf) (cmd : Nat) (s t : State) : State :=
  canHeard ((s.can n).en && !s.inReset domIo) (canSrc n) 0 (leBytes 1 cmd ++ leBytes 1 (s.can n).nodeId) t

/-! ## Object access (R551, R574) -/

/-- The port served by a controller of the given generation, when it can take part in a transfer. -/
def canPort (s : State) (n : CanIf) (gen : Nat) : Option Port :=
  let k := s.can n
  if k.talks && k.gen == gen && k.nmt != 0 && !s.inReset domIo then s.portOf (canIdx n) else none

/-- A write complete at the port of a controller. -/
def canWrite (n : CanIf) (gen index sub : Nat) (data : Bytes) (s : State) : State :=
  match canPort s n gen with
  | some p => askWrite s p { index := index, sub := sub, data := data }
  | none => s

/-- A read asked for at the port of a controller. -/
def canRead (n : CanIf) (gen index sub : Nat) (s : State) : State :=
  match canPort s n gen with
  | some p => readEffect p index sub s
  | none => s

/-- A Classical block transfer is answered with an abort (R574). -/
def sdoBlock (n : CanIf) (index sub : Nat) (s : State) : State :=
  match canPort s n 0 with
  | some p => answerAt s p true { index := index, sub := sub, abort := 0x05040001, data := [] }
  | none => s

/-- SDO_DOWNLOAD and SDO_UPLOAD: a transfer by which the object is written, or read. -/
def sdoDownloadEffect (v : SdoVia) (index sub : Nat) (data : Bytes) (s : State) : State :=
  match v with
  | .segmented n => canWrite n 0 index sub data s
  | .block n => sdoBlock n index sub s
def sdoUploadEffect (v : SdoVia) (index sub : Nat) (s : State) : State :=
  match v with
  | .segmented n => canRead n 0 index sub s
  | .block n => sdoBlock n index sub s

/-- The controller of a transfer. -/
def sdoCtrl : SdoVia → CanIf
  | .segmented n => n
  | .block n => n

def execSdoDownload (v : SdoVia) (index sub : Nat) (data : Bytes) (s : State) : Out :=
  .next (noteTransfer (sdoCtrl v) 0 1 (objName index sub) data s (sdoDownloadEffect v index sub data s))
def execSdoUpload (v : SdoVia) (index sub : Nat) (s : State) : Out :=
  .next (noteTransfer (sdoCtrl v) 0 2 (objName index sub) [] s (sdoUploadEffect v index sub s))
def execUsdoDownload (n : CanIf) (index sub : Nat) (data : Bytes) (s : State) : Out :=
  .next (noteTransfer n 1 1 (objName index sub) data s (canWrite n 1 index sub data s))
def execUsdoUpload (n : CanIf) (index sub : Nat) (s : State) : Out :=
  .next (noteTransfer n 1 2 (objName index sub) [] s (canRead n 1 index sub s))

/-! ## XL block transfer (R577-R580) -/

/-- A frame of the part on a controller, with the INDEX and SUB of the open session; 0 where none is open (log 95). -/
def xlSay (op : Nat) (session : Byte) (seg : Nat) (code : Word) (k : Can) : Can :=
  let at_ := (k.xl.map fun x => (x.index, x.sub)).getD (0, 0)
  { k with tx := k.tx ++ [.xl session (xlBare op at_.1 at_.2 seg code)] }

/-- A protocol fault: ABORT, and the session ends. -/
def xlFault (n : CanIf) (session : Byte) (code : Word) (s : State) : State :=
  endXl n (s.modCan n fun k => xlSay 0x7F session 0 code k)

/-- A block frame that names this part: priority ID, SDT, VCID and node-ID match (R577). -/
def xlMatches (h : XlFrom) (s : State) : Bool :=
  let k := s.can h.ctrl
  h.prio == k.xlIds.reqId && h.sdt == k.xlIds.sdt && h.vcid == k.xlIds.vcid && h.node == k.nodeId

/-- The port whose master sends a block frame; none for a frame that is ignored. -/
def xlPort (h : XlFrom) (s : State) : Option Port := if xlMatches h s then canPort s h.ctrl 2 else none

/-- What a block frame does: one that is ignored, or of an unknown OP (R577, R580), or its own effect. -/
def xlTo (h : XlFrom) (session : Byte) (f : Port → State → State) (s : State) : State :=
  match xlPort h s with
  | none => s
  | some p => if h.badOp then xlFault h.ctrl session 0x05040001 s else f p s

/-- A block frame noted for diagnosis, where the part takes it. -/
def noteXl (h : XlFrom) (op : Nat) (what data : Bytes) (s t : State) : State :=
  if xlMatches h s then noteTransfer h.ctrl 2 op what data s t else t

/-- A session opens; another one ends without an answer (R580). -/
def openXl (n : CanIf) (x : XlSession) (s : State) : State := (endXl n s).modCan n fun k => { k with xl := some x }

/-- XL_READ: the session opens; the part answers with DATA segments. -/
def xlReadEffect (n : CanIf) (session : Byte) (index sub : Nat) (p : Port) (s : State) : State :=
  readEffect p index sub (openXl n { session := session, isWrite := false, index := index, sub := sub, total := 0, nextSeg := 0
                                     data := [], unacked := 0, lastAt := s.now, finished := false } s)

def execXlRead (h : XlFrom) (session : Byte) (index sub : Nat) (s : State) : Out :=
  .next (noteXl h 1 (session :: objName index sub) [] s (xlTo h session (xlReadEffect h.ctrl session index sub) s))

/-- The last segment of a write has come: CRC and length are checked, and the write is complete at the port. -/
def xlFinish (n : CanIf) (p : Port) (x : XlSession) (code : Word) (s : State) : State :=
  if code.toNat ≠ crc32 x.data then xlFault n x.session 0x05040004 s
  else if x.data.length ≠ x.total then xlFault n x.session 0x06070010 s
  else
    askWrite (s.modCan n fun k => { k with xl := some { x with finished := true } }) p
      { index := x.index, sub := x.sub, data := x.data }

/-- Data that R579 does not allow: a segment, not the last, of other than 2,032 B, a last one of more, or an object above 1 MiB
(log 95). -/
def xlTooMuch (x : XlSession) (last : Bool) (n : Nat) : Bool :=
  (if last then decide (xlSeg < n) else n != xlSeg) || decide (2 ^ 20 < x.total) || decide (2 ^ 20 < x.data.length)

/-- A segment of n bytes of a write taken: it is acknowledged, and the session goes on. -/
def xlTake (c : CanIf) (p : Port) (x : XlSession) (seg n : Nat) (last : Bool) (code : Word) (s : State) : State :=
  if xlTooMuch x last n then xlFault c x.session 0x06070010 s
  else
    let s := s.modCan c fun k => xlSay 4 x.session seg 0 { k with xl := some x }
    if last then xlFinish c p x code s else s

/-- XL_WRITE: segment 0 of a write opens the session. -/
def xlWriteEffect (n : CanIf) (session : Byte) (index sub total : Nat) (last : Bool) (code : Word) (data : Bytes) (p : Port)
    (s : State) : State :=
  let x : XlSession :=
    { session := session, isWrite := true, index := index, sub := sub, total := total, nextSeg := 1, data := data
      unacked := 0, lastAt := s.now, finished := false }
  xlTake n p x 0 data.length last code (openXl n x s)

def execXlWrite (h : XlFrom) (session : Byte) (index sub total : Nat) (last : Bool) (code : Word) (data : Bytes) (s : State) :
    Out :=
  .next (noteXl h 2 (session :: objName index sub) data s
    (xlTo h session (xlWriteEffect h.ctrl session index sub total last code data) s))

/-- XL_DATA: the next segment of the open write. -/
def xlDataEffect (n : CanIf) (session : Byte) (seg : Nat) (last : Bool) (code : Word) (data : Bytes) (p : Port) (s : State) :
    State :=
  match (s.can n).xl with
  | none => xlFault n session 0x05040001 s
  | some x =>
    if x.session ≠ session ∨ !x.isWrite ∨ x.finished then xlFault n session 0x05040001 s
    else if seg ≠ x.nextSeg then xlFault n session 0x05040003 s
    else xlTake n p { x with nextSeg := seg + 1, data := x.data ++ data, lastAt := s.now } seg data.length last code s

def execXlData (h : XlFrom) (session : Byte) (seg : Nat) (last : Bool) (code : Word) (data : Bytes) (s : State) : Out :=
  .next (noteXl h 3 (session :: leBytes 2 seg) data s (xlTo h session (xlDataEffect h.ctrl session seg last code data) s))

/-- XL_ACK: a segment of the open read is acknowledged; the next ones follow, and the session ends with the last. -/
def xlAckEffect (n : CanIf) (session : Byte) (seg : Nat) (_p : Port) (s : State) : State :=
  match (s.can n).xl with
  | none => xlFault n session 0x05040001 s
  | some x =>
    if x.session ≠ session ∨ x.isWrite ∨ x.unacked = 0 then xlFault n session 0x05040001 s
    else if seg ≠ x.nextSeg - x.unacked then xlFault n session 0x05040003 s
    else
      let now := s.now
      s.modCan n fun k =>
        let k := xlFill now 4 { k with xl := some { x with unacked := x.unacked - 1, lastAt := now } }
        { k with xl := k.xl.filter fun y => y.unacked != 0 }

def execXlAck (h : XlFrom) (session : Byte) (seg : Nat) (s : State) : Out :=
  .next (noteXl h 4 (session :: leBytes 2 seg) [] s (xlTo h session (xlAckEffect h.ctrl session seg) s))

/-- XL_ABORT: the master ends its session. -/
def xlAbortEffect (n : CanIf) (session : Byte) (_p : Port) (s : State) : State :=
  if (s.can n).xl.any fun x => x.session == session then endXl n s else s

def execXlAbort (h : XlFrom) (session : Byte) (code : Word) (s : State) : Out :=
  .next (noteXl h 0x7F (session :: leBytes 4 code.toNat) [] s (xlTo h session (xlAbortEffect h.ctrl session) s))

/-- XL_SESSION_TIMEOUT: the master owed an ACK or a segment for 100 ms. -/
def xlTimeoutEffect (n : CanIf) (s : State) : State :=
  match (s.can n).xl with
  | none => s
  | some x =>
    let owed := if x.isWrite then !x.finished else decide (0 < x.unacked)
    if owed && decide (x.lastAt + us 100000 ≤ s.now) then xlFault n x.session 0x05040000 s else s

def execXlSessionTimeout (n : CanIf) (s : State) : Out := .next (xlTimeoutEffect n s)

/-! ## NMT and heartbeat (R575) -/

/-- A change of a controller that is on the bus. -/
def canDo (n : CanIf) (f : Can → Can) (s : State) : State := if (s.can n).en && !s.inReset domIo then s.modCan n f else s

def execNmtStart (n : CanIf) (s : State) : Out := .next (noteNmt n 0x01 s (canDo n (fun k => { k with nmt := 5 }) s))
def execNmtStop (n : CanIf) (s : State) : Out := .next (noteNmt n 0x02 s (canDo n (fun k => { k with nmt := 4 }) s))
def execNmtPreOperational (n : CanIf) (s : State) : Out :=
  .next (noteNmt n 0x80 s (canDo n (fun k => { k with nmt := 0x7F }) s))

/-- The controller's communication starts again: boot-up, then pre-operational (log 56). -/
def resetComm (now : Nat) (k : Can) : Can := { k with nmt := 0x7F, lastHb := now, tx := k.tx ++ [.bootUp] }

/-- NMT_RESET_COMMUNICATION and NMT_RESET_NODE: an open XL session ends. -/
def resetCommEffect (n : CanIf) (s : State) : State :=
  if (s.can n).en && !s.inReset domIo then (endXl n s).modCan n (resetComm s.now) else s

def execNmtResetCommunication (n : CanIf) (s : State) : Out := .next (noteNmt n 0x82 s (resetCommEffect n s))
def execNmtResetNode (n : CanIf) (s : State) : Out := .next (noteNmt n 0x81 s (resetCommEffect n s))

/-- HEARTBEAT_PRODUCE: at the period of 0x1017. -/
def heartbeatEffect (n : CanIf) (s : State) : State :=
  let k := s.can n
  if k.heartbeatMs ≠ 0 ∧ k.bus ≠ 2 ∧ k.lastHb + us (1000 * k.heartbeatMs) ≤ s.now then
    let now := s.now
    canDo n (fun k => { k with tx := k.tx ++ [.heartbeat k.nmt], lastHb := now }) s
  else s

def execHeartbeatProduce (n : CanIf) (s : State) : Out := .next (heartbeatEffect n s)

/-! ## Bus-off (R575, R592) -/

/-- BUS_OFF: the controller leaves the bus; what its error counters then hold is a free value (log 5). -/
def busOffEffect (n : CanIf) (s : State) : State :=
  if !(s.can n).en || (s.can n).bus == 2 || s.inReset domIo then s
  else
    let (t, s) := s.free 8
    let (r, s) := s.free 8
    s.modCan n fun k => { k with bus := 2, busoff := satAdd 65535 k.busoff 1, tec := t.toNat, rec_ := r.toNat }

/-- Error counters that leave the controller on the bus: error-passive above 127, as ISO 11898-1 states (R592; log 125). -/
def canCountsEffect (n : CanIf) (tec rec_ : Byte) (s : State) : State :=
  if (s.can n).bus = 2 then s
  else canDo n (fun k =>
    { k with tec := tec.toNat, rec_ := rec_.toNat, bus := if 127 < tec.toNat ∨ 127 < rec_.toNat then 1 else 0 }) s

/-- BUS_OFF: where bus errors have taken the controller. -/
def busErrorsEffect (e : CanErrors) (s : State) : State :=
  match e.counts with
  | none => busOffEffect e.ctrl s
  | some (t, r) => canCountsEffect e.ctrl t r s

def execBusOff (e : CanErrors) (s : State) : Out := .next (busErrorsEffect e s)

/-- BUS_OFF_RECOVERY: error-active again with counters at 0; the EMCY frames kept go first, ahead of every other frame that is
queued (R461, R575). -/
def busBackEffect (n : CanIf) (s : State) : State :=
  if (s.can n).bus ≠ 2 then s
  else canDo n (fun k =>
    { k with bus := 0, tec := 0, rec_ := 0, tx := emcyFirst k.emcyQ k.tx, emcyQ := [] }) s

def execBusOffRecovery (n : CanIf) (s : State) : Out := .next (busBackEffect n s)

/-! ## Module nodes (R648) -/

/-- The part consumes heartbeats of module nodes on a controller. -/
def watches (s : State) (n : CanIf) : Bool := polls s && (s.can n).en

def noteNode (s : State) (n : CanIf) (node : Nat) : State :=
  let now := s.now
  s.modCan n fun k => { k with nodes := amPut k.nodes node now }

/-- A module node is gone: its slot is removed. -/
def nodeGone (s : State) (n : CanIf) (node : Nat) : State :=
  match slotOf s (canIdx n) node with
  | some k => if (s.slot k).st ≠ 0 then removeModule s k else s
  | none => s

/-- HEARTBEAT_RECEIVED: a node's first heartbeat starts a read. -/
def heartbeatInEffect (n : CanIf) (node : Nat) (s : State) : State :=
  if !watches s n then s
  else
    let first := (amGet (s.can n).nodes node).isNone
    let s := noteNode s n node
    if first then foundAt s (canIdx n) node else s

def execHeartbeatReceived (n : CanIf) (node : Nat) (s : State) : Out :=
  .next (canHeard (watches s n) (canSrc n) (0x700 + node) [Config.heartbeatState node s.now] (heartbeatInEffect n node s))

/-- BOOT_UP_MESSAGE: of a PRESENT node it counts as a removal; a new read begins. -/
def bootUpEffect (n : CanIf) (node : Nat) (s : State) : State :=
  if !watches s n then s else foundAt (nodeGone (noteNode s n node) n node) (canIdx n) node

def execBootUpMessage (n : CanIf) (node : Nat) (s : State) : Out :=
  .next (canHeard (watches s n) (canSrc n) (0x700 + node) [0] (bootUpEffect n node s))

/-- HEARTBEAT_TIMEOUT: a consumed heartbeat has not come for the timeout of the CAN section. -/
def nodeTimeoutEffect (n : CanIf) (node : Nat) (s : State) : State :=
  match amGet (s.can n).nodes node with
  | none => s
  | some t =>
    if watches s n && decide (t + us (1000 * s.boot.cfg.canTimeoutMs) ≤ s.now) then
      nodeGone (s.modCan n fun k => { k with nodes := amDel k.nodes node }) n node
    else s

def execHeartbeatTimeout (n : CanIf) (node : Nat) (s : State) : Out := .next (nodeTimeoutEffect n node s)

end Sys2Proof.Machine
end

