-- ==== Sys2Proof/Machine/Threads.lean ====
section
/-! DEFINITION. Threads, events, delay lists and ordered flows of the Task Dispatcher: CREATE to POP (R385-R397, R407,
R408, R411). -/

namespace Sys2Proof.Machine

/-- A command's outcome in the core's RESP register (R386, R407): 0 OK, 1 BAD_STATE, 2 BAD_ARG. -/
def Tds.respond (d : Tds) (c : CoreId) (code : Nat) : Tds :=
  d.modCore c fun w => { w with resp := BitVec.ofNat 2 code, respDone := true }

/-- The core that a bus master is (R386). -/
def coreOf : Master → Option CoreId
  | .host n => some ⟨n.val, by omega⟩
  | .aon => some 4
  | _ => none

/-- A command carried out for core m at the window of core c: another core's window ends with a bus error (R386). A core whose take
read is stalled issues nothing. -/
def carryOut (m c : CoreId) (s : State) (f : Tds → Nat → Tds × Nat) : State :=
  if m ≠ c then s.busErr
  else if s.tds.cores[c].stalled then s
  else
    let (d, code) := f s.edgeTds s.tds.cores[c].arg.toNat
    { s with tds := d.respond c code }.okBus

/-- Thread t is the RUNNING thread of core c. -/
def Tds.owns (d : Tds) (c : CoreId) (t : ThreadId) : Bool := d.cores[c].run == some t && d.threads[t].st == .running

/-- The thread leaves core c, which then holds none. -/
def Tds.leave (d : Tds) (c : CoreId) : Tds := d.modCore c fun w => { w with run := none }

def createTds (t : ThreadId) (d : Tds) (arg : Nat) : Tds × Nat :=
  if d.threads[t].st ≠ .dormant then (d, 1)
  else if fld arg 5 5 = 0 then (d, 2)
  else ((d.modThread t fun x => { x with prio := BitVec.ofNat 5 arg, aff := BitVec.ofNat 5 (arg / 32) }).makeReady commandKey t, 0)

def readyTds (t : ThreadId) (d : Tds) (_ : Nat) : Tds × Nat :=
  if d.threads[t].st ≠ .blocked then (d, 1) else (d.makeReady commandKey t, 0)

def blockTds (c : CoreId) (t : ThreadId) (d : Tds) (_ : Nat) : Tds × Nat :=
  if !d.owns c t then (d, 1)
  else ((d.modThread t fun x => { x with st := .blocked, event := none }).leave c, 0)

/-- An entry put into the delay list, equal wake ticks in order of insertion (R394). -/
def delayIns (w : Nat) (t : ThreadId) : List (Nat × ThreadId) → List (Nat × ThreadId)
  | [] => [(w, t)]
  | (k, x) :: q => if w < k then (w, t) :: (k, x) :: q else (k, x) :: delayIns w t q

def delayTds (c : CoreId) (t : ThreadId) (d : Tds) (arg : Nat) : Tds × Nat :=
  if !d.owns c t then (d, 1)
  else if arg = 0 then (d, 2)
  else
    let d := (d.modThread t fun x => { x with st := .delayed }).leave c
    ({ d with delayQ := delayIns (d.tick + arg) t d.delayQ }, 0)

def waitTds (c : CoreId) (t : ThreadId) (d : Tds) (arg : Nat) : Tds × Nat :=
  let e := arg % 64
  if !d.owns c t then (d, 1)
  else if d.events.toNat.testBit e then ({ d with events := d.events &&& ~~~(1#64 <<< e) }, 0)
  else ((d.modThread t fun x => { x with st := .blocked, event := some (BitVec.ofNat 6 e) }).leave c, 0)

def setprioTds (t : ThreadId) (d : Tds) (arg : Nat) : Tds × Nat :=
  if d.threads[t].st = .dormant then (d, 1)
  else
    let d' := d.modThread t fun x => { x with prio := BitVec.ofNat 5 arg }
    if d.threads[t].st = .ready then ({ d' with readyQ := d'.readyQ.filter (· != t) }.append commandKey t, 0) else (d', 0)

def exitTds (t : ThreadId) (d : Tds) (_ : Nat) : Tds × Nat :=
  let th := d.threads[t]
  if th.st = .dormant then (d, 1)
  else
    let d' := d.modThread t fun x => { x with st := .dormant, event := none }
    let d' := { d' with readyQ := d'.readyQ.filter (· != t), delayQ := d'.delayQ.filter fun e => e.2 != t }
    match allCores.find? fun c => d.cores[c].run == some t with
    | some c => let d' := d'.leave c; ({ d' with preempt := d'.preempt ||| BitVec.ofNat 5 (2 ^ c.val) }, 0)
    | none => (d', 0)

def signalTds (d : Tds) (arg : Nat) : Tds × Nat := (d.event (BitVec.ofNat 6 (48 + arg % 16)), 0)

/-- The command that an OP names (R386). -/
def opCmd (c : CoreId) (op : Nat) (t : ThreadId) : Option (Tds → Nat → Tds × Nat) :=
  match op with
  | 1 => some (createTds t)
  | 2 => some (readyTds t)
  | 3 => some (blockTds c t)
  | 4 => some (delayTds c t)
  | 5 => some (waitTds c t)
  | 6 => some (setprioTds t)
  | 7 => some (exitTds t)
  | 8 => some signalTds
  | _ => none

/-- The core command that a waiting command stands for: its core, the window, and what it does there. -/
def asCoreCmd : Instr → Option (CoreId × CoreId × (Tds → Nat → Tds × Nat))
  | .create m c t => some (m, c, createTds t)
  | .ready m c t => some (m, c, readyTds t)
  | .block m c t => some (m, c, blockTds c t)
  | .delay m c t => some (m, c, delayTds c t)
  | .wait m c t => some (m, c, waitTds c t)
  | .setprio m c t => some (m, c, setprioTds t)
  | .exit m c t => some (m, c, exitTds t)
  | .signal m c => some (m, c, signalTds)
  | .registerWrite m a (.word v) =>
    match coreOf m with
    | some k =>
      let c : CoreId := Fin.ofNat 5 ((a - 0x08000100) / 0x20)
      if 0x08000100 ≤ a ∧ a < 0x080001A0 ∧ a % 0x20 = 0xC then
        (opCmd c (fld v.toNat 8 4) (Fin.ofNat 256 (fld v.toNat 0 8))).map fun f => (k, c, f)
      else none
    | none => none
  | _ => none

/-- The core that issues a waiting access to the TDS. -/
def issuer : Instr → Option CoreId
  | .coreTake m _ _ => some m
  | .registerWrite m _ _ => coreOf m
  | i => (asCoreCmd i).map (·.1)

/-- Core k's next access waits, and is a command: it arrives at this edge (log 12) and is carried out now, ahead of its turn. -/
def carryEarly (s : State) (k : CoreId) : State :=
  if s.edgeTds.edge.early.contains k then s
  else match (s.pending.find? fun i => issuer i == some k).bind asCoreCmd with
    | some (m, c, f) =>
      let s := carryOut m c s f
      let d := s.edgeTds
      { s with tds := { d with edge := { d.edge with early := d.edge.early ++ [k] } } }
    | none => s

/-- Commands of one edge in ascending core number (R386): those of lower-numbered cores that wait come before a command of core m. -/
def lowerFirst (s : State) (m : CoreId) : State :=
  (allCores.filter fun k => decide (k < m)).foldl carryEarly s

/-- A command of core m at the window of core c, in its place among the commands of the edge (R386). -/
def coreCmd (m c : CoreId) (s : State) (f : Tds → Nat → Tds × Nat) : State :=
  let d := s.edgeTds
  if d.edge.early.contains m then
    let s := { s with tds := { d with edge := { d.edge with early := d.edge.early.filter fun k => k != m } } }
    if m = c then s.okBus else s.busErr
  else carryOut m c (lowerFirst s m) f

/-- CREATE (R386): a DORMANT thread becomes READY with a priority and a non-empty affinity. -/
def execCreate (m c : CoreId) (t : ThreadId) (s : State) : Out := .next (coreCmd m c s (createTds t))
/-- READY (R386). -/
def execReady (m c : CoreId) (t : ThreadId) (s : State) : Out := .next (coreCmd m c s (readyTds t))
/-- BLOCK (R386). -/
def execBlock (m c : CoreId) (t : ThreadId) (s : State) : Out := .next (coreCmd m c s (blockTds c t))
/-- DELAY (R386, R394). -/
def execDelay (m c : CoreId) (t : ThreadId) (s : State) : Out := .next (coreCmd m c s (delayTds c t))
/-- WAIT (R386, R392). -/
def execWait (m c : CoreId) (t : ThreadId) (s : State) : Out := .next (coreCmd m c s (waitTds c t))
/-- SETPRIO (R386). -/
def execSetprio (m c : CoreId) (t : ThreadId) (s : State) : Out := .next (coreCmd m c s (setprioTds t))
/-- EXIT (R386). -/
def execExit (m c : CoreId) (t : ThreadId) (s : State) : Out := .next (coreCmd m c s (exitTds t))
/-- SIGNAL (R386, R392). -/
def execSignal (m c : CoreId) (s : State) : Out := .next (coreCmd m c s signalTds)

/-- The thread that a take read of core c returns: first of the highest priority whose affinity includes c (R388). -/
def Tds.head (d : Tds) (c : CoreId) : Option ThreadId :=
  (d.readyQ.filter fun t => d.threads[t].aff.toNat.testBit c.val).foldl
    (fun best t => match best with
      | none => some t
      | some b => if d.threads[t].prio.toNat < d.threads[b].prio.toNat then some t else some b)
    none

/-- A take read of core c (R388): its running thread goes to the tail of its list, the head of the highest-priority list
is returned, or the read stalls, or it ends without a thread when an interrupt is pending. -/
def coreTakeTds (c : CoreId) (irq : Bool) (d : Tds) : Tds :=
  let d := match d.cores[c].run with
    | some t => (d.leave c).makeReady commandKey t
    | none => d
  match d.head c with
  | some t => { d with readyQ := d.readyQ.filter (· != t) }.give c t
  | none =>
    if irq then d.modCore c fun w => { w with take := 0, stalled := false }
    else d.modCore c fun w => { w with stalled := true }

/-- CORE_TAKE (R388). -/
def execCoreTake (m c : CoreId) (irq : Bool) (s : State) : Out :=
  .next (if m ≠ c then s.busErr
    else
      let d := coreTakeTds c irq s.edgeTds
      { s with tds := d }.reply (if d.cores[c].stalled then .stalled else .ok d.cores[c].take.toNat))

/-- A tick of the TDS: entries of the delay list whose wake tick has come become READY in list order (R394). -/
def tickTds (d : Tds) : Tds :=
  let n := d.tick + 1
  let due := (d.delayQ.filter fun e => e.1 == n).map (·.2)
  due.foldl (fun d t => d.makeReady expiryKey t) { d with tick := n, delayQ := d.delayQ.filter fun e => e.1 != n }

/-- TDS_TICK (R393): tick n falls at AOCLK edge floor(125n / 4); an earlier command changes nothing. -/
def execTdsTick (s : State) : Out :=
  .next (if 125 * (s.tds.tick + 1) / 4 ≤ s.aoclk then { s with tds := tickTds s.edgeTds } else s)

/-! ## Ordered flows -/

/-- PUSH (R395). -/
def pushFlow (v : Nat) (f : Flow) : Option Flow :=
  if f.slots.length ≥ 128 then none
  else some { slots := f.slots ++ [⟨f.next, BitVec.ofNat 24 v, .pushed⟩], next := (f.next + 1) % 128 }

def pushEffect (f : FlowId) (v : Word) (s : State) : State :=
  match pushFlow v.toNat s.tds.flows[f] with
  | none => s.busErr
  | some g => { s with tds := { s.tds with flows := vupd s.tds.flows f fun _ => g } }.okBus

def execPush (f : FlowId) (v : Word) (s : State) : Out := .next (pushEffect f v s)

/-- One slot of a flow changed. -/
def setSlot (f : Flow) (k : Nat) (st : SlotState) : Flow :=
  { f with slots := f.slots.map fun x => if x.slot = k then { x with st := st } else x }

/-- FLOW_TAKE (R396): the oldest untaken item, or VALID = 0 at once. -/
def execFlowTake (f : FlowId) (s : State) : Out :=
  let fl := s.tds.flows[f]
  .next (match fl.slots.find? fun x => x.st == .pushed with
    | none => s.reply (.ok 0)
    | some x =>
      { s with tds := { s.tds with flows := vupd s.tds.flows f fun g => setSlot g x.slot .taken } }.reply
        (.ok (x.item.toNat + x.slot * 2 ^ 24 + 2 ^ 31)))

/-- The oldest slot is done (R397). -/
def Flow.releasable (f : Flow) : Bool :=
  match f.slots with
  | ⟨_, _, .done _⟩ :: _ => true
  | _ => false

/-- DONE (R396, R397): a taken slot completes; when the oldest slot becomes releasable, event 48 + f is raised. -/
def doneEffect (f : FlowId) (v : Word) (s : State) : State :=
  let fl := s.tds.flows[f]
  let k := fld v.toNat 24 7
  match fl.slots.find? fun x => x.slot == k && x.st == .taken with
  | none => s.busErr
  | some _ =>
    let g := setSlot fl k (.done (BitVec.ofNat 24 v.toNat))
    let s := { s with tds := { s.tds with flows := vupd s.tds.flows f fun _ => g } }.okBus
    if g.releasable && !fl.releasable then s.tdsEvent (48 + f.val) else s

def execDone (f : FlowId) (v : Word) (s : State) : Out := .next (doneEffect f v s)

/-- POP (R397): the oldest releasable completion, whose slot is freed; the next slot may be releasable at once. -/
def execPop (f : FlowId) (s : State) : Out :=
  .next (match s.tds.flows[f].slots with
    | ⟨k, _, .done r⟩ :: rest =>
      let g : Flow := { s.tds.flows[f] with slots := rest }
      let s := { s with tds := { s.tds with flows := vupd s.tds.flows f fun _ => g } }.reply
        (.ok (r.toNat + k * 2 ^ 24 + 2 ^ 31))
      if g.releasable then s.tdsEvent (48 + f.val) else s
    | _ => s.reply (.ok 0))

end Sys2Proof.Machine
end

