-- ==== Sys2Proof/Machine/Registers.lean ====
section
/-! DEFINITION. REGISTER_WRITE: the memory map (R53-R55), who may write which register and when (R12, R13, R17, R37, R404,
R507 and the register tables), the words of the scratchpads and of PSRAM, and function 1 and 2 of the SDIO cards (R568,
R570, R632). -/

namespace Sys2Proof.Machine

/-! ## Fields -/

/-- A W1C field after a write (R13). -/
def w1c {n : Nat} (old : BitVec n) (v : Word) : BitVec n := old &&& ~~~(v.setWidth n)

/-- A write whose answer is a bus error where a condition holds; else it has an effect and completes. -/
def guarded (bad : Bool) (s t : State) : State := if bad then s.busErr else t.okBus

/-- A write reserved for AON. -/
def notAon (m : Master) : Bool := m != .aon

/-! ## AON, SYS and PSR registers (R54, R546-R548, R654, R680-R682) -/

/-- AON_PWR and AON_THERM: AON writes the fields that stand for power objects; a value outside an object's range is refused
(log 84). -/
def aonWrite (m : Master) (off : Nat) (v : Word) (s : State) : State :=
  let lead := fld v.toNat 16 8
  if off = 0x80 then
    guarded (notAon m || s.anyRuns || decide (lead < 10) || decide (200 < lead)) s
      (setObj (setObj (setObj s 0x2600 0x09 (leBytes 1 (fld v.toNat 0 1))) 0x2600 0x0B (leBytes 1 (fld v.toNat 1 1)))
        0x2600 0x0A (leBytes 2 lead))
  else if off = 0x90 then
    guarded (notAon m || s.anyRuns || decide (lead < 80) || decide (105 < lead)) s (setObj s 0x2600 0x07 (leBytes 1 lead))
  else s.okBus

/-- SYS_RST_REQ and SYS_FLT_HEAD (R546, R548). -/
def sysWrite (m : Master) (off : Nat) (v : Word) (s : State) : State :=
  if off = 0x204 then sysRstReqEffect m (v.setWidth 30) s
  else if off = 0x230 then
    State.okBus { s with faults := { s.faults with
      newRec := s.faults.newRec && !v.toNat.testBit 8, irqEn := v.toNat.testBit 9 } }
  else s.okBus

/-- PSR_CHc_CFG: AON only, frozen while any context runs; a value outside a field's range is refused (log 84). -/
def psrWrite (m : Master) (off : Nat) (v : Word) (s : State) : State :=
  if 0x100 ≤ off ∧ off < 0x200 ∧ off % 0x20 = 0 then
    let c : Fin 8 := Fin.ofNat 8 ((off - 0x100) / 0x20)
    let lc := fld v.toNat 1 4
    let tc := fld v.toNat 8 12
    let p := s.power
    guarded (notAon m || s.inReset domPsram || s.anyRuns || !within 3 8 lc || !within 100 800 tc) s
      { s with power := { p with
          chPop := vupd p.chPop c fun _ => v.toNat.testBit 0, chLc := vupd p.chLc c fun _ => lc
          chDrive := vupd p.chDrive c fun _ => fld v.toNat 5 3, chTcem := vupd p.chTcem c fun _ => tc } }
  else if s.inReset domPsram then s.busErr else s.okBus

/-! ## Engine registers and scratchpads (R37, R53, R340-R346, R364-R368) -/

/-- A register of PEn. A retired engine and one held in reset answer with a bus error. -/
def peWrite (m : Master) (n : EngId) (off : Nat) (v : Word) (s : State) : State :=
  if s.retired n || s.inReset (engDomain n) then s.busErr
  else if off = 0x10 then State.okBus (s.modEng n fun e => { e with fpstat := w1c e.fpstat v })
  else if off = 0x20 then State.okBus (s.modEng n fun e => { e with eccFlag := e.eccFlag && !v.toNat.testBit 31 })
  else if off = 0x50 then guarded (notAon m) s (s.modEng n fun e => { e with clipEn := v.toNat.testBit 0 })
  else if off = 0x54 then State.okBus (s.modEng n fun e => { e with clipFail := e.clipFail && !v.toNat.testBit 15 })
  else if 0x100 ≤ off ∧ off < 0x140 ∧ off % 4 = 0 then ownerWriteEffect m n (Fin.ofNat 16 ((off - 0x100) / 4)) v s
  else s.okBus

/-- The banks that `n` bytes from an offset on touch (R345). -/
def banksOf (off n : Nat) : List BankId := (List.finRange 16).filter fun b => decide (b.val * 2 ^ 18 < off + n) && decide (off < (b.val + 1) * 2 ^ 18)

/-- A store of `len` bytes, or without bytes a load, at the scratchpad of PEn: by the owner of every bank that it touches, up to
256 B, else a bus error (R340, R345); a store by the engine into a write-protected bank stops it (R329, R343). A load, and a store
that covers part of a 64-bit word, reads; where that meets an uncorrectable error at the word `bad`, nothing is done: the engine
stops, another owner's access ends with a bus error, and the error is counted (R346, R347). -/
def spadAccess (m : Master) (n : EngId) (off len : Nat) (bs : Option Bytes) (bad : Option Nat) (s : State) : State :=
  let e := s.eng n
  let banks := banksOf off len
  let reads := bs.isNone || off % 8 != 0 || (off + len) % 8 != 0
  if s.retired n || s.inReset (engDomain n) || decide (256 < len) || decide (2 ^ 22 < off + len) ||
      banks.any fun b => ownerCode n m != some e.banks[b].owner then s.busErr
  else if m == .engine n && bs.isSome && s.anyRuns && banks.any fun b => decide (b.val < 4) then
    (engineStopEffect n 3 0 0 s).reply .none
  else match (if reads then bad else none), bs with
    | some w, _ => if m = .engine n then (engineStopEffect n 0 0 w s).reply .none else (countUe s n 0 w).busErr
    | none, some bs => State.okBus (s.modEng n fun e => { e with spad := spadPut e.spad off bs })
    | none, none => s.reply (.bytes (e.bytesAt n off len))

/-! ## TDS (R376, R386, R395, R396, R406-R411) -/

/-- A command word of core c (R386). What RESP reports for an OP that the table does not list is not stated (log 5). -/
def cmdWrite (m c : CoreId) (v : Word) (s : State) : State :=
  let t : ThreadId := Fin.ofNat 256 (fld v.toNat 0 8)
  match opCmd c (fld v.toNat 8 4) t with
  | some f => coreCmd m c s f
  | none =>
    let (x, s) := s.free 2
    coreCmd m c s fun d _ => (d, x.toNat)

/-- A register in the window of core c: only core c may access it; a core whose take read is stalled writes nothing. -/
def coreWrite (m : Master) (c : CoreId) (off : Nat) (v : Word) (s : State) : State :=
  if coreOf m ≠ some c then s.busErr
  else if s.tds.cores[c].stalled then s
  else if off = 0x8 then
    State.okBus { s with tds := s.tds.modCore c fun w => { w with arg := v.setWidth 24 } }
  else if off = 0xC then cmdWrite c c v s
  else s.okBus

/-- TDS_PARTp_CFG.SHARE: AON only, the sum of the shares at most 256, no context of the partition running (R376). -/
def shareWrite (m : Master) (p : Fin 8) (v : Word) (s : State) : State :=
  let k := fld v.toNat 0 9
  let parts := vupd s.tds.parts p fun x => { x with share := k }
  guarded (notAon m || decide (256 < (parts.toList.map (·.share)).sum) || allCtx.any fun c => (s.ctx c).active && partOf s c == p)
    s { s with tds := { s.tds with parts := parts } }

def tdsWrite (m : Master) (off : Nat) (v : Word) (s : State) : State :=
  if off = 0 then
    guarded (notAon m || (!v.toNat.testBit 0 && s.anyRuns)) s { s with tds := { s.tds with run := v.toNat.testBit 0 } }
  else if off = 0x10 then State.okBus { s with tds := { s.tds with preempt := w1c s.tds.preempt v } }
  else if 0x100 ≤ off ∧ off < 0x1A0 then coreWrite m (Fin.ofNat 5 ((off - 0x100) / 0x20)) ((off - 0x100) % 0x20) v s
  else if 0x800 ≤ off ∧ off < 0x920 ∧ off % 0x10 = 4 then
    tileCommitEffect m (Fin.ofNat 18 ((off - 0x800) / 0x10)) v.toNat default s
  else if 0xA00 ≤ off ∧ off < 0xA80 ∧ off % 0x10 = 0 then shareWrite m (Fin.ofNat 8 ((off - 0xA00) / 0x10)) v s
  else if 0xC00 ≤ off ∧ off < 0xD00 ∧ off % 0x10 = 0 then pushEffect (Fin.ofNat 16 ((off - 0xC00) / 0x10)) v s
  else if 0xC00 ≤ off ∧ off < 0xD00 ∧ off % 0x10 = 8 then doneEffect (Fin.ofNat 16 ((off - 0xC00) / 0x10)) v s
  else s.okBus

/-! ## Mailboxes (R581-R583, R588, R589) -/

/-- The mailboxes that a party sends to. -/
def sentBy (who : Option (BitVec 2)) (s : State) : Word :=
  (List.finRange 32).foldl (fun w n => if some s.mbx.box[n].sender = who then w ||| BitVec.ofNat 32 (2 ^ n.val) else w) 0

/-- MBX_CFGn: AON only, frozen while any context runs; RECEIVER differs from SENDER. -/
def mbxCfgWrite (m : Master) (n : MbxId) (v : Word) (s : State) : State :=
  let a : BitVec 2 := v.setWidth 2
  let b : BitVec 2 := BitVec.ofNat 2 (fld v.toNat 2 2)
  guarded (notAon m || s.anyRuns || a == b) s (s.modBox n fun x => { x with sender := a, receiver := b })

/-- Only its sender and its receiver reach a mailbox (R581). -/
def mbxOpen (who : Option (BitVec 2)) (n : MbxId) (s : State) : Bool :=
  who == some s.mbx.box[n].sender || who == some s.mbx.box[n].receiver

/-- The mailboxes; MBX_EMPTIED and MBX_EMPTIED_EN: each bit only for the sender of its mailbox. -/
def mbxWrite (m : Master) (off : Nat) (v : Word) (s : State) : State :=
  let who := mbxParty m
  let mine := sentBy who s
  if off < 0x1000 then
    let n : MbxId := Fin.ofNat 32 (off / 0x80)
    let k := off % 0x80
    if k ≠ 0x40 && !mbxOpen who n s then s.busErr
    else if k ≤ 0x3C then mbxData who n k (leBytes 4 v.toNat) s
    else if k = 0x40 then mbxCfgWrite m n v s
    else if k = 0x44 then mbxPostEffect who n (v.setWidth 7) s
    else if k = 0x48 then mbxAckWrite who n (v.toNat.testBit 0) s
    else s.okBus
  else if off = 0x4000 then State.okBus { s with mbx := { s.mbx with emptied := s.mbx.emptied &&& ~~~(v &&& mine) } }
  else if off = 0x4004 then
    State.okBus { s with mbx := { s.mbx with emptiedEn := (s.mbx.emptiedEn &&& ~~~mine) ||| (v &&& mine) } }
  else s.okBus

/-! ## Arbiter, Fuse unit, Verifier (R124-R130, R320-R322, R404, R412) -/

def arbWrite (m : Master) (off : Nat) (v : Word) (s : State) : State :=
  -- what bursts have occupied so far is charged under the weights so far (R399, R412)
  let a := allRes.foldl (fun a r => a.charge r s.sclk) s.arb
  let r : Fin 32 := Fin.ofNat 32 (off / 4)
  if off = 0 then
    if v.toNat.testBit 1 then clrStatsEffect s else s.okBus
  else if 0x100 ≤ off ∧ off < 0x180 ∧ off % 4 = 0 then
    guarded (notAon m || s.anyRuns) s { s with arb := { a with
      wStore := vupd a.wStore r fun _ => fld v.toNat 0 8, wPsram := vupd a.wPsram r fun _ => fld v.toNat 8 8
      wLink := vupd a.wLink r fun _ => fld v.toNat 16 8 } }
  else if 0x200 ≤ off ∧ off < 0x280 ∧ off % 4 = 0 then
    guarded (notAon m || s.anyRuns || fld v.toNat 0 12 == 0) s
      { s with arb := { a with wlimit := vupd a.wlimit r fun _ => fld v.toNat 0 12 } }
  else s.okBus

/-- Registers of the Fuse unit; held in reset it answers with a bus error (R507), and FUS_CTRL keeps its value (R124). -/
def fusWrite (off : Nat) (v : Word) (s : State) : State :=
  if s.fuseReset then s.busErr
  else if off = 0 then fusCtrlEffect v s
  else if off = 0x10 then State.okBus { s with fus := { s.fus with irq := w1c s.fus.irq v } }
  else if off = 0x14 then State.okBus { s with fus := { s.fus with irqEn := v.setWidth 6 } }
  else if off = 0x20 then State.okBus { s with fus := { s.fus with pipeFail := w1c s.fus.pipeFail v } }
  else if 0x100 ≤ off ∧ off < 0x200 ∧ off % 0x40 = 0 then fusCsiCtrlEffect (Fin.ofNat 4 ((off - 0x100) / 0x40)) v s
  else if 0x1000 ≤ off ∧ off < 0x1200 ∧ off % 0x20 = 0 then fusStrCtrlEffect (Fin.ofNat 16 ((off - 0x1000) / 0x20)) v s
  else s.okBus

def vfyWrite (off : Nat) (v : Word) (s : State) : State :=
  if s.inReset domVerifier then s.busErr
  else if off = 0 then vfyCtrlEffect v s
  else if off = 0x10 then State.okBus { s with vfy := { s.vfy with irq := w1c s.vfy.irq v } }
  else if off = 0x14 then State.okBus { s with vfy := { s.vfy with irqEn := v.setWidth 6 } }
  else s.okBus

/-! ## Links, SDIO, CAN (R591, R592, R623, R624) -/

/-- EN of a link port: 1 starts TRAINING, 0 takes the port DOWN; a FAILED port stays FAILED (R598). -/
def linkEnable (s : State) (l : LinkId) (en : Bool) : State :=
  let was := (s.link l).en
  let s' := s.modLink l fun p => { p with en := en }
  if (s.link l).st = .failed then s'
  else if en && !was then startTraining s' l else if !en && was then leaveUp s' l .down else s'

/-- LNK_CTRLn: AON only, frozen while any context runs. -/
def lnkWrite (m : Master) (off : Nat) (v : Word) (s : State) : State :=
  if off < 0x6000 then
    let l : LinkId := Fin.ofNat 6 (off / 0x1000)
    if s.inReset (linkDomain l) then s.busErr
    else if off % 0x1000 = 0 then
      guarded (notAon m || s.anyRuns) s ((linkEnable s l (v.toNat.testBit 0)).modLink l fun p =>
        { p with spareEn := v.toNat.testBit 1, loopback := v.toNat.testBit 2 })
    else s.okBus
  else if off = 0x8000 then State.okBus { s with hedge := { s.hedge with irq := w1c s.hedge.irq v } }
  else if off = 0x8004 then State.okBus { s with hedge := { s.hedge with irqEn := v.setWidth 19 } }
  else s.okBus

/-- SDx_CTRL: AON only, frozen while any context runs; MAX_MODE 1-8. -/
def sdCtrlWrite (m : Master) (i : SdIf) (v : Word) (s : State) : State :=
  let mm := fld v.toNat 4 4
  guarded (notAon m || s.anyRuns || !within 1 8 mm) s (s.modSd i fun x =>
    { x with en := v.toNat.testBit 0, f2En := v.toNat.testBit 1, maxMode := mm, v18En := v.toNat.testBit 8 })

/-- A controller that joins or leaves the bus (R575; log 56). -/
def canEnable (now : Nat) (en : Bool) (k : Can) : Can :=
  if en && !k.en then { k with en := true, nmt := 0x7F, tx := k.tx ++ [.bootUp], lastHb := now }
  else if !en && k.en then { k with en := false, nmt := 0, xl := none, emcyQ := [] }
  else k

/-- CANx_CTRL: AON only, frozen while any context runs; EN = 1 needs a NODE_ID; GEN 3 names no generation (log 84). -/
def canCtrlWrite (m : Master) (n : CanIf) (v : Word) (s : State) : State :=
  let en := v.toNat.testBit 0
  let id := fld v.toNat 8 7
  guarded (notAon m || s.anyRuns || (en && id == 0) || fld v.toNat 1 2 == 3) s ((if en then s else endXl n s).modCan n fun k =>
    canEnable s.now en { k with gen := fld v.toNat 1 2, nodeId := id })

def ioWrite (m : Master) (off : Nat) (v : Word) (s : State) : State :=
  if s.inReset domIo then s.busErr
  else if off = 0 then sdCtrlWrite m .sda v s
  else if off = 0x10000 then sdCtrlWrite m .sdb v s
  else if off = 0x20000 then canCtrlWrite m .cn0 v s
  else if off = 0x30000 then canCtrlWrite m .cn1 v s
  else s.okBus

/-! ## SAF (R497-R503) -/

/-- SAF_CTRL: OUT_EN is set for good. PULSE_EN, which the object of that name gives as well (R504), is frozen while any context
runs: the write then ends with a bus error (R17) and sets nothing (log 115). -/
def safCtrlWrite (v : Word) (s : State) : State :=
  guarded s.anyRuns s (drivePins (setObj { s with saf := { s.saf with
    outEn := s.saf.outEn || v.toNat.testBit 0, pulseEn := v.toNat.testBit 1 } } 0x2300 0x05 (leBytes 1 (fld v.toNat 1 1))))

/-- SAF registers: SAF_REQ by any master, the others by AON only. -/
def safWrite (m : Master) (off : Nat) (v : Word) (s : State) : State :=
  if off = 0x10 then
    let t := safReqCtxEffect (v.setWidth 16) s
    if v.toNat.testBit 16 then State.okBus (hostPart t) else t
  else if notAon m then s.busErr
  else if off = 0 then safCtrlWrite v s
  else if off = 0x14 then
    -- the part first, so that contexts it held can be cleared by the same write (log 86)
    let t := if v.toNat.testBit 16 then (partClear s).getD s else s
    safClearCtxEffect m (v.setWidth 16) t
  else if off = 0x40 then safWdtEffect m (v.setWidth 16) s
  else s.okBus

/-! ## Memories -/

/-- The requester of a master (R398); none for one that moves no data of its own. -/
def reqOf : Master → Option ReqId
  | .engine n => some ⟨n.val, by omega⟩
  | .host _ => some 22
  | .aon => some 23
  | .io _ => none
  | .fuse => some 18
  | .verifier => some 19
  | .loader => some 20
  | .recorder => some 21
  | .maintenance => some 30
  | .resultWriter => some 31

/-- An access to the stacked store: judged by the region table, as in STORE_ACCESS. -/
def storeAccessBy (m : Master) (a len : Nat) (bs : Option Bytes) (s : State) : State :=
  match reqOf m with
  | none => s.busErr
  | some r =>
    let t := match m with
      | .engine n => s.heldTile n
      | _ => none
    let c : Option CtxId := t.bind fun t => if t.ctx < 16 then some (Fin.ofNat 16 t.ctx) else none
    let q : StoreReq :=
      { req := r, ctx := c, station := (t.map (·.station)).getD 0, io := false, gen := 0, addr := a, write := bs, len := len,
        die0 := .clean, die1 := .clean }
    storeAccessEffect { q with gen := domTag s (reqDomain q) } s

/-- Bytes written to PSRAM (R54, R55, R507). -/
def psramStore (off : Nat) (bs : Bytes) (s : State) : State :=
  guarded (s.inReset domPsram || !psramOk s off bs.length) s { s with psram := memWrite s.psram off bs }

/-! ## The bus -/

/-- A write of a word at a bus address (R54, R55). The boot ROM keeps its contents; the boot flash window refuses every write
(R665). An address in a register window that no register occupies ignores it (log 83). -/
def busWrite (m : Master) (a : Nat) (v : Word) (s : State) : State :=
  if a < 0x01000000 then s.okBus
  else if a < 0x02000000 then aonWrite m (a - 0x01000000) v s
  else if a < 0x03000000 then sysWrite m (a - 0x02000000) v s
  else if a < 0x04000000 then psrWrite m (a - 0x03000000) v s
  else if a < 0x05200000 then
    peWrite m (Fin.ofNat 18 ((a - 0x04000000) / 0x100000)) ((a - 0x04000000) % 0x100000) v s
  else if a < 0x08000000 then s.busErr
  else if a < 0x09000000 then tdsWrite m (a - 0x08000000) v s
  else if a < 0x0A000000 then mbxWrite m (a - 0x09000000) v s
  else if a < 0x0B000000 then arbWrite m (a - 0x0A000000) v s
  else if a < 0x0C000000 then fusWrite (a - 0x0B000000) v s
  else if a < 0x0D000000 then vfyWrite (a - 0x0C000000) v s
  else if a < 0x0E000000 then lnkWrite m (a - 0x0D000000) v s
  else if a < 0x0F000000 then ioWrite m (a - 0x0E000000) v s
  else if a < 0x10000000 then safWrite m (a - 0x0F000000) v s
  else if a < 0x14800000 then
    spadAccess m (Fin.ofNat 18 ((a - 0x10000000) / 0x400000)) ((a - 0x10000000) % 0x400000) 4 (some (leBytes 4 v.toNat)) none s
  else if a < 0x40000000 then s.busErr
  else if a < 0x60000000 then storeAccessBy m a 4 (some (leBytes 4 v.toNat)) s
  else if 0x800000000 ≤ a ∧ a < 0x820000000 then psramStore (a - 0x800000000) (leBytes 4 v.toNat) s
  else s.busErr

/-! ## The SDIO functions (R568-R570, R581, R632) -/

/-- The registers of the object window. Data that a read left in OD_FIFO goes when the next request is set up (log 87). -/
def odSetup (i : SdIf) (f : Sd → Sd) (s : State) : State :=
  s.modSd i fun x => f (if x.odStatus == 1 then x else { x with fifo := [] })

/-- The value v with its byte k replaced. -/
def putByte (v k : Nat) (b : Byte) : Nat := v - v / 256 ^ k % 256 * 256 ^ k + b.toNat * 256 ^ k

/-- The party that the host of port p is through function 1 of interface i (R581). -/
def f1Who (s : State) (i : SdIf) (p : Port) : Option (BitVec 2) := if s.portOf (sdIdx i) = some p then mbxParty (.io p) else none

/-- The object window, byte by byte (R568). -/
def odByte (i : SdIf) (off : Nat) (b : Byte) (s : State) : State :=
  if off < 2 then odSetup i (fun x => { x with odIndex := putByte x.odIndex off b }) s
  else if off = 2 then odSetup i (fun x => { x with odSub := b.toNat }) s
  else if 4 ≤ off ∧ off < 8 then odSetup i (fun x => { x with odLen := putByte x.odLen (off - 4) b }) s
  else if off = 8 then
    match b.toNat with
    | 1 => odReadEffect i s
    | 2 => odWriteEffect i s
    | 3 => odCancelEffect i s
    | _ => s
  else if off = 0x1000 then
    s.modSd i fun x => if x.odStatus == 1 || decide (2 ^ 20 ≤ x.fifo.length) then x else { x with fifo := x.fifo ++ [b] }
  else s

/-- A byte written to function 1 of an interface by the host of port p. An interface that no port is bound to ignores writes of its
object window (R551). -/
def f1Byte (i : SdIf) (p : Port) (off : Nat) (b : Byte) (s : State) : State :=
  if off < 0x2000 then (if s.portOf (sdIdx i) = some p then odByte i off b s else s)
  else if off < 0x2800 then mbxData (f1Who s i p) (Fin.ofNat 32 ((off - 0x2000) / 64)) ((off - 0x2000) % 64) [b] s
  else if off < 0x2880 ∧ off % 4 = 0 then mbxPostEffect (f1Who s i p) (Fin.ofNat 32 ((off - 0x2800) / 4)) (b.setWidth 7) s
  else if off < 0x2880 ∧ off % 4 = 1 then
    mbxAckWrite (f1Who s i p) (Fin.ofNat 32 ((off - 0x2800) / 4)) (b.toNat.testBit 0) s
  else if 0x3000 ≤ off ∧ off < 0x3004 then
    s.modSd i fun x => { x with evt := w1c x.evt (BitVec.ofNat 32 (b.toNat * 256 ^ (off - 0x3000))) }
  else s

/-- A byte written to function 0: I/O enable, interrupt enable, I/O abort with its reset bit, bus interface control, Bus Speed Select
and the block sizes of up to 512 B (R567; logs 81, 82). -/
def f0Byte (i : SdIf) (off : Nat) (b : Byte) (s : State) : State :=
  let size := fun (n k : Nat) => s.modSd i fun x =>
    let v := putByte (x.blk.toList.getD n 0) k b
    if v ≤ 512 then { x with blk := vupd x.blk (Fin.ofNat 3 n) fun _ => v } else x
  if off = 2 then s.modSd i fun x => { x with ioEn := b &&& (if x.f2En then 6 else 2) }
  else if off = 4 then s.modSd i fun x => { x with intEn := b &&& 7 }
  else if off = 6 then
    s.modSd i fun x => if b.toNat.testBit 3 then { x.ioReset with card := .idle, rca := 0, mode := x.resetMode false } else x
  else if off = 7 then s.modSd i fun x => { x with busCtl := b }
  else if off = 0x13 then busSpeedSelect i (b.setWidth 32) s
  else if off = 0x10 ∨ off = 0x11 then size 0 (off - 0x10)
  else if off = 0x110 ∨ off = 0x111 then size 1 (off - 0x110)
  else if off = 0x210 ∨ off = 0x211 then size 2 (off - 0x210)
  else s

/-- A byte written to the recovery window (R632, R633). A value that names no command takes the session as every write of REC_CMD
does, and is not allowed. -/
def recByte (i : SdIf) (off : Nat) (b : Byte) (s : State) : State :=
  if off = 4 then
    recCmd i s (match b.toNat with
      | 1 => programCfgBody
      | 2 => programFwBody
      | 3 => programImageBody
      | 4 => enrolBody
      | 5 => programCertBody
      | 6 => restartBody
      | _ => fun t => recFail t 5)
  else if 8 ≤ off ∧ off < 0xC then
    { s with boot := { s.boot with recArg := BitVec.ofNat 32 (putByte s.boot.recArg.toNat (off - 8) b) } }
  else if 0xC ≤ off ∧ off < 0x10 then
    { s with boot := { s.boot with recLen := BitVec.ofNat 32 (putByte s.boot.recLen.toNat (off - 0xC) b) } }
  else s

/-- The interface whose card an address of a port's host names: 64 KiB of addresses for each of function 1 of SDA and SDB, function 2
of SDA and SDB, function 0 of SDA and SDB (log 82). -/
def cardIf (a : Nat) : SdIf := if a / 0x10000 % 2 = 0 then .sda else .sdb

/-- The function that it names. -/
def cardFn (a : Nat) : Nat := if a < 0x20000 then 1 else if a < 0x40000 then 2 else 0

/-- The part is in recovery boot. -/
def State.recovers (s : State) : Bool := s.boot.phase == .on && s.boot.st == 1

/-- A byte that the host of port p writes at an address of a function (CMD52). Of function 2 the channels have rows of their own. -/
def cardByte (p : Port) (i : SdIf) (fn off : Nat) (b : Byte) (s : State) : State :=
  match fn with
  | 0 => f0Byte i off b s
  | 1 => if s.recovers then recByte i off b s else f1Byte i p off b s
  | _ =>
    if (s.sd i).f2En && decide (0x3F00 ≤ off) && decide (off < 0x3F04) then
      s.modSd i fun x => { x with memAddr := BitVec.ofNat 32 (putByte x.memAddr.toNat (off - 0x3F00) b) }
    else s

/-- Bytes that the host of port p sends (CMD53): at incrementing addresses, but for OD_FIFO, whose address is fixed (R568). -/
def cardStore (p : Port) (a : Nat) (bs : Bytes) (s : State) : State :=
  let fixed := cardFn a == 1 && a % 0x10000 == 0x1000
  bs.zipIdx.foldl (fun s x => cardByte p (cardIf a) (cardFn a) (a % 0x10000 + if fixed then 0 else x.2) x.1 s) s

end Sys2Proof.Machine
end

