-- ==== Sys2Proof/Machine/RegViews.lean ====
section
/-! DEFINITION. What the registers read as (R12, R37 and the register tables), the interrupts they raise (R126, R322, R518,
R589, R624), and the random numbers of station programs (R420). Reading is no command of the opcode table and changes
nothing, but for the reads that have a command of their own. -/

namespace Sys2Proof.Machine

/-- The number of an engine in a 5-bit field; 0x1F for none. -/
def engField (e : Option EngId) : Nat := e.elim 0x1F (·.val)

/-- A bit for each of some units. -/
def bitsFor (w : Nat) (p : Nat → Bool) : Nat := (List.range w).foldl (fun a i => a + bit1 (p i) * 2 ^ i) 0

/-- The port of an interface: 0 unbound, 1 Port A, 2 Port B (R591, R592). -/
def portField (s : State) (i : Nat) : Nat :=
  match s.portOf i with
  | none => 0
  | some .a => 1
  | some .b => 2

/-! ## AON, SYS, PSR -/

/-- AON_BOOT_STAT, AON_PWR, AON_ENG_PWR, AON_THERM, AON_VCORE (R654, R681). -/
def aonView (s : State) (off : Nat) : Nat :=
  let b := s.boot
  let p := s.power
  match off with
  | 0x40 =>
    b.st + b.reason * 2 ^ 8 + b.lifecycle * 2 ^ 16 + bit1 b.jtagOpen * 2 ^ 19 + bit1 b.keyProd * 2 ^ 20
  | 0x80 => oNat s 0x2600 0x09 + oNat s 0x2600 0x0B * 2 + bit1 p.hostDoze * 4 + oNat s 0x2600 0x0A % 256 * 2 ^ 16
  | 0x84 => bitsFor 18 fun i => (s.engines[i]?.map (·.st)) == some .doze
  | 0x90 => code 8 p.tjMax + p.inForce * 2 ^ 8 + bit1 p.pCause * 2 ^ 10 + oNat s 0x2600 0x07 * 2 ^ 16
  | 0x94 => p.vset % 4096 + p.vread % 4096 * 2 ^ 16
  | _ => 0

/-- SYS_ENG_*, SYS_RST_*, SYS_GENk, SYS_STALE, SYS_FLT_HEAD, SYS_DUMP_STAT, SYS_CTX_DRAIN, SYS_CLK_STAT (R38-R40, R546-R548,
R680). The domain of a retired engine is held in reset. -/
def sysView (s : State) (off : Nat) : Nat :=
  let f := s.faults
  let k := s.clk
  match off with
  | 0x100 => engRole s
  | 0x104 => s.roles.retired.toNat
  | 0x108 => s.roles.working.toNat + s.roles.steps % 256 * 2 ^ 24
  | 0x200 => (f.inReset ||| s.roles.retired.setWidth 30).toNat
  | 0x210 => (List.range 8).foldl (fun a j => a + f.gen[j]?.getD 0 * 16 ^ j) 0
  | 0x214 => (List.range 8).foldl (fun a j => a + f.gen[8 + j]?.getD 0 * 16 ^ j) 0
  | 0x218 => (List.range 8).foldl (fun a j => a + f.gen[16 + j]?.getD 0 * 16 ^ j) 0
  | 0x21C => (List.range 6).foldl (fun a j => a + f.gen[24 + j]?.getD 0 * 16 ^ j) 0
  | 0x220 => f.stale + f.staleDomain * 2 ^ 16
  | 0x230 => f.head + bit1 f.newRec * 2 ^ 8 + bit1 f.irqEn * 2 ^ 9
  | 0x240 =>
    s.dump.st + (match s.dump.cur.bind (·.domain) with
      | some d => d.val
      | none => 0x1F) * 2 ^ 8 + s.dump.unreadCount * 2 ^ 16
  | 0x250 => bitsFor 16 fun i => (s.ctxs[i]?.map (·.st)) == some .draining
  | 0x300 =>
    bit1 k.xinOk + bit1 k.apllLock * 2 + bit1 k.spllLock * 4 + bit1 k.hpllLock * 8 + bit1 k.lpllLock * 16 + bit1 k.rtcOk * 32
  | _ => 0

/-- PSR_CHc_CFG, _STAT, _CNT, _ID (R682). -/
def psrView (s : State) (off : Nat) : Nat :=
  let c : Fin 8 := Fin.ofNat 8 ((off - 0x100) / 0x20)
  let p := s.power
  if off < 0x100 ∨ 0x200 ≤ off then 0
  else match off % 0x20 with
    | 0 => bit1 p.chPop[c] + p.chLc[c] * 2 + p.chDrive[c] * 2 ^ 5 + p.chTcem[c] * 2 ^ 8
    | 4 => p.chState[c] + p.chSize[c] * 2 ^ 8
    | 8 => p.chLong[c] + p.chSplits[c] * 2 ^ 16
    | 0xC => p.chId[c].toNat
    | _ => 0

/-! ## Engines -/

def peStateNat : PeState → Nat
  | .off => 0
  | .reset => 1
  | .loading => 2
  | .idle => 3
  | .takeWait => 4
  | .run => 5
  | .nap => 6
  | .stopped => 7
  | .doze => 8

/-- PE_STAT.ROLE: 3 while the roles of this power-on are not assigned. -/
def roleField (s : State) (n : EngId) : Nat :=
  let r := s.roles
  if !r.assigned || s.retired n then 3
  else if s.working n then 0 else if r.coppice == some n then 1 else if r.reserve == some n then 2 else 3

/-- A register of an engine in service (R364-R368). -/
def engView (s : State) (n : EngId) (off : Nat) : Nat :=
  let e := s.eng n
  if 0x100 ≤ off ∧ off < 0x140 ∧ off % 4 = 0 then
    let b : BankId := Fin.ofNat 16 ((off - 0x100) / 4)
    let k := e.banks[b]
    k.owner.toNat + bit1 (decide (b.val < 4) && s.anyRuns) * 16 + bit1 (!k.pending.isEmpty) * 32
  else match off with
    | 0x00 => peStateNat e.st + roleField s n * 16 + e.queued * 2 ^ 8
    | 0x04 => e.tileSeq % 2 ^ 24 + e.tileStation * 2 ^ 24 + e.tileCtx % 16 * 2 ^ 28
    | 0x08 => e.tileFrame % 2 ^ 32
    | 0x10 => e.fpstat.toNat
    | 0x20 => e.eccCe + e.eccUe * 2 ^ 16 + e.eccSrc * 2 ^ 24 + bit1 e.eccFlag * 2 ^ 31
    | 0x24 => e.eccAddr * 8
    | 0x30 => if e.spareUsed then 1 + e.lane * 2 else 0
    | 0x40 => e.imemUsed + e.ctxLoaded.toNat * 2 ^ 16
    | 0x50 => bit1 e.clipEn
    | 0x54 => e.clipRegion + bit1 e.clipFail * 2 ^ 15 + e.clipPasses * 2 ^ 16
    | 0x58 => e.clipFailRegion
    | 0x60 => e.perfTiles
    | 0x64 => e.perfBusy % 2 ^ 32
    | _ => 0

/-- A retired engine reads its reset values (R37): ROLE 3, and PE_CLIP_CTRL.EN 1. -/
def peView (s : State) (n : EngId) (off : Nat) : Nat :=
  if s.retired n then (if off = 0 then 0x30 else if off = 0x50 then 1 else 0) else engView s n off

/-! ## TDS -/

def thStateNat : ThState → Nat
  | .dormant => 0
  | .ready => 1
  | .running => 2
  | .blocked => 3
  | .delayed => 4

/-- TDS_CORE_c: RUN, ARG, RESP and the last value of TAKE (R407). -/
def coreView (s : State) (c : CoreId) (off : Nat) : Nat :=
  let w := s.tds.cores[c]
  match off with
  | 0x0 => w.take.toNat
  | 0x4 => w.run.elim 0 fun t => t.val + 2 ^ 31
  | 0x8 => w.arg.toNat
  | 0x10 => w.resp.toNat + bit1 w.respDone * 2 ^ 31
  | _ => 0

/-- TDS_THR_STATt (R408). -/
def threadView (s : State) (t : ThreadId) : Nat :=
  let x := s.tds.threads[t]
  thStateNat x.st + x.prio.toNat * 2 ^ 3 + x.aff.toNat * 2 ^ 8 + (if x.st = .running then x.core.toNat else 0) * 2 ^ 13 +
    (x.event.elim 0 (·.toNat)) * 2 ^ 16

/-- TDS_PE_STATn (R409). -/
def peStatView (s : State) (n : EngId) : Nat :=
  let e := s.eng n
  bit1 e.waiting + (match s.heldTile n with
    | some t => 2 + t.station * 2 ^ 4 + t.ctx % 16 * 2 ^ 8 + t.seq % 2 ^ 20 * 2 ^ 12
    | none => 0)

/-- TDS_PARTp_CFG and _USE (R410). -/
def partView (s : State) (p : Fin 8) (off : Nat) : Nat :=
  let k := s.tds.parts[p]
  match off with
  | 0 => k.share + bitsFor 16 (fun i =>
      let c : CtxId := Fin.ofNat 16 i
      (s.ctx c).active && partOf s c == p) * 2 ^ 16
  | 4 => k.lastUsed + k.short * 2 ^ 20
  | _ => 0

/-- A word of a commit log (R384): entries that no tile has yet are STATION 0, ENG_A and ENG_B 0x1F. -/
def logView (s : State) (off : Nat) : Nat :=
  let c : CtxId := Fin.ofNat 16 (off / 0x80000)
  let l := if off % 0x80000 < 0x40000 then s.tds.logs[c].even else s.tds.logs[c].odd
  let bytes := match amGet l (off % 0x40000 / 8) with
    | some e => [e.station, e.engA, e.engB, e.lflags, e.chip % 256, e.chip / 256, 0, 0]
    | none => [0, 0x1F, 0x1F, 0, 0, 0, 0, 0]
  (bytes.drop (off % 8)).take 4 |>.foldr (fun b a => b + 256 * a) 0

/-- READY threads and ready tiles (R406). -/
def tdsStat (s : State) : Nat :=
  s.tds.readyQ.length + min 65535 (s.tds.tiles.filter fun t => t.status == .ready).length * 2 ^ 16

def tdsView (s : State) (off : Nat) : Nat :=
  let d := s.tds
  if 0x100 ≤ off ∧ off < 0x1A0 then coreView s (Fin.ofNat 5 ((off - 0x100) / 0x20)) ((off - 0x100) % 0x20)
  else if 0x400 ≤ off ∧ off < 0x800 ∧ off % 4 = 0 then threadView s (Fin.ofNat 256 ((off - 0x400) / 4))
  else if 0x800 ≤ off ∧ off < 0x920 ∧ off % 16 = 8 then peStatView s (Fin.ofNat 18 ((off - 0x800) / 16))
  else if 0xA00 ≤ off ∧ off < 0xA80 then partView s (Fin.ofNat 8 ((off - 0xA00) / 16)) (off % 16)
  else if 0x100000 ≤ off ∧ off < 0x900000 then logView s (off - 0x100000)
  else match off with
    | 0x00 => bit1 d.run
    | 0x04 => tdsStat s
    | 0x08 => d.tick % 2 ^ 32
    | 0x10 => d.preempt.toNat
    | 0x18 => d.events.toNat % 2 ^ 32
    | 0x1C => d.events.toNat / 2 ^ 32
    | _ => 0

/-! ## Mailboxes, SEM, Arbiter -/

def mbxView (s : State) (off : Nat) : Nat :=
  if off < 0x1000 then
    let b := s.mbx.box[(Fin.ofNat 32 (off / 0x80) : MbxId)]
    let k := off % 0x80
    if k ≤ 0x3C then u (padTo 64 b.data) k 4
    else if k = 0x40 then b.sender.toNat + b.receiver.toNat * 4
    else if k = 0x4C then bit1 b.full + b.len.toNat * 2 + b.skip * 2 ^ 16
    else 0
  else match off with
    | 0x4000 => s.mbx.emptied.toNat
    | 0x4004 => s.mbx.emptiedEn.toNat
    | 0x8000 =>
      (match s.sem.holder with
        | none => 0
        | some (.a, _) => 1
        | some (.b, _) => 2) + bit1 s.sem.tie * 4 + bit1 (s.sem.waiting.any fun x => x.1 == .a) * 8 +
        bit1 (s.sem.waiting.any fun x => x.1 == .b) * 16
    | 0x8004 => s.sem.ties + s.sem.stopWins * 2 ^ 16
    | 0x8008 => s.sem.lastIndex + s.sem.lastSub * 2 ^ 16 + s.sem.lastPort * 2 ^ 24
    | _ => 0

def arbView (s : State) (off : Nat) : Nat :=
  let a := s.arb
  let r : Fin 32 := Fin.ofNat 32 (off / 4)
  if off = 0 then bit1 s.anyRuns
  else if 0x100 ≤ off ∧ off < 0x180 then a.wStore[r] + a.wPsram[r] * 2 ^ 8 + a.wLink[r] * 2 ^ 16
  else if 0x200 ≤ off ∧ off < 0x280 then a.wlimit[r]
  else if 0x300 ≤ off ∧ off < 0x380 then a.maxWait[r] + a.forced[r] * 2 ^ 16
  else 0

/-! ## Fuse unit, Verifier -/

def strStateNat : StrState → Nat
  | .off => 0
  | .wait => 1
  | .run => 2
  | .lost => 3
  | .failed => 4

def fusView (s : State) (off : Nat) : Nat :=
  let f := s.fus
  let x := f.rx[(Fin.ofNat 4 ((off - 0x100) / 0x40) : RxId)]
  let t := f.streams[(Fin.ofNat 16 ((off - 0x1000) / 0x20) : StreamId)]
  if 0x100 ≤ off ∧ off < 0x200 then
    match off % 0x40 with
    | 0 => bit1 x.en + x.lanes.toNat * 2
    | 4 => x.stopState.toNat + bit1 x.clkHs * 16 + x.ecc1 * 2 ^ 8 + x.bad * 2 ^ 16 + x.dtIgn * 2 ^ 24
    | _ => 0
  else if 0x1000 ≤ off ∧ off < 0x1200 then
    match off % 0x20 with
    | 0 => bit1 t.en
    | 4 => strStateNat t.st + t.lastCode * 2 ^ 8 + t.gaps * 2 ^ 16
    | 8 => t.fcnt.toNat
    | 0xC => t.acc.toNat
    | _ => 0
  else match off with
    | 0x00 => bit1 f.run
    | 0x04 =>
      bit1 (f.run && !s.fuseReset) + f.pipeFault.toNat * 16 + bitsFor 16 (fun i =>
        let st := (f.streams[(Fin.ofNat 16 i : StreamId)]).st
        st == .lost || st == .failed) * 2 ^ 16
    | 0x10 => f.irq.toNat
    | 0x14 => f.irqEn.toNat
    | 0x20 => f.pipeFail.toNat + f.tlRuns % 65536 * 2 ^ 16
    | _ => 0

def vfyView (s : State) (off : Nat) : Nat :=
  let v := s.vfy
  match off with
  | 0x00 => bit1 v.run
  | 0x04 => bit1 (v.run && !s.inReset domVerifier) + bit1 v.busy.isSome * 2 + v.ctx * 2 ^ 8 + v.attempts % 65536 * 2 ^ 16
  | 0x10 => v.irq.toNat
  | 0x14 => v.irqEn.toNat
  | 0x20 => v.disEngine + bit1 v.disSecond * 32 + v.disCtx * 2 ^ 8 + v.disChip * 2 ^ 16
  | 0x24 => v.disStep % 2 ^ 32
  | 0x30 => v.bmpEpoch.toNat
  | _ => 0

/-! ## Links, SDIO, CAN, SAF -/

def lnkView (s : State) (off : Nat) : Nat :=
  if off < 0x6000 then
    let p := s.link (Fin.ofNat 6 (off / 0x1000))
    match off % 0x1000 with
    | 0x0 => bit1 p.en + bit1 p.spareEn * 2 + bit1 p.loopback * 4
    | 0x4 => linkStateNat p.st + bit1 p.spareUsed * 8 + p.sparedLane * 16 + p.laneOk.toNat * 2 ^ 8 + p.peer * 2 ^ 16
    | 0x8 => p.retries + p.crcErr * 2 ^ 16
    | 0xC => (List.range 5).foldl (fun a i => a + p.laneErr[i]?.getD 0 * 64 ^ i) 0
    | _ => 0
  else match off with
    | 0x8000 => s.hedge.irq.toNat
    | 0x8004 => s.hedge.irqEn.toNat
    | _ => 0

def sdView (s : State) (i : SdIf) (off : Nat) : Nat :=
  let x := s.sd i
  match off with
  | 0 => bit1 x.en + bit1 x.f2En * 2 + x.maxMode * 16 + bit1 x.v18En * 2 ^ 8
  | 4 => x.mode + bit1 x.v18 * 16 + portField s (sdIdx i) * 32
  | 8 => x.crcErr + x.extBad * 2 ^ 8 + x.memDrop * 2 ^ 16 + x.outDrop * 2 ^ 24
  | _ => 0

def canView (s : State) (n : CanIf) (off : Nat) : Nat :=
  let k := s.can n
  match off with
  | 0 => bit1 k.en + k.gen * 2 + k.nodeId * 2 ^ 8
  | 4 => k.nmt + k.bus * 2 ^ 8 + portField s (canIdx n) * 2 ^ 10 + min 15 k.emcyQ.length * 2 ^ 12
  | 8 => k.tec % 256 + k.rec_ % 256 * 2 ^ 8 + k.busoff * 2 ^ 16
  | _ => 0

/-- SAF_ROT.TEST_ENG: none before the roles of this power-on are assigned. -/
def testEngField (s : State) : Nat :=
  if !s.roles.assigned then 0x1F else if s.service = 2 then engField s.roles.testEng else engField s.roles.coppice

/-- SAF registers (R497-R503). SAF_CTXc.ROLE shows SAFETY_ROLE once AON runs (log 115). -/
def safView (s : State) (off : Nat) : Nat :=
  let f := s.saf
  if 0x100 ≤ off ∧ off < 0x148 ∧ off % 4 = 0 then gfAge s (Fin.ofNat 18 ((off - 0x100) / 4))
  else if 0x200 ≤ off ∧ off < 0x240 ∧ off % 4 = 0 then
    let c : CtxId := Fin.ofNat 16 ((off - 0x200) / 4)
    let x := s.ctx c
    sstateNat x.sstate + (if s.boot.phase = .on then safNat s c 0x01 else 0) * 4 + x.cause.toNat * 16 + min 65535 x.satCount * 2 ^ 16
  else match off with
    | 0x00 => bit1 f.outEn + bit1 f.pulseEn * 2
    | 0x04 =>
      bit1 f.pinA + bit1 f.pinB * 2 + bit1 s.permit * 4 + bit1 (f.causes != 0) * 8 + bit1 (!f.faultLow) * 16 +
        bitsFor 16 (fun i => s.safetyRuns (Fin.ofNat 16 i)) * 2 ^ 16
    | 0x08 => pcause s
    | 0x20 => testEngField s + bit1 (s.service == 2) * 32 + stepS s * 2 ^ 12
    | 0x24 => f.lastEng + bit1 f.lastPass * 32 + f.gfFails * 2 ^ 16
    | 0x30 => f.startFail.toNat + bit1 f.stDone * 2 ^ 16
    | 0x34 => f.runFail.toNat + f.nextChk * 2 ^ 16 + f.cycles % 4096 * 2 ^ 20
    | 0x44 => min 2047 (s.aoclk - f.wdtLast) + bit1 f.wdtNext * 2 ^ 11
    | 0x50 => testAge s
    | _ => 0

/-! ## The bus -/

/-- What a register reads as, by its address; none where no register window lies. Reserved bits and unoccupied addresses
read 0 (R12). -/
def regView (s : State) (a : Nat) : Option Nat :=
  if a < 0x01000000 then none
  else if a < 0x02000000 then some (aonView s (a - 0x01000000))
  else if a < 0x03000000 then some (sysView s (a - 0x02000000))
  else if a < 0x04000000 then some (psrView s (a - 0x03000000))
  else if a < 0x05200000 then some (peView s (Fin.ofNat 18 ((a - 0x04000000) / 0x100000)) ((a - 0x04000000) % 0x100000))
  else if a < 0x08000000 then none
  else if a < 0x09000000 then some (tdsView s (a - 0x08000000))
  else if a < 0x0A000000 then some (mbxView s (a - 0x09000000))
  else if a < 0x0B000000 then some (arbView s (a - 0x0A000000))
  else if a < 0x0C000000 then some (fusView s (a - 0x0B000000))
  else if a < 0x0D000000 then some (vfyView s (a - 0x0C000000))
  else if a < 0x0E000000 then some (lnkView s (a - 0x0D000000))
  else if a < 0x0E010000 then some (sdView s .sda (a - 0x0E000000))
  else if a < 0x0E020000 then some (sdView s .sdb (a - 0x0E010000))
  else if a < 0x0E030000 then some (canView s .cn0 (a - 0x0E020000))
  else if a < 0x0E040000 then some (canView s .cn1 (a - 0x0E030000))
  else if a < 0x0F000000 then some 0
  else if a < 0x10000000 then some (safView s (a - 0x0F000000))
  else none

/-! ## Interrupts -/

/-- The Fuse unit raises its interrupt (R126). -/
def fusInterrupt (s : State) : Bool := s.fus.irq &&& s.fus.irqEn != 0
/-- The Verifier raises its interrupt (R322). -/
def vfyInterrupt (s : State) : Bool := s.vfy.irq &&& s.vfy.irqEn != 0
/-- A fault record interrupts the host cluster (R518). -/
def faultInterrupt (s : State) : Bool := s.faults.newRec && s.faults.irqEn
/-- An emptied mailbox interrupts its sender (R583, R589). -/
def emptiedInterrupt (s : State) (who : BitVec 2) : Bool := (s.mbx.emptied &&& s.mbx.emptiedEn &&& sentBy (some who) s) != 0
/-- The links raise their interrupt (R624). -/
def linkInterrupt (s : State) : Bool := s.hedge.irq &&& s.hedge.irqEn != 0

/-! ## Random numbers of station programs (R420) -/

/-- mix(z) of R420. -/
def drawMix (z : BitVec 64) : BitVec 64 :=
  let z := (z ^^^ (z >>> 30)) * 0xBF58476D1CE4E5B9#64
  let z := (z ^^^ (z >>> 27)) * 0x94D049BB133111EB#64
  z ^^^ (z >>> 31)

/-- The 64-bit draw of a key (R420): context or 16, frame or launch tick, index, stream, draw. -/
def draw (ctx frame index stream n : Nat) : BitVec 64 :=
  let w0 := BitVec.ofNat 64 (frame % 2 ^ 48 * 2 ^ 16 + ctx * 2 ^ 8 + stream)
  let w1 := BitVec.ofNat 64 (index * 2 ^ 32 + n)
  drawMix (w1 ^^^ drawMix (w0 ^^^ 0x9E3779B97F4A7C15#64))

/-- The uniform FP32 value of a draw: (r >> 40) × 2^-24, exact. -/
def drawUniform (r : BitVec 64) : Num := ofDyadic fp32 (r >>> 40).toNat (-24)

end Sys2Proof.Machine
end

