-- ==== Sys2Proof/Machine/BusAccess.lean ====
section
/-! DEFINITION. Accesses over the bus: REGISTER_WRITE with the stores and loads of memory (R53-R55, R340, R345), the rows that write
one register, and what the host of a port reads over SDIO (R568, R632). A bus error on an access that an engine made stops its tile
(R329). -/

namespace Sys2Proof.Machine

/-! ## Reading a register -/

/-- A register's unit is held in reset and answers nothing (R507). A retired engine's registers are read all the same (R37). -/
def regHeld (s : State) (a : Nat) : Bool :=
  if 0x03000000 ≤ a ∧ a < 0x04000000 then s.inReset domPsram
  else if 0x04000000 ≤ a ∧ a < 0x05200000 then
    let n : EngId := Fin.ofNat 18 ((a - 0x04000000) / 0x100000)
    !s.retired n && s.inReset (engDomain n)
  else if 0x0B000000 ≤ a ∧ a < 0x0C000000 then s.fuseReset
  else if 0x0C000000 ≤ a ∧ a < 0x0D000000 then s.inReset domVerifier
  else if 0x0D000000 ≤ a ∧ a < 0x0D006000 then s.inReset (linkDomain (Fin.ofNat 6 ((a - 0x0D000000) / 0x1000)))
  else if 0x0E000000 ≤ a ∧ a < 0x0F000000 then s.inReset domIo
  else false

/-- A register that others than the master own: the window of another core (R386), the take register of another engine (R369), a mailbox of other parties (R581). -/
def regBarred (s : State) (m : Master) (a : Nat) : Bool :=
  if 0x08000100 ≤ a ∧ a < 0x080001A0 then coreOf m != some (Fin.ofNat 5 ((a - 0x08000100) / 0x20))
  else if 0x08000800 ≤ a ∧ a < 0x08000920 ∧ a % 16 = 0 then m != .engine (Fin.ofNat 18 ((a - 0x08000800) / 16))
  else if 0x09000000 ≤ a ∧ a < 0x09001000 then !mbxOpen (mbxParty m) (Fin.ofNat 32 ((a - 0x09000000) / 0x80)) s
  else false

/-- What a master reads of a register; none for a bus error. A register whose read has a row of its own shows the value that its last
read gave (log 116). -/
def regRead (s : State) (m : Master) (a : Nat) : Option Nat :=
  if regHeld s a || regBarred s m a then none else regView s a

/-! ## Loads and stores -/

/-- Bytes of a boot ROM word. -/
def romBytes (a len : Nat) : Bytes :=
  (List.range len).map fun i => (leBytes 4 (Config.romWord ((a + i) / 4)).toNat).getD ((a + i) % 4) 0

/-- A load (R53-R55): an address in no row of the memory map, unpopulated PSRAM and what lies beyond the boot flash end with a bus
error. -/
def busLoad (m : Master) (a len : Nat) (bad : Option Nat) (s : State) : State :=
  if a + len ≤ 0x01000000 then s.reply (.bytes (romBytes a len))
  else if 0x10000000 ≤ a ∧ a < 0x14800000 then
    spadAccess m (Fin.ofNat 18 ((a - 0x10000000) / 0x400000)) ((a - 0x10000000) % 0x400000) len none bad s
  else if 0x40000000 ≤ a ∧ a < 0x60000000 then storeAccessBy m a len none s
  else if 0x800000000 ≤ a ∧ a < 0x820000000 then
    let off := a - 0x800000000
    if s.inReset domPsram || !psramOk s off len then s.busErr else s.reply (.bytes (psramRead s off len))
  else if 0xC00000000 ≤ a ∧ a < 0xC08000000 then
    let off := a - 0xC00000000
    if s.boot.flashSize < off + len then s.busErr else s.reply (.bytes (flashRead s off len))
  else match regRead s m a with
    | some v => s.reply (.ok v)
    | none => s.busErr

/-- A store of any length; of a register, its word (log 116). -/
def busStore (m : Master) (a : Nat) (bs : Bytes) (bad : Option Nat) (s : State) : State :=
  if 0x10000000 ≤ a ∧ a < 0x14800000 then
    spadAccess m (Fin.ofNat 18 ((a - 0x10000000) / 0x400000)) ((a - 0x10000000) % 0x400000) bs.length (some bs) bad s
  else if 0x40000000 ≤ a ∧ a < 0x60000000 then storeAccessBy m a bs.length (some bs) s
  else if 0x800000000 ≤ a ∧ a < 0x820000000 then psramStore (a - 0x800000000) bs s
  else busWrite m a (BitVec.ofNat 32 (leNat (bs.take 4))) s

def busAccess (m : Master) (a : Nat) (acc : Access) (s : State) : State :=
  match acc with
  | .word v => busWrite m a v s
  | .store bs bad => busStore m a bs bad s
  | .load len bad => busLoad m a len bad s
  | .tagged _ _ acc => busAccess m a acc s
  | .crcError => s

/-- An access without its tag. -/
def Access.bare : Access → Access
  | .tagged _ _ acc => Access.bare acc
  | acc => acc

/-- The domain of a master (R505); the loader and the result writer have none. -/
def masterDomain : Master → Nat
  | .engine n => n.val
  | .host _ => 28
  | .aon => 0x1E
  | .io _ => 29
  | .fuse => 18
  | .verifier => 19
  | .loader => 0x1F
  | .recorder => 21
  | .maintenance => 20
  | .resultWriter => 0x1F

/-- An access of its domain's old generation (R508, R509). -/
def oldAccess (s : State) (m : Master) : Access → Bool
  | .tagged _ g _ => g != domTag s (masterDomain m)
  | _ => false

/-! ## What a port's host reads over SDIO (R568, R632) -/

/-- Function 1 of an interface as the host of port p reads it, byte by byte, OD_FIFO apart. The object window of an interface that no
port is bound to reads 0 (R551). -/
def f1View (s : State) (i : SdIf) (p : Port) (off : Nat) : Byte :=
  let x := s.sd i
  let part := fun (v k : Nat) => BitVec.ofNat 8 (v / 256 ^ k)
  if off < 0x2000 ∧ s.portOf (sdIdx i) ≠ some p then 0
  else if off < 2 then part x.odIndex off
  else if off = 2 then part x.odSub 0
  else if 4 ≤ off ∧ off < 8 then part x.odLen (off - 4)
  else if off = 9 then part x.odStatus 0
  else if off = 0xA then part x.odSeq.toNat 0
  else if 0xC ≤ off ∧ off < 0x10 then part x.odAbort.toNat (off - 0xC)
  else if 0x2000 ≤ off ∧ off < 0x2800 then
    let n : MbxId := Fin.ofNat 32 ((off - 0x2000) / 64)
    (s.mbx.box[n].data)[(off - 0x2000) % 64]?.getD 0
  else if 0x2800 ≤ off ∧ off < 0x2880 ∧ 2 ≤ off % 4 then
    let n : MbxId := Fin.ofNat 32 ((off - 0x2800) / 4)
    let b := s.mbx.box[n]
    if off % 4 = 2 then part (bit1 b.full + b.len.toNat * 2) 0 else 0
  else if 0x3000 ≤ off ∧ off < 0x3004 then part x.evt.toNat (off - 0x3000)
  else 0

/-- The recovery window, byte by byte. -/
def recView (s : State) (off : Nat) : Byte :=
  let b := s.boot
  let part := fun (v k : Nat) => BitVec.ofNat 8 (v / 256 ^ k)
  if off = 0 then part b.recState 0
  else if off = 1 then part b.reason 0
  else if 8 ≤ off ∧ off < 0xC then part b.recArg.toNat (off - 8)
  else if 0xC ≤ off ∧ off < 0x10 then part b.recLen.toNat (off - 0xC)
  else if off = 0x10 then part b.recErr 0
  else if 0x20 ≤ off ∧ off < 0x30 then b.deviceId[off - 0x20]?.getD 0
  else if 0x40 ≤ off ∧ off < 0x80 then b.recData[off - 0x40]?.getD 0
  else 0

/-- The mailbox whose data window or control registers a function 1 address reaches. -/
def f1Box (off : Nat) : Option MbxId :=
  if 0x2000 ≤ off ∧ off < 0x2800 then some (Fin.ofNat 32 ((off - 0x2000) / 64))
  else if 0x2800 ≤ off ∧ off < 0x2880 then some (Fin.ofNat 32 ((off - 0x2800) / 4))
  else none

/-- A read of a mailbox of other parties (R581). -/
def f1Barred (s : State) (i : SdIf) (p : Port) (off : Nat) : Bool :=
  match f1Box off with
  | some n => !mbxOpen (f1Who s i p) n s
  | none => false

/-- The card interrupt of a function is pending: of function 1 while an EVT bit is set (R568, R582); no rule gives function 2 one. -/
def sdPending (x : Sd) : Byte := if x.evt = 0 then 0 else 2

/-- The interface raises the card interrupt of a function that its master has enabled (R567). -/
def sdInterrupt (x : Sd) : Bool := x.intEn.toNat.testBit 0 && (x.intEn &&& sdPending x) != 0

/-- Function 0, byte by byte: CCCR and FBR, and the CIS, whose bytes the spec does not give (R567; logs 81, 82). -/
def f0View (x : Sd) (off : Nat) : Byte :=
  let size := fun (n k : Nat) => BitVec.ofNat 8 (x.blk.toList.getD n 0 / 256 ^ k)
  match off with
  | 0x00 => 0x43
  | 0x01 => 0x03
  | 0x02 => x.ioEn
  | 0x03 => x.ioEn
  | 0x04 => x.intEn
  | 0x05 => sdPending x
  | 0x07 => x.busCtl
  | 0x08 => 0x03
  | 0x10 => size 0 0
  | 0x11 => size 0 1
  | 0x13 => BitVec.ofNat 8 (busSpeedView x)
  | 0x14 => (if 6 ≤ x.maxMode then 1 else 0) ||| (if 7 ≤ x.maxMode then 2 else 0) ||| (if 8 ≤ x.maxMode then 4 else 0)
  | 0x110 => size 1 0
  | 0x111 => size 1 1
  | 0x210 => size 2 0
  | 0x211 => size 2 1
  | _ => if 9 ≤ off ∧ off < 0x0C ∨ 0x109 ≤ off ∧ off < 0x10C ∨ 0x209 ≤ off ∧ off < 0x20C ∨ 0x1000 ≤ off
    then Config.cisByte off else 0

/-- A read by the host of port p over SDIO: at incrementing addresses, but for OD_FIFO, whose bytes it takes out. -/
def cardRead (p : Port) (a len : Nat) (s : State) : State :=
  let i := cardIf a
  let off := a % 0x10000
  let all := fun (f : Nat → Byte) => s.reply (.bytes ((List.range len).map fun k => f (off + k)))
  match cardFn a with
  | 0 => all (f0View (s.sd i))
  | 1 =>
    if s.recovers then all (recView s)
    else if off = 0x1000 ∧ s.portOf (sdIdx i) = some p then
      let got := (s.sd i).fifo
      (s.modSd i fun x => if x.odStatus == 1 then x else { x with fifo := got.drop len }).reply (.bytes (padTo len (got.take len)))
    else if off = 0x1000 then s.reply (.bytes (zeros len))
    else if (List.range len).any fun k => f1Barred s i p (off + k) then s.busErr
    else all (f1View s i p)
  | _ => all fun o =>
    if (s.sd i).f2En && decide (0x3F00 ≤ o) && decide (o < 0x3F04) then BitVec.ofNat 8 ((s.sd i).memAddr.toNat / 256 ^ (o - 0x3F00))
    else 0

/-! ## The rows -/

/-- The host of port p reaches the card: its interface is bound to the port or to none (R551), or the part is in recovery boot. -/
def cardReached (s : State) (p : Port) (a : Nat) : Bool :=
  decide (a < 0x60000) && s.sdOn (cardIf a) &&
    (s.recovers || s.portOf (sdIdx (cardIf a)) == some p || (s.portOf (sdIdx (cardIf a))).isNone)

/-- An access of the host of port p to its card, which is an SDIO command. -/
def cardAccess (p : Port) (a : Nat) (acc : Access) (s : State) : State :=
  if !cardReached s p a then s
  else match acc with
    | .word v => sdAccess (cardIf a) s (cardStore p a (leBytes 4 v.toNat) s)
    | .store bs _ => sdAccess (cardIf a) s (cardStore p a bs s)
    | .load len _ => sdAccess (cardIf a) s (cardRead p a len s)
    | .crcError => s.modSd (cardIf a) fun x => { x with crcErr := satAdd 255 x.crcErr 1 }
    | .tagged _ _ _ => s

/-- REGISTER_WRITE: an access of a master at an address; a port's host reaches the functions of its card. An access of an old
generation, which no target has accepted, is discarded and counted (R509). -/
def registerWriteEffect (m : Master) (a : Nat) (acc : Access) (s : State) : State :=
  match m with
  | .io p => cardAccess p a (Access.bare acc) s
  | m => if oldAccess s m acc then noteStale s (masterDomain m) else busStop m (busAccess m a acc) s

def execRegisterWrite (m : Master) (addr : Nat) (acc : Access) (s : State) : Out := .next (registerWriteEffect m addr acc s)

/-- CLR_STATS (R412). -/
def execClrStats (_m : Master) (s : State) : Out := .next (clrStatsEffect s)

/-- FUS_CTRL (R124), FUS_CSI_CTRL (R128), FUS_STR_CTRL (R130). -/
def execFusCtrl (m : Master) (v : Word) (s : State) : Out := .next (busStop m (fusWrite 0 v) s)
def execFusCsiCtrl (m : Master) (n : RxId) (v : Word) (s : State) : Out :=
  .next (busStop m (fusWrite (0x100 + 0x40 * n.val) v) s)
def execFusStrCtrl (m : Master) (st : StreamId) (v : Word) (s : State) : Out :=
  .next (busStop m (fusWrite (0x1000 + 0x20 * st.val) v) s)

/-- VFY_CTRL (R320). -/
def execVfyCtrl (m : Master) (v : Word) (s : State) : Out := .next (busStop m (vfyWrite 0 v) s)

/-- MBX_POST (R582) and MBX_ACK (R583). -/
def execMbxPost (m : Master) (n : MbxId) (len : BitVec 7) (s : State) : Out :=
  .next (busStop m (mbxPostEffect (mbxWho s m) n len) s)
def execMbxAck (m : Master) (n : MbxId) (s : State) : Out := .next (busStop m (mbxAckEffect (mbxWho s m) n) s)

/-- SAF_CLEAR bits 15:0 and bit 16 (R499), and SAF_WDT (R501): AON only. -/
def execSafClearCtx (m : Master) (bits : BitVec 16) (s : State) : Out := .next (busStop m (safClearCtxEffect m bits) s)
def execSafClearPart (m : Master) (s : State) : Out := .next (busStop m (safClearPartEffect m) s)
def execSafWdt (m : Master) (key : BitVec 16) (s : State) : Out := .next (busStop m (safWdtEffect m key) s)

end Sys2Proof.Machine
end

