-- ==== Sys2Proof/Machine/Dumps.lean ====
section
/-! DEFINITION. Crash dumps as AON reads and writes them (R536-R541). -/

namespace Sys2Proof.Machine

/-! ## The units of a section (R538) -/

/-- The words of a domain's units, in reading order. -/
def domainUnits (d : Nat) : List Nat :=
  if d < 18 then [128, 40, 160]
  else if d = 18 then [512, 256]
  else if d = 19 then [64, 192]
  else if d = 20 then List.replicate 8 64
  else if d = 21 then List.replicate 8 32 ++ [64]
  else [256]

/-- The sections of a dump: their domains, 30 standing for the status registers of the TDS and the Arbiter, with their units. -/
def DumpJob.sections (j : DumpJob) : List (Nat × List Nat) :=
  match j.domain with
  | some d => [(d.val, domainUnits d.val)]
  | none => (List.range 30).map (fun d => (d, domainUnits d)) ++ [(30, [512])]

/-- The units of a dump: domain, number within it, words. -/
def DumpJob.units (j : DumpJob) : List (Nat × Nat × Nat) :=
  j.sections.flatMap fun x => x.2.zipIdx.map fun (w, k) => (x.1, k, w)

/-- A word of a unit that the register tables do not show: core state, queues, pipeline and attempt state, capture registers (which
froze at the finding, R524), Recorder and cluster state (log 6). -/
opaque hiddenWord (s : State) (domain unit word : Nat) : Word

/-- The word that the side path reads: of a register window, the register (log 60). -/
def unitWord (s : State) (d u k : Nat) : Word :=
  let reg := fun (base : Nat) => BitVec.ofNat 32 ((regView s (base + 4 * k)).getD 0)
  if u = 0 ∧ d < 18 then reg (0x04000000 + d * 0x100000)
  else if u = 0 ∧ d = 18 then reg 0x0B000000
  else if u = 0 ∧ d = 19 then reg 0x0C000000
  else if 22 ≤ d ∧ d < 28 then reg (0x0D000000 + (d - 22) * 0x1000)
  else hiddenWord s d u k

/-! ## The summary and the sections (R539, R540) -/

/-- How the summary lays out its fields: dump sequence number, cause, then FRAME, STAMP, SAF_PCAUSE, SYS_ENG_ROLE, SYS_ENG_RET, SEQ
of the newest record. The spec gives no layout (log 6). -/
opaque summaryLayout (seq : Nat) (cause : DumpCause) (fields : List Nat) : Bytes

/-- A unit's state in a dump. -/
inductive UnitState where
  | read
  | unreadable
  | notTried
deriving DecidableEq, Repr

/-- How a dump lays out its units: domain, state, words. The spec gives no layout (log 6). -/
opaque sectionLayout (units : List (Nat × UnitState × List Word)) : Bytes

/-- The sections that fit 31 KiB, in their order (R540). -/
def fitting : Nat → List (Nat × List Nat) → List Nat
  | _, [] => []
  | room, x :: t =>
    let n := 4 * x.2.sum
    if n ≤ room then x.1 :: fitting (room - n) t else fitting room t

/-- The state of each unit of a dump at its end; `only` tells that it goes to retention SRAM alone. -/
def unitStates (d : Dump) (j : DumpJob) (only : Bool) : List UnitState :=
  let fit := fitting 31744 j.sections
  j.units.zipIdx.map fun (x, i) =>
    if only && !fit.contains x.1 then .notTried else if d.unread.contains i then .unreadable else .read

/-- The bytes of a dump: the words of the units that were read, with the state of each unit. -/
def sectionBytes (s : State) (j : DumpJob) (only : Bool) : Bytes :=
  sectionLayout ((j.units.zip (unitStates s.dump j only)).map fun ((d, u, n), st) =>
    (d, st, if st = .read then (List.range n).map (unitWord s d u) else []))

/-- DUMP_START: the next dump begins, with its summary. -/
def dumpStartEffect (s : State) : State :=
  let d := s.dump
  match d.queue with
  | [] => s
  | job :: rest =>
    if d.st = 1 then s
    else
      let n := (d.seq + 1) % 2 ^ 32
      let summary := padTo 1024 (summaryLayout n job.cause
        [faultFrame s 0xFF, s.now, pcause s, engRole s, s.roles.retired.toNat, s.faults.nextSeq])
      { s with dump := { d with
          st := 1, cur := some job, queue := rest, seq := n, timeouts := 0, unreadCount := 0, summary := summary
          unitAt := 0, wordAt := 0, readTo := s.now, unread := [] } }

def execDumpStart (s : State) : Out := .next (dumpStartEffect s)

/-! ## The side path (R536) -/

/-- The ACLK of an answered side-path read and of one that ends in a timeout: 1.28 µs (log 60) and 2 µs. -/
def answerTime : Nat := 512
def timeoutTime : Nat := 800

/-- Where reading stands after `n` more answered words: unit and word. `ws` are the words of the units from `unit` on. -/
def readOn : List Nat → (unit word n : Nat) → Nat × Nat
  | [], u, w, _ => (u, w)
  | k :: ks, u, w, n => if w + n < k then (u, w + n) else readOn ks (u + 1) 0 (w + n - k)

/-- SIDE_PATH_TIMEOUT: the read that ends now is the second timeout in a row within its unit, and the rest of the unit is unreadable;
or the unit's next word follows. -/
def sidePathEffect (s : State) : State :=
  let d := s.dump
  match d.cur with
  | none => s
  | some j =>
    let ws := j.units.map (·.2.2)
    let n := (s.now - timeoutTime - d.readTo) / answerTime
    let (u, w) := readOn (ws.drop d.unitAt) d.unitAt d.wordAt n
    if d.st ≠ 1 ∨ ws.length ≤ u then s
    else if d.timeouts = 1 ∧ n = 0 ∧ u = d.unitAt then
      { s with dump := { d with
          timeouts := 0, unreadCount := d.unreadCount + 1, unread := d.unread ++ [u], unitAt := u + 1, wordAt := 0, readTo := s.now } }
    else { s with dump := { d with timeouts := 1, unitAt := u, wordAt := w + 1, readTo := s.now } }

def execSidePathTimeout (s : State) : Out := .next (sidePathEffect s)

/-- DUMP_COMPLETE: the dump has been written to PSRAM, or to retention SRAM. -/
def dumpCompleteEffect (psramFailed : Bool) (s : State) : State :=
  let d := s.dump
  match d.cur with
  | none => s
  | some j =>
    if d.st ≠ 1 then s
    else
      let only := retained s j psramFailed
      let bs := sectionBytes s j only
      let s := if only then { s with dump := { d with st := 3, cur := none, ret := padTo 31744 bs } }
        else
          { s with
            psram := memWrite s.psram (oNat s 0x2400 0x12) (bs.take (oNat s 0x2400 0x13))
            dump := { d with st := 2, cur := none } }
      dueResets s

def execDumpComplete (psramFailed : Bool) (s : State) : Out := .next (dumpCompleteEffect psramFailed s)

end Sys2Proof.Machine
end

