-- ==== Sys2Proof/Machine/Dispatch.lean ====
section
/-! DEFINITION. One arm for each command. -/

namespace Sys2Proof.Machine

def exec (i : Instr) (s : State) : Host.Outcome State Fault Refusal :=
  match i with
  | .registerWrite m addr a => Sys2Proof.Machine.execRegisterWrite m addr a s
  | .frameStart c ecc => Sys2Proof.Machine.execFrameStart c ecc s
  | .syncInEdge => Sys2Proof.Machine.execSyncInEdge s
  | .syncEdgeTimeout c => Sys2Proof.Machine.execSyncEdgeTimeout c s
  | .aonFrameTimer ecc => Sys2Proof.Machine.execAonFrameTimer ecc s
  | .checkerTestComplete fail => Sys2Proof.Machine.execCheckerTestComplete fail s
  | .gridTick => Sys2Proof.Machine.execGridTick s
  | .snapshot p => Sys2Proof.Machine.execSnapshot p s
  | .fusCtrl m v => Sys2Proof.Machine.execFusCtrl m v s
  | .csiFrameStart st p => Sys2Proof.Machine.execCsiFrameStart st p s
  | .csiLongPacket st p => Sys2Proof.Machine.execCsiLongPacket st p s
  | .csiFrameEnd p => Sys2Proof.Machine.execCsiFrameEnd p s
  | .imageComplete st wrong => Sys2Proof.Machine.execImageComplete st wrong s
  | .streamTimeout st => Sys2Proof.Machine.execStreamTimeout st s
  | .extUpdateMessage k data => Sys2Proof.Machine.execExtUpdateMessage k data s
  | .fusCsiCtrl m n v => Sys2Proof.Machine.execFusCsiCtrl m n v s
  | .fusStrCtrl m st v => Sys2Proof.Machine.execFusStrCtrl m st v s
  | .loaderOperationStart => Sys2Proof.Machine.execLoaderOperationStart s
  | .loadComplete => Sys2Proof.Machine.execLoadComplete s
  | .deltaIn p c data => Sys2Proof.Machine.execDeltaIn p c data s
  | .deltaValidationComplete => Sys2Proof.Machine.execDeltaValidationComplete s
  | .deltaCopy c => Sys2Proof.Machine.execDeltaCopy c s
  | .audit p c v => Sys2Proof.Machine.execAudit p c v s
  | .auditComplete => Sys2Proof.Machine.execAuditComplete s
  | .takeRead m n => Sys2Proof.Machine.execTakeRead m n s
  | .tileDispatch => Sys2Proof.Machine.execTileDispatch s
  | .tileCommit m n handle d => Sys2Proof.Machine.execTileCommit m n handle d s
  | .verifyAttempt c => Sys2Proof.Machine.execVerifyAttempt c s
  | .verifyComplete c bad => Sys2Proof.Machine.execVerifyComplete c bad s
  | .release c => Sys2Proof.Machine.execRelease c s
  | .deadlineEdge c => Sys2Proof.Machine.execDeadlineEdge c s
  | .syncOutPulseEnd => Sys2Proof.Machine.execSyncOutPulseEnd s
  | .vfyCtrl m v => Sys2Proof.Machine.execVfyCtrl m v s
  | .engineStop n event src word => Sys2Proof.Machine.execEngineStop n event src word s
  | .scratchpadOwnerWrite m n b v => Sys2Proof.Machine.execScratchpadOwnerWrite m n b v s
  | .ownershipHandover n b => Sys2Proof.Machine.execOwnershipHandover n b s
  | .clippingPassRegion n bad => Sys2Proof.Machine.execClippingPassRegion n bad s
  | .eccWriteback n src word => Sys2Proof.Machine.execEccWriteback n src word s
  | .creditWindow => Sys2Proof.Machine.execCreditWindow s
  | .create m c t => Sys2Proof.Machine.execCreate m c t s
  | .ready m c t => Sys2Proof.Machine.execReady m c t s
  | .block m c t => Sys2Proof.Machine.execBlock m c t s
  | .delay m c t => Sys2Proof.Machine.execDelay m c t s
  | .wait m c t => Sys2Proof.Machine.execWait m c t s
  | .setprio m c t => Sys2Proof.Machine.execSetprio m c t s
  | .exit m c t => Sys2Proof.Machine.execExit m c t s
  | .signal m c => Sys2Proof.Machine.execSignal m c s
  | .coreTake m c irq => Sys2Proof.Machine.execCoreTake m c irq s
  | .tdsTick => Sys2Proof.Machine.execTdsTick s
  | .push f v => Sys2Proof.Machine.execPush f v s
  | .flowTake f => Sys2Proof.Machine.execFlowTake f s
  | .done f v => Sys2Proof.Machine.execDone f v s
  | .pop f => Sys2Proof.Machine.execPop f s
  | .arbCreditRefill => Sys2Proof.Machine.execArbCreditRefill s
  | .arbDecision r reqs => Sys2Proof.Machine.execArbDecision r reqs s
  | .backOffEnd r q => Sys2Proof.Machine.execBackOffEnd r q s
  | .clrStats m => Sys2Proof.Machine.execClrStats m s
  | .seed => Sys2Proof.Machine.execSeed s
  | .seedComplete => Sys2Proof.Machine.execSeedComplete s
  | .mark p v => Sys2Proof.Machine.execMark p v s
  | .replayStart p => Sys2Proof.Machine.execReplayStart p s
  | .replayPause p => Sys2Proof.Machine.execReplayPause p s
  | .replaySave p => Sys2Proof.Machine.execReplaySave p s
  | .replayResume p => Sys2Proof.Machine.execReplayResume p s
  | .replayStop p => Sys2Proof.Machine.execReplayStop p s
  | .replayEntry => Sys2Proof.Machine.execReplayEntry s
  | .throttleStepChange => Sys2Proof.Machine.execThrottleStepChange s
  | .testPulse => Sys2Proof.Machine.execTestPulse s
  | .pinReadback levelA levelB => Sys2Proof.Machine.execPinReadback levelA levelB s
  | .safeReq p c => Sys2Proof.Machine.execSafeReq p c s
  | .partReq p => Sys2Proof.Machine.execPartReq p s
  | .safReqCtx m bits => Sys2Proof.Machine.execSafReqCtx m bits s
  | .safReqPart m => Sys2Proof.Machine.execSafReqPart m s
  | .safeClear p c => Sys2Proof.Machine.execSafeClear p c s
  | .partClear p => Sys2Proof.Machine.execPartClear p s
  | .safClearCtx m bits => Sys2Proof.Machine.execSafClearCtx m bits s
  | .safClearPart m => Sys2Proof.Machine.execSafClearPart m s
  | .aonLockstepMismatch => Sys2Proof.Machine.execAonLockstepMismatch s
  | .safWdt m key => Sys2Proof.Machine.execSafWdt m key s
  | .watchdog => Sys2Proof.Machine.execWatchdog s
  | .clockFault k => Sys2Proof.Machine.execClockFault k s
  | .voltageFault out => Sys2Proof.Machine.execVoltageFault out s
  | .temperatureFault tj => Sys2Proof.Machine.execTemperatureFault tj s
  | .rotationOverdue => Sys2Proof.Machine.execRotationOverdue s
  | .testAgeExpiry => Sys2Proof.Machine.execTestAgeExpiry s
  | .goldenDigest n records => Sys2Proof.Machine.execGoldenDigest n records s
  | .goldenTimeout n => Sys2Proof.Machine.execGoldenTimeout n s
  | .goldenSlotEnd => Sys2Proof.Machine.execGoldenSlotEnd s
  | .laneTestComplete n failing => Sys2Proof.Machine.execLaneTestComplete n failing s
  | .storeAccess q => Sys2Proof.Machine.execStoreAccess q s
  | .sysRstReq m bits => Sys2Proof.Machine.execSysRstReq m bits s
  | .domainReset p d => Sys2Proof.Machine.execDomainReset p d s
  | .fenceComplete d => Sys2Proof.Machine.execFenceComplete d s
  | .domainResetEnd e => Sys2Proof.Machine.execDomainResetEnd e s
  | .domainWatchdog h => Sys2Proof.Machine.execDomainWatchdog h s
  | .storeLockstep m => Sys2Proof.Machine.execStoreLockstep m s
  | .scrubRead hits => Sys2Proof.Machine.execScrubRead hits s
  | .rowSpareCopyComplete => Sys2Proof.Machine.execRowSpareCopyComplete s
  | .ctxCtrlStart p c => Sys2Proof.Machine.execCtxCtrlStart p c s
  | .ctxCtrlStop p c => Sys2Proof.Machine.execCtxCtrlStop p c s
  | .drainComplete c => Sys2Proof.Machine.execDrainComplete c s
  | .teardown c => Sys2Proof.Machine.execTeardown c s
  | .dumpReq p => Sys2Proof.Machine.execDumpReq p s
  | .dumpStart => Sys2Proof.Machine.execDumpStart s
  | .sidePathTimeout => Sys2Proof.Machine.execSidePathTimeout s
  | .dumpComplete psramFailed => Sys2Proof.Machine.execDumpComplete psramFailed s
  | .wearRecordWrite t0 t1 t2 t3 => Sys2Proof.Machine.execWearRecordWrite t0 t1 t2 t3 s
  | .objectWrite a b => Sys2Proof.Machine.execObjectWrite a b s
  | .semGrant => Sys2Proof.Machine.execSemGrant s
  | .objectWriteComplete => Sys2Proof.Machine.execObjectWriteComplete s
  | .objectRead p index sub => Sys2Proof.Machine.execObjectRead p index sub s
  | .customerObjectAccess p index sub write reply => Sys2Proof.Machine.execCustomerObjectAccess p index sub write reply s
  | .customerServerTimeout p => Sys2Proof.Machine.execCustomerServerTimeout p s
  | .odCmdRead k => Sys2Proof.Machine.execOdCmdRead k s
  | .odCmdWrite k => Sys2Proof.Machine.execOdCmdWrite k s
  | .odCmdCancel k => Sys2Proof.Machine.execOdCmdCancel k s
  | .cmd0 r => Sys2Proof.Machine.execCmd0 r s
  | .cmd3 k => Sys2Proof.Machine.execCmd3 k s
  | .cmd5 k v18 => Sys2Proof.Machine.execCmd5 k v18 s
  | .cmd7 k rca => Sys2Proof.Machine.execCmd7 k rca s
  | .cmd11 k => Sys2Proof.Machine.execCmd11 k s
  | .cmd15 k rca => Sys2Proof.Machine.execCmd15 k rca s
  | .cmd19 k => Sys2Proof.Machine.execCmd19 k s
  | .resultOut k => Sys2Proof.Machine.execResultOut k s
  | .memWrite k data => Sys2Proof.Machine.execMemWrite k data s
  | .memRead k len => Sys2Proof.Machine.execMemRead k len s
  | .jointSample j => Sys2Proof.Machine.execJointSample j s
  | .sdoDownload n index sub data => Sys2Proof.Machine.execSdoDownload n index sub data s
  | .sdoUpload n index sub => Sys2Proof.Machine.execSdoUpload n index sub s
  | .usdoDownload n index sub data => Sys2Proof.Machine.execUsdoDownload n index sub data s
  | .usdoUpload n index sub => Sys2Proof.Machine.execUsdoUpload n index sub s
  | .xlRead h session index sub => Sys2Proof.Machine.execXlRead h session index sub s
  | .xlWrite h session index sub total last code data => Sys2Proof.Machine.execXlWrite h session index sub total last code data s
  | .xlData h session seg last code data => Sys2Proof.Machine.execXlData h session seg last code data s
  | .xlAck h session seg => Sys2Proof.Machine.execXlAck h session seg s
  | .xlAbort h session code => Sys2Proof.Machine.execXlAbort h session code s
  | .xlSessionTimeout n => Sys2Proof.Machine.execXlSessionTimeout n s
  | .nmtStart n => Sys2Proof.Machine.execNmtStart n s
  | .nmtStop n => Sys2Proof.Machine.execNmtStop n s
  | .nmtPreOperational n => Sys2Proof.Machine.execNmtPreOperational n s
  | .nmtResetCommunication n => Sys2Proof.Machine.execNmtResetCommunication n s
  | .nmtResetNode n => Sys2Proof.Machine.execNmtResetNode n s
  | .heartbeatProduce n => Sys2Proof.Machine.execHeartbeatProduce n s
  | .busOffRecovery n => Sys2Proof.Machine.execBusOffRecovery n s
  | .heartbeatReceived n node => Sys2Proof.Machine.execHeartbeatReceived n node s
  | .bootUpMessage n node => Sys2Proof.Machine.execBootUpMessage n node s
  | .heartbeatTimeout n node => Sys2Proof.Machine.execHeartbeatTimeout n node s
  | .mbxPost m n len => Sys2Proof.Machine.execMbxPost m n len s
  | .mbxAck m n => Sys2Proof.Machine.execMbxAck m n s
  | .flitReceive l f laneErrs => Sys2Proof.Machine.execFlitReceive l f laneErrs s
  | .nakFlit l expected => Sys2Proof.Machine.execNakFlit l expected s
  | .retryTimeout l => Sys2Proof.Machine.execRetryTimeout l s
  | .laneErrorWindow l => Sys2Proof.Machine.execLaneErrorWindow l s
  | .sparingEnd l => Sys2Proof.Machine.execSparingEnd l s
  | .trainingComplete l failed => Sys2Proof.Machine.execTrainingComplete l failed s
  | .helloFlit l h cl digest service => Sys2Proof.Machine.execHelloFlit l h cl digest service s
  | .admitFlit a seed => Sys2Proof.Machine.execAdmitFlit a seed s
  | .imageFlit handle kind data => Sys2Proof.Machine.execImageFlit handle kind data s
  | .entryFlit e => Sys2Proof.Machine.execEntryFlit e s
  | .reportFlit m tick epoch digest => Sys2Proof.Machine.execReportFlit m tick epoch digest s
  | .takeFlit m engine => Sys2Proof.Machine.execTakeFlit m engine s
  | .tileFlit d ctx station seq engine => Sys2Proof.Machine.execTileFlit d ctx station seq engine s
  | .resultFlit addr tag handle last d => Sys2Proof.Machine.execResultFlit addr tag handle last d s
  | .heartbeatFlit m => Sys2Proof.Machine.execHeartbeatFlit m s
  | .faultFlit m record => Sys2Proof.Machine.execFaultFlit m record s
  | .heartbeatSend => Sys2Proof.Machine.execHeartbeatSend s
  | .memberTimeout addr => Sys2Proof.Machine.execMemberTimeout addr s
  | .exclude p addr => Sys2Proof.Machine.execExclude p addr s
  | .admitOrder p addr => Sys2Proof.Machine.execAdmitOrder p addr s
  | .powerOnReset => Sys2Proof.Machine.execPowerOnReset s
  | .porstNRise => Sys2Proof.Machine.execPorstNRise s
  | .pwrgdCoreRise f => Sys2Proof.Machine.execPwrgdCoreRise f s
  | .pwrgdCoreTimeout => Sys2Proof.Machine.execPwrgdCoreTimeout s
  | .pwrgdCoreFall => Sys2Proof.Machine.execPwrgdCoreFall s
  | .programCfg k => Sys2Proof.Machine.execProgramCfg k s
  | .programFw k => Sys2Proof.Machine.execProgramFw k s
  | .programImage k => Sys2Proof.Machine.execProgramImage k s
  | .enrol k => Sys2Proof.Machine.execEnrol k s
  | .programCert k => Sys2Proof.Machine.execProgramCert k s
  | .restart k => Sys2Proof.Machine.execRestart k s
  | .attestNonce p nonce => Sys2Proof.Machine.execAttestNonce p nonce s
  | .attestComplete => Sys2Proof.Machine.execAttestComplete s
  | .imgRegister p data => Sys2Proof.Machine.execImgRegister p data s
  | .imageCheckComplete k => Sys2Proof.Machine.execImageCheckComplete k s
  | .imgUnregister p handle => Sys2Proof.Machine.execImgUnregister p handle s
  | .tagPoll answers => Sys2Proof.Machine.execTagPoll answers s
  | .tagReadComplete slot ok record => Sys2Proof.Machine.execTagReadComplete slot ok record s
  | .tagVerified slot nodeVendor nodeSerial => Sys2Proof.Machine.execTagVerified slot nodeVendor nodeSerial s
  | .napEntry n => Sys2Proof.Machine.execNapEntry n s
  | .dozeEntry => Sys2Proof.Machine.execDozeEntry s
  | .dozeWake w => Sys2Proof.Machine.execDozeWake w s
  | .hostDozeEntry => Sys2Proof.Machine.execHostDozeEntry s
  | .hostDozeWake => Sys2Proof.Machine.execHostDozeWake s
  | .offReq p => Sys2Proof.Machine.execOffReq p s
  | .rtcAlarm f => Sys2Proof.Machine.execRtcAlarm f s
  | .telemetryPoll r => Sys2Proof.Machine.execTelemetryPoll r s
  | .avsAdjust up ok => Sys2Proof.Machine.execAvsAdjust up ok s
  | .speedMonitorAlert => Sys2Proof.Machine.execSpeedMonitorAlert s
  | .vddAonReturn => Sys2Proof.Machine.execVddAonReturn s
  | .busOff e => Sys2Proof.Machine.execBusOff e s

end Sys2Proof.Machine
end

