-- ==== Sys2Proof/Safety.lean ====
section
/-! DEFINITION. The terms in which claims are made: a command that completes, what a command leaves alone, the canonical
form of the memories. -/

namespace Sys2Proof.Machine

/-- The command answers a next state of which something holds. -/
def Completes (c : Instr) (s : State) (p : State → Prop) : Prop := ∃ t, exec c s = .next t ∧ p t

/-- The command ends with a bus error and changes nothing else. -/
def BusErrorOnly (c : Instr) (s : State) : Prop := exec c s = .next { s with bus := .error }

/-- The command, sent by a master, ends with a bus error and changes nothing else; where the master is an engine, the bus error
stops its tile (R329). -/
def BusErrorBy (m : Master) (c : Instr) (s : State) : Prop := exec c s = .next (busStop m State.busErr s)

/-- The command changes nothing. -/
def ChangesNothing (c : Instr) (s : State) : Prop := exec c s = .next s

/-- The three byte memories are in their canonical form. -/
def MemInv (s : State) : Prop := Memory.wf s.store = true ∧ Memory.wf s.psram = true ∧ Memory.wf s.flash = true

/-! ## Threads and flows -/

/-- The argument of core c's next command (R407). -/
def State.arg (s : State) (c : CoreId) : Nat := s.tds.cores[c].arg.toNat

/-- A command of core m comes in its own turn: none of its commands has been carried out ahead, and no command of a lower-numbered core
waits to be carried out before it at this edge (R386; log 12). -/
def OwnTurn (m : CoreId) (s : State) : Prop :=
  m ∉ s.edgeTds.edge.early ∧
    ∀ k : CoreId, k < m → k ∈ s.edgeTds.edge.early ∨ (s.pending.find? fun i => issuer i == some k).bind asCoreCmd = none

/-- The record of the present edge: its threads may change, what was carried out ahead does not. -/
def SameEdge (s t : State) : Prop := t.tds.edge.at_ = s.now ∧ t.tds.edge.early = s.edgeTds.edge.early

/-- What a thread command leaves alone: everything but the threads, their lists, the core windows, the preemption requests
and the event flags. RESP of core c says OK, and no argument changes. -/
def ThreadFrame (c : CoreId) (s t : State) : Prop :=
  t = { s with
    bus := .ok 0
    tds := { s.tds with
      threads := t.tds.threads, readyQ := t.tds.readyQ, delayQ := t.tds.delayQ, cores := t.tds.cores, preempt := t.tds.preempt,
      events := t.tds.events, edge := t.tds.edge } } ∧
    SameEdge s t ∧ t.tds.cores[c].resp = 0 ∧ t.tds.cores[c].respDone = true ∧ ∀ k : CoreId, t.tds.cores[k].arg = s.tds.cores[k].arg

/-- The tiles of the engines that had an access to the store in flight go back among the ready ones, and only theirs (R524). -/
def TilesGoBack (inFlight : List EngId) (s t : State) : Prop :=
  (∀ n : EngId, n ∉ inFlight ∨ s.heldTile n = none → t.eng n = s.eng n) ∧
    (∀ x ∈ s.tds.tiles, (∀ n ∈ inFlight, x.status ≠ .held n) → x ∈ t.tds.tiles) ∧
    ∀ n ∈ inFlight, s.heldTile n ≠ none → (t.eng n).holding = none ∧ (t.eng n).st = .idle ∧
      (∀ x ∈ t.tds.tiles, x.status ≠ .held n) ∧
      ∀ x ∈ s.tds.tiles, x.status = .held n → x.discard = false → x.station ≠ stLoad → x.station ≠ stGolden →
        { x with status := .ready, redisp := true, notOn := if x.xchk then some n else none, defect := default } ∈ t.tds.tiles

/-- The block header of an XL frame (R578). -/
def XlHead (op index sub flags seg total : Nat) (code : Word) : Bytes :=
  [BitVec.ofNat 8 op, BitVec.ofNat 8 flags] ++ leBytes 2 index ++ [BitVec.ofNat 8 sub, 0] ++ leBytes 2 seg ++ leBytes 4 total ++
    leBytes 4 code.toNat

/-- Every thread but t stays as it was. -/
def OtherThreads (t : ThreadId) (s s' : State) : Prop := ∀ k : ThreadId, k ≠ t → s'.tds.threads[k] = s.tds.threads[k]

/-- Thread t has become READY at the tail of its list, or RUNNING at once on a core whose take read waited for it. -/
def MadeReady (t : ThreadId) (s s' : State) : Prop :=
  (s'.tds.threads[t].st = .ready ∧ s'.tds.readyQ = s.tds.readyQ ++ [t]) ∨
    (s'.tds.threads[t].st = .running ∧ s'.tds.readyQ = s.tds.readyQ ∧
      ∃ k : CoreId, s.tds.cores[k].stalled = true ∧ s'.tds.threads[t].aff.toNat.testBit k.val = true ∧
        s'.tds.cores[k].run = some t ∧ s'.tds.cores[k].stalled = false)

/-- A command that is not allowed: RESP reports a code, nothing else changes. -/
def Reports (cmd : Instr) (c : CoreId) (s : State) (code : BitVec 2) : Prop :=
  exec cmd s = .next { s with
    bus := .ok 0
    tds := { s.edgeTds with cores := vupd s.tds.cores c fun w => { w with resp := code, respDone := true } } }

/-- A command of core c that was carried out ahead of its turn answers, and does nothing more. -/
def DoneAhead (cmd : Instr) (c : CoreId) (s : State) : Prop :=
  exec cmd s = .next { s with
    bus := .ok 0
    tds := { s.edgeTds with edge := { s.edgeTds.edge with early := s.edgeTds.edge.early.filter fun k => k != c } } }

/-- No thread waits for event e. -/
def NoWaiter (e : Nat) (s : State) : Prop :=
  ∀ k : ThreadId, ¬(s.tds.threads[k].st = .blocked ∧ s.tds.threads[k].event = some (BitVec.ofNat 6 e))

/-- Every flow but f, and everything else but the bus's answer, stays as it was. -/
def FlowFrame (f : FlowId) (s t : State) : Prop :=
  t = { s with bus := t.bus, tds := { s.tds with flows := t.tds.flows } } ∧ ∀ k : FlowId, k ≠ f → t.tds.flows[k] = s.tds.flows[k]

/-! ## Frames over memory and engines -/

/-- No byte of the stacked store, of the PSRAM or of the boot flash changes. -/
def SameMemory (s t : State) : Prop := t.store = s.store ∧ t.psram = s.psram ∧ t.flash = s.flash

/-- No byte of the stacked store, of the PSRAM or of the boot flash changes outside the two sectors of the wear record. -/
def SameButWear (s t : State) : Prop :=
  t.store = s.store ∧ t.psram = s.psram ∧
    ∀ a, ¬(wearBase ≤ a ∧ a < wearBase + 8192) → memByte t.flash a = memByte s.flash a

/-- The wear record has been written with the next sequence number into its sector, signed with the device key in force; the other
copy stays. -/
def WearWritten (s t : State) : Prop :=
  t.wear.seq = (s.wear.seq + 1) % 2 ^ 32 ∧ t.flashWear[Fin.ofNat 2 t.wear.seq] = some t.wear ∧
    t.flashWear[Fin.ofNat 2 (t.wear.seq + 1)] = s.flashWear[Fin.ofNat 2 (t.wear.seq + 1)] ∧
    let at_ := wearSector t.wear.seq
    let bs := wearCopy s t.wear
    (Memory.wf s.flash = true → memRead t.flash at_ bs.length = bs) ∧
      ∀ a, ¬(at_ ≤ a ∧ a < at_ + bs.length) → memByte t.flash a = memByte s.flash a

/-- Every engine but n stays as it was. -/
def OtherEngines (n : EngId) (s t : State) : Prop := ∀ k : EngId, k ≠ n → t.eng k = s.eng k

/-- Every context but c stays as it was. -/
def OtherContexts (c : CtxId) (s t : State) : Prop := ∀ k : CtxId, k ≠ c → t.ctx k = s.ctx k

/-- A fault record of this code, engine and detail stands in the slot that the head named. -/
def Recorded (s t : State) (fcode domain engA detail : Nat) : Prop :=
  ∃ r : FaultRec, t.faults.ring[s.faults.head % 256]'(Nat.mod_lt _ (by decide)) = some r ∧ r.fcode = fcode ∧
    r.domain = domain ∧ r.engA = engA ∧ r.detail = detail ∧ r.stamp = s.now

/-! ## Mailboxes -/

/-- Every mailbox but n stays as it was. -/
def OtherBoxes (n : MbxId) (s t : State) : Prop := ∀ k : MbxId, k ≠ n → t.mbx.box[k] = s.mbx.box[k]

/-- A mailbox command moves only mailboxes, events and threads, the events of the SDIO interfaces, and a host cluster in DOZE. -/
def MbxFrame (s t : State) : Prop :=
  t = { s with
    bus := .ok 0, mbx := t.mbx, sda := { s.sda with evt := t.sda.evt }, sdb := { s.sdb with evt := t.sdb.evt }
    tds := { s.tds with
      threads := t.tds.threads, readyQ := t.tds.readyQ, cores := t.tds.cores, preempt := t.tds.preempt, events := t.tds.events
      edge := t.tds.edge }
    power := { s.power with hostDoze := t.power.hostDoze } }

/-! ## Frames, ticks, releases -/

/-- What no frame, tick or demand touches: the clocks, the Arbiter, SEM, the ports' answers, the images, the boot block,
the boot flash, the store maintenance. -/
def Aloof (s t : State) : Prop :=
  t.clk = s.clk ∧ t.arb = s.arb ∧ t.sem = s.sem ∧ t.portA = s.portA ∧ t.portB = s.portB ∧ t.images = s.images ∧
    t.boot = s.boot ∧ t.flash = s.flash ∧ t.scrub = s.scrub ∧ t.fus = s.fus ∧ t.pending = s.pending

/-- A world tick of the given period has been taken (R82). -/
def TickTaken (s t : State) (period : Nat) : Prop :=
  t.world.started = true ∧ t.world.period = period ∧
    t.world.tick = (s.world.tick + 1) % 2 ^ 48 ∧
    t.world.nt = (if s.world.started then (s.world.nt + s.world.period) % 2 ^ 64 else s.world.nt)

/-- The rotation step of a tick of the given period: taken if it is due, also in HALTED (R27), else nothing moves in the roles. -/
def StepTaken (s t : State) (period : Nat) : Prop :=
  if stepDue s period = true then
    t.roles.steps = s.roles.steps + 1 ∧ t.roles.lastStepAt = some s.now ∧ t.saf.chkRunning = true
  else t.roles = s.roles

/-- A context has counted a SYNC_IN edge; `miss` is its SYNC_MISS after it. -/
def EdgeCounted (s : State) (c : CtxId) (y : Ctx) (miss : Nat) : Prop :=
  let x := s.ctx c
  y = { x with lastEdge := some s.now, edgeCount := y.edgeCount, fDue := y.fDue, cnt := { x.cnt with syncMiss := miss } } ∧
    (x.st = .running → x.edgeCount + 1 < cNat s c 0x07 → y.edgeCount = x.edgeCount + 1 ∧ y.fDue = false) ∧
    (x.st = .running → cNat s c 0x07 ≤ x.edgeCount + 1 → y.edgeCount = 0 ∧ y.fDue = true) ∧
    (x.st = .starting → x.loading = [] → y.edgeCount = 0 ∧ y.fDue = true) ∧
    (x.st = .starting → x.loading ≠ [] → y.edgeCount = x.edgeCount ∧ y.fDue = false)

/-- A frame of context c has been released with a record: the record is the context's result and stands in its slot of the
result ring, and no tile of the frame is left but those that run and are to be discarded. -/
def Released (s t : State) (c : CtxId) (frame : Nat) (rec_ : Bytes) : Prop :=
  (t.ctx c).run = none ∧ (t.ctx c).result = rec_ ∧
    (Memory.wf s.store = true → ∀ g, s.region 10 c.val = some g →
      memRead t.store (storeBase + g.offset + frame % cNat s c 0x8A * 4096) rec_.length = rec_) ∧
    (∀ x ∈ t.tds.tiles, x.ctx = c.val → x.frame = frame →
      x.discard = true ∧ ((∃ n, x.status = .held n) ∨ ∃ a e, x.status = .dealt a e)) ∧
    ∀ x ∈ s.tds.tiles, x.ctx ≠ c.val → x ∈ t.tds.tiles

/-- What a release leaves alone. -/
def ReleaseFrame (c : CtxId) (s t : State) : Prop :=
  Aloof s t ∧ OtherContexts c s t ∧ t.engines = s.engines ∧ t.roles = s.roles ∧ t.world = s.world ∧ t.faults = s.faults ∧
    t.wear = s.wear ∧ t.power = s.power ∧ t.modules = s.modules ∧ t.loader = s.loader ∧ t.shadow = s.shadow ∧ t.force = s.force ∧
    t.dump = s.dump

/-! ## Ingress -/

/-- Every stream but k stays as it was. -/
def OtherStreams (k : StreamId) (s t : State) : Prop := ∀ j : StreamId, j ≠ k → t.fus.streams[j] = s.fus.streams[j]

/-- A packet has been seen by the receiver of stream k: the state of its lanes, and a header error that it corrected. -/
def Saw (k : StreamId) (h : HdrEcc) (lanes : LaneState) (s t : State) : Prop :=
  let one := h = .corrected
  (∀ j : RxId, j ≠ rxOf k → t.fus.rx[j] = s.fus.rx[j]) ∧
    t.fus.rx[(rxOf k)] = { s.fus.rx[(rxOf k)] with
      stopState := lanes.stop, clkHs := lanes.clkHs, dtIgn := t.fus.rx[(rxOf k)].dtIgn
      ecc1 := if one then min 255 (s.fus.rx[(rxOf k)].ecc1 + 1) else s.fus.rx[(rxOf k)].ecc1 } ∧
    t.fus.irq = if one then s.fus.irq ||| 32 else s.fus.irq

/-- An ingress command moves only the Fuse unit's registers, the inputs that wait for publication and the count of rejected
ones, and what a record, a fault record or an EMCY moves. -/
def IngressFrame (s t : State) : Prop :=
  t = { s with
    fus := t.fus, world := { s.world with inputs := t.world.inputs, updReject := t.world.updReject }
    recorder := t.recorder, psram := t.psram, links := t.links, hedge := t.hedge, faults := t.faults
    cn0 := t.cn0, cn1 := t.cn1, errField := t.errField, freeCount := t.freeCount }

/-! ## Object accesses -/

/-- The write that a command of one object stands for, and its port. -/
def ownWriteOf : Instr → Option (Port × ObjWrite)
  | .deltaIn p c data => some (p, ⟨0x2201 + c.val, 0x14, data⟩)
  | .audit p c v => some (p, ⟨0x2201 + c.val, 0x15, [v]⟩)
  | .mark p v => some (p, ⟨0x2700, 0x0E, leBytes 4 v.toNat⟩)
  | .replayStart p => some (p, ⟨0x2700, 0x10, [1]⟩)
  | .replayPause p => some (p, ⟨0x2700, 0x10, [2]⟩)
  | .replaySave p => some (p, ⟨0x2700, 0x10, [3]⟩)
  | .replayResume p => some (p, ⟨0x2700, 0x10, [4]⟩)
  | .replayStop p => some (p, ⟨0x2700, 0x10, [5]⟩)
  | .safeReq p c => some (p, ⟨0x2301 + c.val, 0x04, [1]⟩)
  | .partReq p => some (p, ⟨0x2300, 0x03, [1]⟩)
  | .safeClear p c => some (p, ⟨0x2301 + c.val, 0x05, [1]⟩)
  | .partClear p => some (p, ⟨0x2300, 0x04, [1]⟩)
  | .domainReset p d => some (p, ⟨0x2400, 0x18, [d]⟩)
  | .ctxCtrlStart p c => some (p, ⟨0x2000 + c.val, 0x01, [1]⟩)
  | .ctxCtrlStop p c => some (p, ⟨0x2000 + c.val, 0x01, [2]⟩)
  | .dumpReq p => some (p, ⟨0x2400, 0x14, [1]⟩)
  | .attestNonce p nonce => some (p, ⟨0x2500, 0x08, nonce⟩)
  | .imgRegister p data => some (p, ⟨0x2500, 0x10, data⟩)
  | .imgUnregister p h => some (p, ⟨0x2500, 0x11, leBytes 4 h.toNat⟩)
  | .exclude p a => some (p, ⟨0x2800, 0x0B, leBytes 2 a.toNat⟩)
  | .admitOrder p a => some (p, ⟨0x2800, 0x0C, leBytes 2 a.toNat⟩)
  | .offReq p => some (p, ⟨0x2600, 0x0F, [1]⟩)
  | _ => none

/-- A write of port p would be accepted now: objects are served, no check fails, and SEM is free with nothing waiting for it, or the
write is a stop order, which needs none. -/
def Accepts (s : State) (p : Port) (w : ObjWrite) : Prop :=
  s.serves = true ∧ writeAbort s p w = 0 ∧ ((s.sem.holder = none ∧ s.sem.waiting = []) ∨ (stopOrder w).isSome = true)

/-- The command is a write that is accepted. -/
def Accepted (s : State) (cmd : Instr) : Prop := ∃ p w, ownWriteOf cmd = some (p, w) ∧ Accepts s p w

/-- Port p has its answer, unless it is bound to no interface, the I/O cluster is held in reset, or the write came in an XL session that
has ended (R580). -/
def Answers (p : Port) (w : ObjWrite) (abort : Nat) (s t : State) : Prop :=
  s.faults.inReset.toNat.testBit 29 = false → s.ifOf p < 4 → w ∉ (s.port p).ended →
    (t.port p).answer = some { index := w.index, sub := w.sub, abort := BitVec.ofNat 32 abort, data := [] }

/-- Nothing but what an answer moves has moved: the ports and their interfaces. -/
def AnswerFrame (s t : State) : Prop :=
  t = { s with portA := t.portA, portB := t.portB, sda := t.sda, sdb := t.sdb, cn0 := t.cn0, cn1 := t.cn1 }

/-- What an accepted write that asks for SEM moves besides its effect: the answer, and SEM_LAST. -/
def Noted (p : Port) (w : ObjWrite) (s t : State) : Prop :=
  Answers p w 0 s t ∧ t.sem = { s.sem with lastIndex := w.index, lastSub := w.sub, lastPort := portNat p }

/-- No engine holds the code or the data of a context any more; its banks apart, nothing else of an engine moves. -/
def Unloaded (s t : State) : Prop :=
  ∀ n : EngId, (t.eng n = { s.eng n with
      ctxLoaded := 0, imemUsed := 0, imem := (t.eng n).imem, resident := (t.eng n).resident, banks := (t.eng n).banks }) ∧
    (∀ x ∈ (t.eng n).imem, 16 ≤ x.1) ∧ ∀ x ∈ (t.eng n).resident, 16 ≤ x.1

/-- No bank of an engine has changed hands. -/
def SameBanks (s t : State) : Prop := ∀ n : EngId, (t.eng n).banks = (s.eng n).banks

/-- What an entry put into the record ring moves. -/
def RecordFrame (s t : State) : Prop :=
  t = { s with recorder := t.recorder, psram := t.psram, links := t.links, hedge := t.hedge }

/-- The ring holds an entry at its old head: the Recorder records in ring mode without loss or a seed to keep, no entry of a later
tick stands in the ring, and the entry fits before the ring's end. -/
def RingTakes (s : State) (n : Nat) : Prop :=
  s.recorder.st = 1 ∧ s.faults.inReset.toNat.testBit 21 = false ∧ s.recorder.lost = 0 ∧ oNat s 0x2700 0x02 = 1 ∧
    newestSeed s.recorder = none ∧ (∀ x ∈ s.recorder.ents, x.tick ≤ s.world.tick) ∧ s.recorder.head + n ≤ recSize s ∧
    Memory.wf s.psram = true

/-- The command has done what `p` says, and its CAN frame has been noted for diagnosis (R427). -/
def HeardOn (n : CanIf) (c : Instr) (s : State) (p : State → Prop) : Prop :=
  ∃ t id data, exec c s = .next (noteCan t (canIdx n - 2) id data) ∧ p t

/-- What the port of a controller still waits for is answered to nobody, where its XL session was open (R580). -/
def SessionEnded (n : CanIf) (s t : State) : Prop :=
  ∀ p : Port, t.port p =
    if (s.can n).xl.isSome = true ∧ s.portOf (canIdx n) = some p then
      { s.port p with ended := portWrites s p, cust := (s.port p).cust.map fun q => { q with lost := true } }
    else s.port p

/-- The command of index `cmd` at an SDIO interface that answers has done what `p` says, and has been noted for diagnosis
(R427). -/
def HeardSd (i : SdIf) (cmd : Nat) (c : Instr) (s : State) (p : State → Prop) : Prop :=
  ∃ t arg, exec c s = .next (noteSdio t (sdIdx i) cmd arg) ∧ p t

/-! ## Safety -/

/-- What no demand touches: the world, the engines and their roles, the fault records, the objects, the memories outside the
result ring and the record ring. -/
def DemandFrame (s t : State) : Prop :=
  t.world = s.world ∧ t.engines = s.engines ∧ t.roles = s.roles ∧ t.faults = s.faults ∧ t.shadow = s.shadow ∧
    t.force = s.force ∧ t.clk = s.clk ∧ t.boot = s.boot ∧ t.images = s.images ∧ t.flash = s.flash ∧ t.arb = s.arb ∧
    t.wear = s.wear ∧ t.pending = s.pending

/-- An EMCY of this code stands first in the pre-defined error field, except in replay, on a member of a hedge (R610) or while the I/O
cluster is held in reset. -/
def Announced (s t : State) (ecode b3 : Nat) : Prop :=
  s.replaying = false → isMember s = false → s.faults.inReset.toNat.testBit 29 = false →
    t.errField.head? = some (BitVec.ofNat 32 (ecode + b3 * 2 ^ 16))

/-- A demand has put context c into SAFE with a cause: no frame that began outside SAFE is in progress. -/
def InSafe (s t : State) (c : CtxId) (cause : Nat) : Prop :=
  (t.ctx c).sstate = .safe ∧ (t.ctx c).cause = (s.ctx c).cause ||| BitVec.ofNat 3 (2 ^ cause) ∧
    (t.ctx c).clearPend = false ∧ (t.ctx c).satCount = min 65535 ((s.ctx c).satCount + 1) ∧
    ((s.ctx c).sstate ≠ .safe → ∀ r, (t.ctx c).run = some r → r.inSafe = true)

/-- A part cause has been latched. The first one puts the part into its safe state: FAULT_N low, every context outside STOPPED
in SAFE with cause PART, the pins at their safe levels, an EMCY; a persistent one has a full dump waiting. -/
def PartSafe (s t : State) (k : Nat) : Prop :=
  t.saf.causes = s.saf.causes ||| BitVec.ofNat 12 (2 ^ k) ∧
    (s.saf.causes ≠ 0 → t.ctxs = s.ctxs ∧ t.saf = { s.saf with causes := t.saf.causes, causeAt := t.saf.causeAt } ∧
      t.errField = s.errField) ∧
    (s.saf.causes = 0 → t.saf.faultLow = true ∧ Announced s t 0xFF03 0xFF ∧
      (∀ c, (s.ctx c).sstate ≠ .stopped → InSafe s t c 2) ∧ (∀ c, (s.ctx c).sstate = .stopped → t.ctx c = s.ctx c) ∧
      (s.saf.outEn = true → t.saf.driveA = false ∧ t.saf.driveB = true)) ∧
    (BitVec.ofNat 12 (2 ^ k) &&& 0x3CE ≠ 0 → s.saf.causes &&& BitVec.ofNat 12 (2 ^ k) = 0 →
      ∃ j ∈ t.dump.queue, j.domain = none)

/-- An engine has been retired for a reason: for good, out of work and reset; its wear record says so, and the part is
DEGRADED from the third on. -/
def Retired (s t : State) (n : EngId) (reason : Nat) : Prop :=
  t.retired n = true ∧ (∀ m, m ≠ n → t.retired m = s.retired m) ∧ t.working n = false ∧ (t.eng n).holding = none ∧
    t.wear.engReason[n] = reason ∧ (∀ m : EngId, m ≠ n → t.wear.engReason[m] = s.wear.engReason[m]) ∧
    t.roles.coppice ≠ some n ∧ t.roles.reserve ≠ some n ∧
    (s.replaying = false → isMember s = false → s.faults.inReset.toNat.testBit 29 = false →
      BitVec.ofNat 32 (0xFF05 + 0xFF * 2 ^ 16) ∈ t.errField) ∧
    (s.service < 3 → t.service = 3 → t.saf.causes = s.saf.causes ||| 0x80)

/-! ## Resets, contexts, dumps -/

/-- Domain d is held in reset from now on: its tag has advanced (once for a finding and its reset), its fence runs, and its
units hold nothing any more; no other domain's tag or reset changes, nor the store, the flash, the wear record, the safety
block, a context or an image. -/
def ResetBegun (s t : State) (d : DomainId) : Prop :=
  t.inReset d = true ∧ (∀ k, k ≠ d → t.inReset k = s.inReset k) ∧ t.faults.resetFrom[d] = s.now ∧
    t.faults.gen[d] = (if s.faults.resetDue.contains d then s.faults.gen[d] else (s.faults.gen[d] + 1) % 16) ∧
    (∀ k : DomainId, k ≠ d → t.faults.gen[k] = s.faults.gen[k]) ∧ d ∉ t.faults.resetDue ∧
    (d ∉ s.faults.resetDue → (d, s.now) ∈ t.faults.fences) ∧
    (∀ n : EngId, engDomain n = d → (t.eng n).st = (if (s.eng n).st = .off then .off else .reset) ∧ (t.eng n).holding = none ∧
      (∀ b : BankId, (t.eng n).banks[b] = { owner := 0, pending := [] }) ∧ (∀ x ∈ t.tds.tiles, x.status ≠ .held n) ∧
      ((s.tds.tiles.map (·.handle)).Nodup → ∀ x ∈ s.tds.tiles, s.lostWith n x = true → x.discard = false →
        x.station ≠ 14 → x.station ≠ 15 → ∃ y ∈ t.tds.tiles, y.handle = x.handle ∧ y.status = .fenced n)) ∧
    (∀ n : EngId, engDomain n ≠ d → t.eng n = s.eng n) ∧
    (∀ l : LinkId, 22 + l.val = d.val → (t.link l).st = .down ∧ (t.link l).retry = [] ∧ (s.link l).txQ <+: (t.link l).txQ) ∧
    (d = domFuse → s.replaying = false → t.world.inputs = [] ∧ t.world.launches = []) ∧
    (d ≠ domFuse → t.world = s.world) ∧
    (d = domVerifier → t.vfy.busy = none ∧ t.vfy.run = s.vfy.run ∧ t.vfy.irq = 0) ∧
    (d = domHost → t.boot.hostUp = false) ∧
    (d = domIo → t.sem.waiting = [] ∧ t.portA = default ∧ t.portB = default ∧ t.cn0 = default ∧ t.cn1 = default ∧
      t.sda.en = false ∧ t.sdb.en = false) ∧
    t.store = s.store ∧ t.flash = s.flash ∧ t.wear = s.wear ∧ t.saf = s.saf ∧ t.ctxs = s.ctxs ∧ t.images = s.images

end Sys2Proof.Machine
end

