-- ==== Sys2Proof/WellFormed.lean ====
section
/-! DEFINITION. Which commands can be sent: every operand fits the field that the spec gives it. The meanings do not rest on
it: a value that an object or a register refuses is well formed here and refused there. -/

namespace Sys2Proof

/-- A 64-bit physical address (R53). -/
def addrOk (a : Nat) : Bool := decide (a < 2 ^ 64)
/-- An unsigned field of w bits. -/
def fits (w v : Nat) : Bool := decide (v < 2 ^ w)
/-- A temperature: INTEGER8 (R683). -/
def tempOk (t : Int) : Bool := decide (-128 ≤ t) && decide (t ≤ 127)
/-- Object index and subindex. -/
def objOk (index sub : Nat) : Bool := fits 16 index && fits 8 sub
/-- An object write: what OD_FIFO holds at most (R568). -/
def objWriteOk (w : ObjWrite) : Bool := objOk w.index w.sub && decide (w.data.length ≤ 2 ^ 20)
/-- Brick numbers: bits [31:9] of the descriptor of R115. -/
def bricksOk (l : List Nat) : Bool := l.all (fits 23)
/-- A CSI-2 long packet: 6-bit data type, 16-bit word count (R107). -/
def packetOk (p : CsiPacket) : Bool := fits 6 p.dt && fits 16 p.payload.length
/-- A word offset within the scratchpad or the instruction RAM (R366). -/
def wordOk (w : Nat) : Bool := fits 19 w
/-- A shared-memory request: an address, a burst of at most 512 B (R398). -/
def storeReqOk (q : StoreReq) : Bool :=
  addrOk q.addr && fits 4 q.station && decide (q.len ≤ 512) && (match q.write with
    | some b => decide (b.length ≤ 512)
    | none => true)
/-- A line of the store (R19). -/
def hitOk (h : ScrubHit) : Bool := fits 1 h.die && fits 4 h.bank && fits 11 h.row && fits 7 h.line
/-- A CAN node number (R592). -/
def nodeOk (n : Nat) : Bool := decide (1 ≤ n) && decide (n ≤ 127)
/-- A flit (R594). -/
def flitOk (f : Flit) : Bool :=
  fits 16 f.dest && fits 16 f.src && fits 8 f.type && fits 8 f.ctx && decide (f.len ≤ 240) && fits 4 f.gen && fits 8 f.seq &&
    fits 8 f.ack && decide (f.payload.length ≤ 240)
/-- An XL segment: 2,032 B at most (R577). -/
def segOk (seg : Nat) (data : Bytes) : Bool := fits 16 seg && decide (data.length ≤ 2032)
/-- The identifying fields of an XL block frame: an 11-bit priority ID, 8-bit SDT and VCID, a 7-bit node-ID (R577). -/
def xlHeadOk (h : XlFrom) : Bool := fits 11 h.prio && fits 8 h.sdt && fits 8 h.vcid && fits 7 h.node
/-- The channels' densities: eight of them, of those that R682 lists, 0 for no answer. -/
def densitiesOk (l : List Nat) : Bool := decide (l.length = 8) && l.all fun n => [0, 8, 16, 32, 64].contains n
/-- What the part finds at power-up (R659). -/
def findingOk (f : BootFinding) : Bool :=
  densitiesOk f.psramMiB
/-- A module's answer: one of four buses, a 7-bit address (R646). -/
def pollOk (a : PollAnswer) : Bool := fits 2 a.bus && fits 7 a.addr

/-- What a tile meets: descriptor places of 23 bits, an offset in the search region (R177), candidates (R178) and
local numbers of what the engine reads (R135). -/
def defectOk (d : TileDefect) : Bool :=
  d.entries.all (fun e => fits 17 e.2) && bricksOk d.world && d.search.all (fits 22) &&
    d.skipped.all (fits 32) && d.early.all (fits 32)
/-- An access: a word at any address, else 1 to 256 bytes (R345), an error at a word of the scratchpad. -/
def accessOk : Access → Bool
  | .word _ => true
  | .store b bad => decide (1 ≤ b.length) && decide (b.length ≤ 256) && bad.all wordOk
  | .load n bad => decide (1 ≤ n) && decide (n ≤ 256) && bad.all wordOk
  | .tagged _ g acc => fits 4 g && accessOk acc
  | .crcError => true
/-- What a clipping pass reads back: 32 words for each of the two patterns (R348). -/
def clipOk (bad : List (Bool × Fin 32 × BitVec 72)) : Bool := decide (bad.length ≤ 64)

/-- The well-formed commands. -/
def Instr.wf : Instr → Bool
  | .registerWrite _ a acc => addrOk a && accessOk acc
  | .frameStart _ ecc | .aonFrameTimer ecc => bricksOk ecc
  | .csiFrameStart _ p => fits 16 p.frame
  | .csiLongPacket _ p => packetOk p
  | .deltaIn _ _ data => decide (data.length ≤ 2 ^ 20)
  | .tileCommit _ _ h d => fits 32 h && defectOk d
  | .snapshot p => p.bad.all (fits 17)
  | .goldenDigest _ b => decide (b.length ≤ 16384)
  | .clippingPassRegion _ bad => clipOk bad
  | .domainResetEnd e => e.psramMiB.isEmpty || densitiesOk e.psramMiB
  | .engineStop _ _ _ w | .eccWriteback _ _ w => wordOk w
  | .temperatureFault t => tempOk t
  | .storeAccess q => storeReqOk q
  | .scrubRead hits => hits.all hitOk
  | .wearRecordWrite a b c d => tempOk a && tempOk b && tempOk c && tempOk d
  | .objectWrite a b => a.all objWriteOk && b.all objWriteOk
  | .objectRead _ i k | .customerObjectAccess _ i k _ _ | .sdoDownload _ i k _ | .sdoUpload _ i k | .usdoDownload _ i k _
  | .usdoUpload _ i k => objOk i k
  | .xlRead h _ i k => xlHeadOk h && objOk i k
  | .xlWrite h _ i k total _ _ data => xlHeadOk h && objOk i k && fits 32 total && segOk 0 data
  | .xlData h _ seg _ _ data => xlHeadOk h && segOk seg data
  | .xlAck h _ seg => xlHeadOk h && fits 16 seg
  | .xlAbort h _ _ => xlHeadOk h
  | .jointSample j => decide (j.data.length ≤ 64)
  | .heartbeatReceived _ n | .bootUpMessage _ n | .heartbeatTimeout _ n => nodeOk n
  | .flitReceive _ f _ => flitOk f
  | .helloFlit _ _ cl _ v => fits 16 cl && fits 2 v
  | .imageFlit h k _ => fits 32 h && fits 8 k
  | .entryFlit e => decide (16 ≤ e.entry.length) && decide (e.entry.length % 16 = 0)
  | .reportFlit _ t _ _ => fits 48 t
  | .tileFlit d _ st q _ => fits 32 d.handle && fits 4 st && fits 32 q
  | .resultFlit _ _ h _ d => fits 32 h && defectOk d
  | .faultFlit _ r => decide (r.length = 32)
  | .pwrgdCoreRise f | .rtcAlarm f => findingOk f
  | .tagPoll l => l.all pollOk
  | .tagReadComplete _ _ r => decide (r.length ≤ 4096)
  | .tagVerified _ v n => fits 32 v && fits 32 n
  | .telemetryPoll r =>
    fits 16 r.statusWord && fits 16 r.vout && fits 16 r.iout && tempOk r.tjLogic && tempOk r.tjStore0 && tempOk r.tjStore1
  | .syncInEdge | .syncEdgeTimeout _ | .checkerTestComplete _ | .gridTick | .fusCtrl _ _ | .csiFrameEnd _
  | .imageComplete _ _ | .streamTimeout _ | .extUpdateMessage _ _ | .fusCsiCtrl _ _ _ | .fusStrCtrl _ _ _
  | .loaderOperationStart | .loadComplete | .deltaValidationComplete | .deltaCopy _ | .audit _ _ _ | .auditComplete
  | .takeRead _ _ | .tileDispatch | .verifyAttempt _ | .verifyComplete _ _ | .release _ | .deadlineEdge _ | .syncOutPulseEnd
  | .vfyCtrl _ _ | .scratchpadOwnerWrite _ _ _ _ | .ownershipHandover _ _ | .creditWindow
  | .create _ _ _ | .ready _ _ _ | .block _ _ _ | .delay _ _ _ | .wait _ _ _ | .setprio _ _ _ | .exit _ _ _ | .signal _ _
  | .coreTake _ _ _ | .tdsTick | .push _ _ | .flowTake _ | .done _ _ | .pop _ | .arbCreditRefill | .arbDecision _ _
  | .backOffEnd _ _ | .clrStats _ | .seed | .seedComplete | .mark _ _ | .replayStart _ | .replayPause _ | .replaySave _
  | .replayResume _ | .replayStop _ | .replayEntry | .throttleStepChange | .testPulse | .pinReadback _ _ | .safeReq _ _
  | .partReq _ | .safReqCtx _ _ | .safReqPart _ | .safeClear _ _ | .partClear _ | .safClearCtx _ _ | .safClearPart _
  | .aonLockstepMismatch | .safWdt _ _ | .watchdog | .clockFault _ | .voltageFault _ | .rotationOverdue | .testAgeExpiry
  | .goldenTimeout _ | .goldenSlotEnd | .laneTestComplete _ _ | .sysRstReq _ _ | .domainReset _ _
  | .fenceComplete _ | .domainWatchdog _ | .storeLockstep _ | .rowSpareCopyComplete | .ctxCtrlStart _ _
  | .ctxCtrlStop _ _ | .drainComplete _ | .teardown _ | .dumpReq _ | .dumpStart | .sidePathTimeout | .dumpComplete _
  | .semGrant | .objectWriteComplete | .customerServerTimeout _ | .odCmdRead _ | .odCmdWrite _ | .odCmdCancel _ | .cmd0 _
  | .cmd3 _ | .cmd5 _ _ | .cmd7 _ _ | .cmd11 _ | .cmd15 _ _ | .cmd19 _ | .resultOut _ | .memWrite _ _ | .memRead _ _
  | .xlSessionTimeout _ | .nmtStart _ | .nmtStop _ | .nmtPreOperational _
  | .nmtResetCommunication _ | .nmtResetNode _ | .heartbeatProduce _ | .busOffRecovery _ | .mbxPost _ _ _ | .mbxAck _ _
  | .nakFlit _ _ | .retryTimeout _ | .laneErrorWindow _ | .sparingEnd _ | .trainingComplete _ _ | .admitFlit _ _
  | .takeFlit _ _ | .heartbeatFlit _ | .heartbeatSend | .memberTimeout _ | .exclude _ _ | .admitOrder _ _ | .powerOnReset
  | .porstNRise | .pwrgdCoreTimeout | .pwrgdCoreFall | .programCfg _ | .programFw _ | .programImage _ | .enrol _
  | .programCert _ | .restart _ | .attestNonce _ _ | .attestComplete | .imgRegister _ _ | .imageCheckComplete _
  | .imgUnregister _ _ | .napEntry _ | .dozeEntry | .dozeWake _ | .hostDozeEntry | .hostDozeWake | .offReq _
  | .avsAdjust _ _ | .speedMonitorAlert | .vddAonReturn | .busOff _ => true

end Sys2Proof
end

