-- ==== Sys2Proof/Certificates/Slice0/Obligations.lean ====
section
/-! DEFINITION. The statements for the provers. Every statement quantifies over every state, reachable or not. -/

open Sys2Proof Sys2Proof.Machine

/-! ### The queue, the tick, reset -/

/-- A step takes the command at the front of the queue and runs it with the queue's rest. -/
def Obligations.StepRunsFront : Prop :=
  ∀ (c : Instr) (rest : List Instr) (s : State), s.pending = c :: rest → step s = exec c { s with pending := rest }

/-- On an empty queue a step is one ACLK (the model's choice, log 2): time advances by one, each partition is charged for
the tiles that engines hold (R377), and nothing but the clocks, the partitions, the engines' busy counts and the supply
moves. -/
def Obligations.IdleStepIsOneTick : Prop :=
  ∀ s : State, s.pending = [] →
    ∃ t, step s = .next t ∧ t.clk.now = s.clk.now + 1 ∧
      (∀ p : Fin 8, t.tds.parts[p].credit = s.tds.parts[p].credit - heldOf s p ∧
        t.tds.parts[p].share = s.tds.parts[p].share ∧ t.tds.parts[p].lastUsed = s.tds.parts[p].lastUsed) ∧
      (∀ n : EngId, t.eng n = { s.eng n with perfBusy := (t.eng n).perfBusy, queued := (t.eng n).queued } ∧
        ((s.eng n).holding = none → (t.eng n).queued = (s.eng n).queued) ∧
        ((s.eng n).st = .run → (t.eng n).perfBusy = ((s.eng n).perfBusy + 1) % 2 ^ 32) ∧
        ((s.eng n).st ≠ .run → (t.eng n).perfBusy = (s.eng n).perfBusy)) ∧
      (s.boot.phase ≠ .coreOff → t.boot = s.boot) ∧
      t = { s with clk := t.clk, engines := t.engines, tds := { s.tds with parts := t.tds.parts }, boot := t.boot }

/-- No command sends a command: a step uses up exactly the one at the front, and an idle step none. -/
def Obligations.StepUsesOneCommand : Prop :=
  ∀ s t : State, step s = .next t → t.pending = s.pending.tail

/-- The byte memories keep their canonical form: addresses rising, no byte 0 listed. -/
def Obligations.MemoriesStayCanonical : Prop :=
  ∀ s t : State, MemInv s → step s = .next t → MemInv t

/-- The memories after reset are in their canonical form. -/
def Obligations.ResetIsCanonical : Prop := MemInv State.reset

/-- What the registers read as right after a power-on reset: the Reset columns of the register tables. -/
def Obligations.ResetRegisters : Prop :=
  ∀ x ∈ ([(0x02000100, 0x1110), (0x02000104, 0), (0x02000108, 0xFFFF), (0x0B000000, 0), (0x0B000004, 0), (0x0B000100, 6),
      (0x0B000140, 6), (0x0B0001C0, 6), (0x0C000000, 0), (0x0C000020, 0x1F), (0x04000000, 0x30), (0x04000050, 1),
      (0x04500050, 1), (0x08000000, 0), (0x08000110, 0x80000000), (0x0A000100, 0x080808), (0x0A00017C, 0x080808),
      (0x0A000200, 4095), (0x0A00027C, 4095), (0x09000040, 4), (0x09000FC0, 4), (0x09008000, 0), (0x02000240, 0x1F00),
      (0x0E000000, 0x180), (0x0E010000, 0x180), (0x0E020000, 0), (0x0D000000, 2), (0x0D005000, 2), (0x0F000004, 0x10),
      (0x0F000020, 0x3E801F), (0x0F000024, 0x1F), (0x01000080, 0x140001), (0x01000090, 0x640000), (0x03000100, 0x1904E),
      (0x030001E0, 0x1904E)] : List (Nat × Nat)),
    regView State.reset x.1 = some x.2

/-! ### Threads and flows (R385-R397, R407, R411) -/

/-- The eight thread commands of a core at its own window, in its turn and in the states that R386 allows: what each does to the
thread, its lists and the event flags. -/
def Obligations.ThreadCommandsRun : Prop :=
  ∀ (c : CoreId) (t : ThreadId) (s : State), s.tds.cores[c].stalled = false → OwnTurn c s →
    let a := s.arg c
    let th := s.tds.threads[t]
    let owns := s.tds.cores[c].run = some t ∧ th.st = .running
    let e : BitVec 6 := BitVec.ofNat 6 a
    let sig : BitVec 6 := BitVec.ofNat 6 (48 + a % 16)
    (th.st = .dormant → a / 32 % 32 ≠ 0 → Completes (.create c c t) s fun u =>
      ThreadFrame c s u ∧ OtherThreads t s u ∧ MadeReady t s u ∧ u.tds.threads[t].prio = BitVec.ofNat 5 a ∧
        u.tds.threads[t].aff = BitVec.ofNat 5 (a / 32) ∧ u.tds.delayQ = s.tds.delayQ ∧ u.tds.events = s.tds.events) ∧
    (th.st = .blocked → Completes (.ready c c t) s fun u =>
      ThreadFrame c s u ∧ OtherThreads t s u ∧ MadeReady t s u ∧ u.tds.threads[t].prio = th.prio ∧
        u.tds.threads[t].aff = th.aff ∧ u.tds.delayQ = s.tds.delayQ ∧ u.tds.events = s.tds.events) ∧
    (owns → Completes (.block c c t) s fun u =>
      ThreadFrame c s u ∧ OtherThreads t s u ∧ u.tds.threads[t] = { th with st := .blocked, event := none } ∧
        u.tds.cores[c].run = none ∧ u.tds.readyQ = s.tds.readyQ ∧ u.tds.delayQ = s.tds.delayQ ∧
        u.tds.events = s.tds.events ∧ u.tds.preempt = s.tds.preempt) ∧
    (owns → a ≠ 0 → Completes (.delay c c t) s fun u =>
      ThreadFrame c s u ∧ OtherThreads t s u ∧ u.tds.threads[t] = { th with st := .delayed } ∧
        u.tds.cores[c].run = none ∧ u.tds.delayQ = delayIns (s.tds.tick + a) t s.tds.delayQ ∧
        u.tds.readyQ = s.tds.readyQ ∧ u.tds.events = s.tds.events ∧ u.tds.preempt = s.tds.preempt) ∧
    (owns → Completes (.wait c c t) s fun u =>
      ThreadFrame c s u ∧ OtherThreads t s u ∧ u.tds.readyQ = s.tds.readyQ ∧ u.tds.delayQ = s.tds.delayQ ∧
        if s.tds.events.toNat.testBit e.toNat then
          u.tds.events = s.tds.events &&& ~~~(1#64 <<< e.toNat) ∧ u.tds.threads[t] = th ∧ u.tds.cores[c].run = some t
        else
          u.tds.events = s.tds.events ∧ u.tds.threads[t] = { th with st := .blocked, event := some e } ∧
            u.tds.cores[c].run = none) ∧
    (th.st ≠ .dormant → Completes (.setprio c c t) s fun u =>
      ThreadFrame c s u ∧ OtherThreads t s u ∧ u.tds.threads[t] = { th with prio := BitVec.ofNat 5 a } ∧
        u.tds.delayQ = s.tds.delayQ ∧ u.tds.events = s.tds.events ∧ u.tds.preempt = s.tds.preempt ∧
        u.tds.readyQ = if th.st = .ready then s.tds.readyQ.filter (· != t) ++ [t] else s.tds.readyQ) ∧
    (th.st ≠ .dormant → Completes (.exit c c t) s fun u =>
      ThreadFrame c s u ∧ OtherThreads t s u ∧ u.tds.threads[t].st = .dormant ∧ t ∉ u.tds.readyQ ∧
        (∀ x ∈ u.tds.delayQ, x.2 ≠ t) ∧ u.tds.events = s.tds.events ∧
        ∀ k : CoreId, s.tds.cores[k].run = some t → (∀ j : CoreId, s.tds.cores[j].run = some t → j = k) →
          u.tds.cores[k].run = none ∧ u.tds.preempt.toNat.testBit k.val = true) ∧
    Completes (.signal c c) s fun u =>
      ThreadFrame c s u ∧ u.tds.delayQ = s.tds.delayQ ∧
        ((∀ k : ThreadId, ¬(s.tds.threads[k].st = .blocked ∧ s.tds.threads[k].event = some sig)) →
          u.tds.events = s.tds.events ||| (1#64 <<< sig.toNat) ∧ u.tds.threads = s.tds.threads ∧
            u.tds.readyQ = s.tds.readyQ) ∧
        ∀ k : ThreadId, s.tds.threads[k].st = .blocked → s.tds.threads[k].event = some sig →
          u.tds.events = s.tds.events ∧ (u.tds.threads[k].st = .ready ∨ u.tds.threads[k].st = .running)

/-- A thread command whose state or argument is not allowed changes nothing but RESP; at another core's window it ends with a
bus error. Commands of one edge are carried out in ascending core number, whatever their order in the queue (R386): one that waits
behind a command of a higher-numbered core comes before it, and then only answers in its own place. -/
def Obligations.ThreadCommandsRefused : Prop :=
  ∀ (m c : CoreId) (t : ThreadId) (s : State),
    (m ≠ c → OwnTurn m s → BusErrorOnly (.create m c t) s ∧ BusErrorOnly (.ready m c t) s ∧ BusErrorOnly (.block m c t) s ∧
      BusErrorOnly (.delay m c t) s ∧ BusErrorOnly (.wait m c t) s ∧ BusErrorOnly (.setprio m c t) s ∧
      BusErrorOnly (.exit m c t) s ∧ BusErrorOnly (.signal m c) s) ∧
    (m ≠ c → ∀ irq, BusErrorOnly (.coreTake m c irq) s) ∧
    (∀ k : ThreadId, m < c → OwnTurn m s → c ∉ s.edgeTds.edge.early →
      (∀ j : CoreId, j < c → j ≠ m → (s.pending.find? fun i => issuer i == some j).bind asCoreCmd = none) →
      s.pending.find? (fun i => issuer i == some m) = some (.ready m m k) → (∀ j : CoreId, s.tds.cores[j].stalled = false) →
      t ≠ k → s.tds.threads[t].st = .blocked → s.tds.threads[k].st = .blocked →
      Completes (.ready c c t) s fun u =>
        u.tds.readyQ = s.tds.readyQ ++ [k, t] ∧ u.tds.threads[k].st = .ready ∧ u.tds.threads[t].st = .ready ∧
          m ∈ u.tds.edge.early ∧ u.tds.edge.at_ = s.now ∧ u.pending = s.pending) ∧
    (c ∈ s.edgeTds.edge.early → DoneAhead (.create c c t) c s ∧ DoneAhead (.ready c c t) c s ∧ DoneAhead (.block c c t) c s ∧
      DoneAhead (.delay c c t) c s ∧ DoneAhead (.wait c c t) c s ∧ DoneAhead (.setprio c c t) c s ∧
      DoneAhead (.exit c c t) c s ∧ DoneAhead (.signal c c) c s) ∧
    (s.tds.cores[c].stalled = false → OwnTurn c s →
      let st := s.tds.threads[t].st
      let owns := s.tds.cores[c].run = some t ∧ st = .running
      (st ≠ .dormant → Reports (.create c c t) c s 1) ∧
      (st = .dormant → s.arg c / 32 % 32 = 0 → Reports (.create c c t) c s 2) ∧
      (st ≠ .blocked → Reports (.ready c c t) c s 1) ∧
      (¬owns → Reports (.block c c t) c s 1 ∧ Reports (.delay c c t) c s 1 ∧ Reports (.wait c c t) c s 1) ∧
      (owns → s.arg c = 0 → Reports (.delay c c t) c s 2) ∧
      (st = .dormant → Reports (.setprio c c t) c s 1 ∧ Reports (.exit c c t) c s 1))

/-- A take read of a core: its own RUNNING thread goes to the tail first; of the READY threads that the core may run, the
read returns one of the highest priority, which is then RUNNING on the core; with none it stalls, or returns VALID = 0 where
an interrupt is pending (R388). No other core waits. -/
def Obligations.CoreTakeReturnsTheBest : Prop :=
  ∀ (c : CoreId) (irq : Bool) (s : State), (∀ k : CoreId, s.tds.cores[k].stalled = false) →
    let q := s.tds.readyQ ++ s.tds.cores[c].run.toList
    let may := fun t : ThreadId => t ∈ q ∧ s.tds.threads[t].aff.toNat.testBit c.val = true
    Completes (.coreTake c c irq) s fun u =>
      u = { s with bus := u.bus, tds := { s.tds with threads := u.tds.threads, readyQ := u.tds.readyQ, cores := u.tds.cores
                                                     preempt := u.tds.preempt, edge := u.tds.edge } } ∧
      SameEdge s u ∧
      ((∃ t, may t) → ∃ t, may t ∧ (∀ k, may k → s.tds.threads[t].prio.toNat ≤ s.tds.threads[k].prio.toNat) ∧
        u.tds.cores[c].run = some t ∧ u.tds.threads[t].st = .running ∧ u.tds.readyQ = q.filter (· != t) ∧
        u.bus = .ok (t.val + s.tds.threads[t].prio.toNat * 2 ^ 8 + 2 ^ 31)) ∧
      ((∀ t, ¬may t) → u.tds.cores[c].run = none ∧ u.tds.readyQ = q ∧ u.tds.cores[c].stalled = !irq ∧
        u.bus = if irq then .ok 0 else .stalled)

/-- A tick of the TDS: at its edge every thread of the delay list whose wake tick has come is READY or RUNNING and leaves the
list, the others keep their places; before the edge nothing happens (R393, R394). -/
def Obligations.TdsTickWakes : Prop :=
  ∀ s : State,
    (125 * (s.tds.tick + 1) / 4 ≤ s.aoclk → Completes .tdsTick s fun u =>
      u.tds.tick = s.tds.tick + 1 ∧ u.tds.delayQ = s.tds.delayQ.filter (fun x => x.1 != s.tds.tick + 1) ∧
        (∀ x ∈ s.tds.delayQ, x.1 = s.tds.tick + 1 → u.tds.threads[x.2].st = .ready ∨ u.tds.threads[x.2].st = .running) ∧
        (∀ t : ThreadId, (∀ x ∈ s.tds.delayQ, x.1 = s.tds.tick + 1 → x.2 ≠ t) → u.tds.threads[t] = s.tds.threads[t]) ∧
        u = { s with tds := { s.tds with tick := u.tds.tick, threads := u.tds.threads, readyQ := u.tds.readyQ
                                         delayQ := u.tds.delayQ, cores := u.tds.cores, preempt := u.tds.preempt
                                         edge := u.tds.edge } } ∧ SameEdge s u) ∧
    (s.aoclk < 125 * (s.tds.tick + 1) / 4 → ChangesNothing .tdsTick s)

/-- An ordered flow: a push takes the next slot in circular order, a take the oldest untaken item, DONE completes a taken slot,
a pop releases the oldest slot once it is done; a push into 128 slots and a DONE of a slot that is not taken end with a bus
error (R395-R397). -/
def Obligations.FlowsKeepOrder : Prop :=
  ∀ (f : FlowId) (v : Word) (s : State),
    let fl := s.tds.flows[f]
    let k := v.toNat / 2 ^ 24 % 2 ^ 7
    (fl.slots.length < 128 → Completes (.push f v) s fun t =>
      FlowFrame f s t ∧ t.bus = .ok 0 ∧ t.tds.flows[f].next = (fl.next + 1) % 128 ∧
        t.tds.flows[f].slots = fl.slots ++ [{ slot := fl.next, item := v.setWidth 24, st := .pushed }]) ∧
    (128 ≤ fl.slots.length → BusErrorOnly (.push f v) s) ∧
    (∀ a x b, fl.slots = a ++ x :: b → (∀ y ∈ a, y.st ≠ .pushed) → x.st = .pushed → (∀ y ∈ a ++ b, y.slot ≠ x.slot) →
      Completes (.flowTake f) s fun t =>
        FlowFrame f s t ∧ t.bus = .ok (x.item.toNat + x.slot * 2 ^ 24 + 2 ^ 31) ∧ t.tds.flows[f].next = fl.next ∧
          t.tds.flows[f].slots = a ++ { x with st := .taken } :: b) ∧
    ((∀ y ∈ fl.slots, y.st ≠ .pushed) → exec (.flowTake f) s = .next { s with bus := .ok 0 }) ∧
    (∀ a x b, fl.slots = a ++ x :: b → x.slot = k → x.st = .taken → (∀ y ∈ a ++ b, y.slot ≠ k) →
      Completes (.done f v) s fun t =>
        t.bus = .ok 0 ∧ t.tds.flows[f].slots = a ++ { x with st := .done (v.setWidth 24) } :: b ∧
          t.tds.flows[f].next = fl.next ∧ (a ≠ [] → FlowFrame f s t) ∧
          (a = [] → NoWaiter (48 + f.val) s → t.tds.events.toNat.testBit (48 + f.val) = true) ∧
          ∀ j : FlowId, j ≠ f → t.tds.flows[j] = s.tds.flows[j]) ∧
    ((∀ y ∈ fl.slots, ¬(y.slot = k ∧ y.st = .taken)) → BusErrorOnly (.done f v) s) ∧
    (∀ x r b, fl.slots = x :: b → x.st = .done r → Completes (.pop f) s fun t =>
      t.bus = .ok (r.toNat + x.slot * 2 ^ 24 + 2 ^ 31) ∧ t.tds.flows[f].slots = b ∧ t.tds.flows[f].next = fl.next ∧
        ((∀ y r', b.head? = some y → y.st ≠ .done r') → FlowFrame f s t) ∧
        (∀ y r', b.head? = some y → y.st = .done r' → NoWaiter (48 + f.val) s →
          t.tds.events.toNat.testBit (48 + f.val) = true) ∧
        ∀ j : FlowId, j ≠ f → t.tds.flows[j] = s.tds.flows[j]) ∧
    ((∀ x, fl.slots.head? = some x → ∀ r, x.st ≠ .done r) → exec (.pop f) s = .next { s with bus := .ok 0 })

/-! ### Arbiter and mailboxes (R399-R401, R412, R582, R583, R589) -/

/-- A window refill: each requester of an idle resource gains floor(1024 w / ΣW), held to -4,096 to +2,048; a resource whose
weights sum to 0 keeps its credit. A back-off that has been waited out ends. CLR_STATS clears every ARB_STATr. -/
def Obligations.ArbiterCreditsAndStats : Prop :=
  ∀ s : State,
    (s.sclk % 1024 = 0 → Completes .arbCreditRefill s fun t =>
      t = { s with arb := { s.arb with cells := t.arb.cells, chargedTo := t.arb.chargedTo } } ∧
        ∀ (r : ResId) (q : ReqId), s.arb.holder[r] = none →
          t.arb.cell r q = { s.arb.cell r q with
            credit := if s.arb.weightSum r = 0 then (s.arb.cell r q).credit
              else clampI (-4096) 2048 ((s.arb.cell r q).credit + (1024 * s.arb.weight r q / s.arb.weightSum r : Nat)) }) ∧
    (s.sclk % 1024 ≠ 0 → ChangesNothing .arbCreditRefill s) ∧
    (∀ (r : ResId) (q : ReqId) (u : Nat), (s.arb.cell r q).backUntil = some u → u ≤ s.sclk →
      Completes (.backOffEnd r q) s fun t =>
        t = { s with arb := { s.arb with cells := t.arb.cells } } ∧
          t.arb.cell r q = { s.arb.cell r q with backUntil := none } ∧
          ∀ (r' : ResId) (q' : ReqId), (r', q') ≠ (r, q) → t.arb.cell r' q' = s.arb.cell r' q') ∧
    (∀ m, Completes (.clrStats m) s fun t =>
      t = { s with bus := .ok 0, arb := { s.arb with maxWait := t.arb.maxWait, forced := t.arb.forced } } ∧
        ∀ q : ReqId, t.arb.maxWait[q] = 0 ∧ t.arb.forced[q] = 0)

/-- A decision at a free resource where no mirror copy waits: a request with an old generation tag of its domain is discarded and
counted (R509). Of the others the winner is an eligible request; a forced one (its wait has
reached its limit) with the longest wait where there is one, else one with the highest credit; among equals, and in a class whose
weights sum to 0, the lowest number.
It holds the resource for its burst, and its wait counts into ARB_STATr. -/
def Obligations.ArbiterGrants : Prop :=
  ∀ (r : ResId) (reqs : List ArbReq) (s : State), s.arb.busyUntil[r] ≤ s.sclk → s.arb.copyDue[r] = 0 →
    (reqs.map (·.req)).Nodup →
    let live := reqs.filter (ofPresent s)
    let a := (dropStale r reqs s).arb.charge r s.sclk
    let b := a.bid r s.sclk
    (∃ q ∈ live, (b q).eligible = true) →
    Completes (.arbDecision r reqs) s fun t =>
      t = { s with
        arb := t.arb, power := { s.power with chLong := t.power.chLong, chSplits := t.power.chSplits }
        faults := { s.faults with stale := t.faults.stale, staleDomain := t.faults.staleDomain } } ∧
        (s.faults.stale ≤ 65535 →
          t.faults.stale = min 65535 (s.faults.stale + (reqs.filter fun q => !ofPresent s q).length)) ∧
        (∀ x q, reqs.filter (fun q => !ofPresent s q) = x ++ [q] → t.faults.staleDomain = domainOf q.req) ∧
        ∃ w ∈ live, t.arb.holder[r] = some w.req ∧ (b w).eligible = true ∧
          t.arb.busyUntil[r] = s.sclk + occupancy s.power r w ∧
          t.arb.maxWait[w.req] = min 65535 (max s.arb.maxWait[w.req] (b w).wait) ∧
          (∀ k : ResId, k ≠ r → t.arb.busyUntil[k] = s.arb.busyUntil[k] ∧ t.arb.holder[k] = s.arb.holder[k]) ∧
          ∀ q ∈ live, (b q).eligible = true → q.req ≠ w.req →
            ((b q).forced = true → (b w).forced = true ∧
              ((b q).wait < (b w).wait ∨ ((b q).wait = (b w).wait ∧ w.req < q.req))) ∧
            ((b w).forced = false → if s.arb.weightSum r = 0 then w.req < q.req else
              (a.cell r q.req).credit < (a.cell r w.req).credit ∨
                ((a.cell r q.req).credit = (a.cell r w.req).credit ∧ w.req < q.req))

/-- A mailbox holds one message at a time: the sender's post of 1-64 B into an EMPTY one makes it FULL and wakes the receiver (a host
cluster in DOZE with it), the receiver's acknowledgement makes it EMPTY and tells the sender; a post or a data write while FULL, and
any access by another party (a port bound to no SDIO interface is none), end with a bus error and change nothing (but for the tile of
an engine that tries, which stops). Mailbox 31 emptied while an access to a customer object waits takes its message at once (R552). A
write of MBX_ACK without bit 0 acknowledges nothing. -/
def Obligations.MailboxHandshake : Prop :=
  ∀ (m : Master) (n : MbxId) (len : BitVec 7) (s : State),
    let b := s.mbx.box[n]
    (mbxWho s m = some b.sender → b.full = false → 1 ≤ len.toNat → len.toNat ≤ 64 →
      Completes (.mbxPost m n len) s fun t =>
        MbxFrame s t ∧ OtherBoxes n s t ∧ t.mbx.box[n] = { b with full := true, len := len } ∧
          t.mbx.emptied = s.mbx.emptied ∧ t.mbx.emptiedEn = s.mbx.emptiedEn ∧
          (b.receiver = 2 → s.ifOf .a = 0 → t.sda.evt = s.sda.evt ||| 0x10000) ∧
          (b.receiver = 3 → s.ifOf .b = 1 → t.sdb.evt = s.sdb.evt ||| 0x10000) ∧
          (b.receiver = 0 → t.power.hostDoze = false) ∧ (b.receiver ≠ 0 → t.power = s.power) ∧
          (b.receiver.toNat < 2 → NoWaiter n.val s → t.tds.events.toNat.testBit n.val = true)) ∧
    (mbxWho s m ≠ some b.sender ∨ b.full = true ∨ len.toNat = 0 ∨ 64 < len.toNat → BusErrorBy m (.mbxPost m n len) s) ∧
    (mbxWho s m = some b.receiver → b.full = true → n = 31 → ∀ p, customDue s = some p → Completes (.mbxAck m n) s fun t =>
      OtherBoxes n s t ∧ (∃ l d, t.mbx.box[n] = { b with len := l, data := d } ∧ 1 ≤ l.toNat ∧ l.toNat ≤ 64 ∧ d.length = 64) ∧
        t.mbx.emptied = s.mbx.emptied ||| BitVec.ofNat 32 (2 ^ n.val) ∧
        (t.port p).cust = (s.port p).cust.map fun q => { q with posted := true }) ∧
    (mbxWho s m = some b.receiver → b.full = true → n ≠ 31 ∨ customDue s = none → Completes (.mbxAck m n) s fun t =>
      MbxFrame s t ∧ OtherBoxes n s t ∧ t.mbx.box[n] = { b with full := false } ∧ t.tds = s.tds ∧
        t.mbx.emptied = s.mbx.emptied ||| BitVec.ofNat 32 (2 ^ n.val) ∧ t.mbx.emptiedEn = s.mbx.emptiedEn ∧
        (b.sender = 2 → s.ifOf .a = 0 → t.sda.evt = s.sda.evt ||| 0x20000)) ∧
    (mbxWho s m ≠ some b.receiver ∨ b.full = false → BusErrorBy m (.mbxAck m n) s) ∧
    (∀ v : Word, v.toNat.testBit 0 = false → m = .aon ∨ m = .host 0 →
      (mbxParty m = some b.receiver → b.full = true →
        exec (.registerWrite m (0x09000000 + n.val * 0x80 + 0x48) (.word v)) s = .next { s with bus := .ok 0 }) ∧
      (mbxParty m ≠ some b.receiver ∨ b.full = false →
        BusErrorOnly (.registerWrite m (0x09000000 + n.val * 0x80 + 0x48) (.word v)) s)) ∧
    (∀ (k : Nat) (v : Word), k < 16 → m = .aon ∨ m = .host 0 → mbxParty m ≠ some b.sender ∨ b.full = true →
      BusErrorOnly (.registerWrite m (0x09000000 + n.val * 0x80 + 4 * k) (.word v)) s)

/-! ### Engines and tiles (R28-R31, R329, R341, R342, R347, R348, R366-R371, R377, R381, R410) -/

/-- The counters and banks of an engine: a corrected error is counted and its source noted; the clipping pass moves to the
next region, and from the last one to region 0 with one pass more; a handover is asked for by the owner or AON, and takes
effect when its turn comes and no transfer is queued for the bank, unless a context runs and a serving engine would lose the
bank; at a multiple of 40,000 ACLK every partition's credit is set from its share and the working
engines. -/
def Obligations.EngineCountersAndBanks : Prop :=
  ∀ (n : EngId) (s : State),
    (s.retired n = false → s.boot.phase = .on → ∀ (src : Fin 4) (w : Nat), w < 2 ^ 19 →
      exec (.eccWriteback n src w) s = .next (s.modEng n fun e =>
        { e with eccCe := min 65535 (e.eccCe + 1), eccSrc := src.val, eccAddr := w })) ∧
    (clipRuns s n = true →
      ∀ bad, clipMismatch bad = false → Completes (.clippingPassRegion n bad) s fun t =>
        t = s.modEng n (fun e => { e with
          core := { e.core with saveBuf := e.bytesAt n (256 * e.clipRegion) 256 }
          clipRegion := (t.eng n).clipRegion, clipPasses := (t.eng n).clipPasses, clipStep := (t.eng n).clipStep }) ∧
          ((s.eng n).clipRegion ≠ 16383 → (t.eng n).clipRegion = (s.eng n).clipRegion + 1 ∧
            (t.eng n).clipPasses = (s.eng n).clipPasses) ∧
          ((s.eng n).clipRegion = 16383 → (t.eng n).clipRegion = 0 ∧
            (t.eng n).clipPasses = ((s.eng n).clipPasses + 1) % 65536)) ∧
    (∀ (b : BankId) (v : Word) (m : Master),
      let k := (s.eng n).banks[b]
      let left := k.pending.getLast?.getD k.owner
      let may := m = .aon ∨ (m = .engine n ∧ left = 0) ∨ (∃ h, m = .host h ∧ left = 1)
      let free := s.retired n = false ∧ s.inReset (engDomain n) = false
      let frozen := s.anyRuns = true ∧ (s.working n = true ∨ s.roles.coppice = some n) ∧ v.setWidth 2 ≠ left
      (free → may → ¬frozen → Completes (.scratchpadOwnerWrite m n b v) s fun t =>
        t = { s with bus := .stalled, engines := t.engines } ∧ OtherEngines n s t ∧
          t.eng n = { s.eng n with banks := (t.eng n).banks } ∧
          (t.eng n).banks[b] = { k with pending := k.pending ++ [v.setWidth 2] } ∧
          ∀ j : BankId, j ≠ b → (t.eng n).banks[j] = (s.eng n).banks[j]) ∧
      (¬free ∨ ¬may ∨ frozen → BusErrorBy m (.scratchpadOwnerWrite m n b v) s) ∧
      (dmaFor (s.eng n) b = true → ChangesNothing (.ownershipHandover n b) s) ∧
      (∀ o rest, k.pending = o :: rest → dmaFor (s.eng n) b = false →
        let taken := s.anyRuns = true ∧ (s.working n = true ∨ s.roles.coppice = some n) ∧ o ≠ k.owner
        Completes (.ownershipHandover n b) s fun t =>
          t = { s with bus := if taken then .error else .ok 0, engines := t.engines } ∧ OtherEngines n s t ∧
            t.eng n = { s.eng n with banks := (t.eng n).banks } ∧
            (t.eng n).banks[b] = { owner := if taken then k.owner else o, pending := rest } ∧
            ∀ j : BankId, j ≠ b → (t.eng n).banks[j] = (s.eng n).banks[j])) ∧
    (s.now % 40000 = 0 → Completes .creditWindow s fun t =>
      t = { s with tds := { s.tds with parts := t.tds.parts } } ∧
        ∀ p : Fin 8,
          t.tds.parts[p].credit = (s.tds.parts[p].share * popCount 18 s.roles.working.toNat * 40000 / 256 : Nat) ∧
          t.tds.parts[p].share = s.tds.parts[p].share ∧ t.tds.parts[p].lastUsed = s.tds.parts[p].used % 2 ^ 20) ∧
    (s.now % 40000 ≠ 0 → ChangesNothing .creditWindow s)

/-- An engine that stops outside a golden frame and a start test, for the first time in 1,000 rotation steps. Where no rotation step
waits at the same edge it is STOPPED and holds nothing,
its generation tag advances, a record ENGINE_STOP names it with the event, its tiles wait for the fence to be dispatched
again, it is queued for the coppice role; no memory changes, nor any engine but it and the coppice engine. A mismatch of the
clipping pass does so with event 6 and notes the region. A rotation step of the same edge comes first (R514). -/
def Obligations.EngineStopIsFound : Prop :=
  ∀ (n : EngId) (s : State), engineLive s n = true → (∀ x, s.heldTile n = some x → x.station ≠ 15) →
    s.roles.bringIn ≠ some (n, 1) → retireReason s n false = none → (s.tds.tiles.map (·.handle)).Nodup →
    let Found := fun (t : State) (event : Nat) =>
      (t.eng n).st = .stopped ∧ (t.eng n).holding = none ∧ (t.eng n).faulty = true ∧
        t.faults.gen[(engDomain n)] = (s.faults.gen[(engDomain n)] + 1) % 16 ∧
        Recorded s t 0x0101 n.val n.val event ∧ SameMemory s t ∧
        (∀ k, k ≠ n → s.roles.coppice ≠ some k → t.eng k = s.eng k) ∧
        (s.retired n = false → n ∈ t.roles.steer) ∧
        ∀ x ∈ s.tds.tiles, s.lostWith n x = true → x.discard = false → x.station ≠ 14 → x.station ≠ 15 →
          ∃ y ∈ t.tds.tiles, y.handle = x.handle ∧ y.status = .fenced n ∧ y.redisp = true ∧ y.notOn = some n
    (stepWaits s = true → ∀ (event : Fin 6) (src : Fin 4) (w : Nat), Completes (.engineStop n event src w) s fun t =>
      t.roles.steps = s.roles.steps + 1 ∧ t.roles.lastStepAt = some s.now ∧ (t.eng n).st = .stopped ∧ (t.eng n).holding = none ∧
        (t.eng n).faulty = true ∧ t.faults.gen[(engDomain n)] = (s.faults.gen[(engDomain n)] + 1) % 16) ∧
    (stepWaits s = false → ∀ (event : Fin 6) (src : Fin 4) (w : Nat), Completes (.engineStop n event src w) s fun t =>
      Found t (event.val + 1) ∧
        (event = 0 → (t.eng n).eccUe = min 255 ((s.eng n).eccUe + 1) ∧ (t.eng n).eccFlag = true) ∧
        (event = 5 → (t.eng n).clipFail = true ∧ (t.eng n).clipFailRegion = (s.eng n).clipRegion)) ∧
    (stepWaits s = false → clipRuns s n = true → ∀ bad, clipMismatch bad = true → Completes (.clippingPassRegion n bad) s fun t =>
      Found t 6 ∧ (t.eng n).clipFail = true ∧ (t.eng n).clipFailRegion = (s.eng n).clipRegion)

/-- Taking and committing tiles: a take read by an engine that holds none waits; one by another master ends with a bus error.
A commit of a context load frees the engine and notes the load; that of a golden frame leaves its digest to be judged; that of a
GROW tile makes its wave's CHECK tiles ready (the model's reading, log 8); the first copy of a cross-checked tile waits for the other. A commit by another master ends with a bus error, and one at whose edge the
engine is found faulty commits nothing (R371). -/
def Obligations.TakeAndCommit : Prop :=
  ∀ (n : EngId) (s : State),
    (∀ m, m ≠ .engine n → BusErrorBy m (.takeRead m n) s ∧ ∀ h d, BusErrorBy m (.tileCommit m n h d) s) ∧
    (engineLive s n = true → (s.eng n).holding = none → isMember s = false →
      exec (.takeRead (.engine n) n) s = .next { (s.modEng n fun e =>
        { e with waiting := true, st := .takeWait, idleFrom := s.now }) with bus := .stalled }) ∧
    (∀ (h : Nat) (d : TileDefect), engineLive s n = true → (s.eng n).holding = some h → stopWaits s n = true →
      exec (.tileCommit (.engine n) n h d) s = .next { s with bus := .none }) ∧
    (∀ (h : Nat) (x : Tile) (d : TileDefect), engineLive s n = true → (s.eng n).holding = some h → stopWaits s n = false →
      s.tile h = some x →
      let Freed := fun (t : State) =>
        t.bus = .ok 0 ∧ OtherEngines n s t ∧ SameMemory s t ∧ (t.eng n).holding = none ∧ (t.eng n).st = .idle ∧
          (t.eng n).idleFrom = s.now ∧ (t.eng n).perfTiles = ((s.eng n).perfTiles + 1) % 2 ^ 32
      (x.station = 14 → x.discard = false → x.ctx < 16 → Completes (.tileCommit (.engine n) n h d) s fun t =>
        Freed t ∧ t.tds = { s.tds with tiles := s.tds.tiles.filter fun y => y.handle != h } ∧
          (t.eng n).ctxLoaded = (s.eng n).ctxLoaded ||| BitVec.ofNat 16 (2 ^ x.ctx) ∧
          OtherContexts (Fin.ofNat 16 x.ctx) s t ∧
          (t.ctx (Fin.ofNat 16 x.ctx)).loading = (s.ctx (Fin.ofNat 16 x.ctx)).loading.filter fun e => e != n) ∧
      (x.station = 15 → x.discard = false → Completes (.tileCommit (.engine n) n h d) s fun t =>
        Freed t ∧ t.ctxs = s.ctxs ∧ t.tds = { s.tds with tiles := t.tds.tiles } ∧
          t.tile h = some { x with status := .committed n s.chip }) ∧
      (x.station = 2 → x.discard = false → x.xchk = false → x.ctx < 16 → (∀ y ∈ s.hedge.dealtHere, y.own ≠ h) → d.search = none →
        ∀ r, s.run (Fin.ofNat 16 x.ctx) = some r → r.ready = none →
        Completes (.tileCommit (.engine n) n h d) s fun t =>
          Freed t ∧ t.ctxs = s.ctxs ∧ ∀ q ∈ r.tileSlots, x.seq ≤ q.1 →
            ∃ y ∈ t.tds.tiles, y.ctx = x.ctx ∧ y.frame = r.frame ∧ y.station = 3 ∧ y.seq = q.1 ∧ y.status = .ready) ∧
      (x.station = 3 ∨ x.station = 4 → x.discard = false → x.xchk = true → x.ctx < 16 →
        (∀ y ∈ s.hedge.dealtHere, y.own ≠ h) →
        (∃ o, otherCopy s x = some o ∧ ∀ e c, o.status ≠ .waitsCopy e c) →
        Completes (.tileCommit (.engine n) n h d) s fun t =>
          Freed t ∧ (d.search = none → t.tile h = some { x with status := .waitsCopy n s.chip, defect := d }) ∧
            (d.search = none → d.entries = [] → d.world = [] → t.ctxs = s.ctxs)))

/-- A dispatch to an engine of this chip: of the ready tiles that the engine's role allows, none comes before the one it is
given in the order of R381; the engine holds it, its take read returns the handle, and no other engine or tile is touched.
While TDS_CTRL.RUN = 0 nothing is dispatched. -/
def Obligations.DispatchTakesTheFirst : Prop :=
  ∀ (n : EngId) (s : State),
    (s.tds.run = false → ChangesNothing .tileDispatch s) ∧
    (s.tds.run = true → s.boot.phase = .on → s.hedge.takes = [] → takes s n = true → goldenDue s n = false →
      inSlot s n = false → loadDue s n = none → dealtFor s n = none →
      (∀ k : EngId, k < n → takes s k = false) → (s.tds.tiles.map (·.handle)).Nodup →
      (∃ x ∈ s.tds.tiles, allowed s n x = true) →
      Completes .tileDispatch s fun t =>
        ∃ x ∈ s.tds.tiles, allowed s n x = true ∧
          (∀ y ∈ s.tds.tiles, allowed s n y = true → keyBefore (dispatchKey s y) (dispatchKey s x) = false) ∧
          t.bus = .ok x.handle ∧ (t.eng n).holding = some x.handle ∧ (t.eng n).waiting = false ∧
          t.tile x.handle = some { x with status := .held n, since := s.now } ∧ OtherEngines n s t ∧ SameMemory s t ∧
          (∀ y ∈ s.tds.tiles, y.handle ≠ x.handle → y ∈ t.tds.tiles) ∧ t.ctxs = s.ctxs ∧ t.roles = s.roles)

/-! ### Frame starts, ticks, SYNC_IN (R14-R16, R27, R82, R90, R91, R190, R424, R565) -/

/-- A frame start of a live context (outside replay): the frame begins with the next number, plans against the tick in
force, and takes the objects written before this edge; the pacing context takes the tick and the rotation step. Where no
frame start falls, the command changes nothing. -/
def Obligations.FrameStartBegins : Prop :=
  ∀ (c : CtxId) (ecc : List Nat) (s : State), s.replaying = false →
    let x := s.ctx c
    let n := if x.st = .starting then leNat (shadowVal s (0x2000 + c.val) 0x09) else (x.frameNo + 1) % 2 ^ 48
    let paces := ∀ d : CtxId, d < c → (s.ctx d).st ≠ .running
    (liveF s c = false → ChangesNothing (.frameStart c ecc) s) ∧
    (liveF s c = true → Completes (.frameStart c ecc) s fun t =>
      (t.ctx c).st = .running ∧ (t.ctx c).frameNo = n ∧ (t.ctx c).lastF = some s.now ∧ (t.ctx c).fDue = false ∧
        (∃ r, (t.ctx c).run = some r ∧ r.frame = n ∧ r.f = s.now ∧ r.tf = t.world.tick ∧ r.snapped = false ∧ r.ready = none ∧
          r.step = t.power.inForce ∧ r.service = t.service ∧ r.inSafe = ((t.ctx c).sstate == .safe) ∧
          r.candMax = cutCount t.service (cNat t c 0xA0) t.power.inForce ((x.plan.getD default).candMax) ∧
          r.waves = cutCount t.service (cNat t c 0xA0) t.power.inForce ((x.plan.getD default).waves)) ∧
        (((boundaryShadow s).map (·.1)).Nodup → ∀ sub v d, sub < 256 → objDef (0x2000 + c.val) sub = some d → d.acc = .rwf →
          amGet (boundaryShadow s) (objKey (0x2000 + c.val) sub) = some v → forceVal t (0x2000 + c.val) sub = v) ∧
        (paces → TickTaken s t (cNat s c 0x04) ∧ StepTaken s t (cNat s c 0x04)) ∧
        (¬paces → t.world = s.world ∧ t.roles = s.roles ∧ OtherContexts c s t) ∧
        Aloof s t ∧ t.shadow = s.shadow ∧ t.wear = s.wear)

/-- The AON frame timer ticks each millisecond while the part is READY and no context runs, and not otherwise; a seed that is due
at the tick is captured right after its publication. -/
def Obligations.TimerTicks : Prop :=
  ∀ (ecc : List Nat) (s : State), s.replaying = false →
    let due := s.serves = true ∧ (∀ c, (s.ctx c).st ≠ .running) ∧ isMember s = false ∧ s.now % 400000 = 0
    (¬due → ChangesNothing (.aonFrameTimer ecc) s) ∧
    (due → Completes (.aonFrameTimer ecc) s fun t =>
      TickTaken s t 1000 ∧ StepTaken s t 1000 ∧ Aloof s t ∧ t.shadow = s.shadow ∧ t.wear = s.wear ∧
        (s.fus.run = true → ∃ p, t.world.pubs.getLast? = some p ∧ p.tick = t.world.tick ∧ p.epoch = t.world.epoch ∧
          p.crown = t.world.crown ∧ p.at_ = s.now) ∧
        (s.fus.run = false → t.world.crown = s.world.crown ∧ t.world.epoch = s.world.epoch ∧ t.world.inputs = s.world.inputs) ∧
        (let n := oNat t 0x2700 0x07
         let seeds := n ≠ 0 ∧ t.recorder.st = 1 ∧ t.world.tick % n = 0 ∧ s.loader = []
         (seeds → t.recorder.due = some
           { tick := t.world.tick, world := t.world
             ctxs := (allCtx.filter fun c => (t.ctx c).active).map (seedCtx t s.now), strict := oNat t 0x2700 0x01, step := t.power.inForce
             service := t.service }) ∧
         (¬seeds → t.recorder.due = none)))

/-- A rotation step while no engine is being brought in: the engine steered to it, or else the next higher one of the
rotation set, wrapping, takes the coppice role (in REDUCED the test role alone), and the one that held it works again. -/
def Obligations.RotationMovesTheRole : Prop :=
  ∀ (ecc : List Nat) (s : State) (k : EngId), s.replaying = false → s.serves = true → (∀ c, (s.ctx c).st ≠ .running) →
    isMember s = false → s.now % 400000 = 0 → s.roles.lastStepAt ≠ some s.now → s.tds.run = true → s.service ≠ 3 → s.roles.bringIn = none →
    s.roles.coppice = some k → s.working k = false →
    (∀ e ∈ s.roles.steer, s.retired e = false ∧ s.roles.reserve ≠ some e) →
    (∃ e, e ≠ k ∧ s.retired e = false ∧ s.roles.reserve ≠ some e) →
    Completes (.aonFrameTimer ecc) s fun t =>
      ∃ e, t.roles.testEng = some e ∧ (s.retired e = false ∧ s.roles.reserve ≠ some e) ∧
        (∀ q rest, s.roles.steer = q :: rest → e = q) ∧
        (s.roles.steer = [] → ∀ m : EngId, s.retired m = false → s.roles.reserve ≠ some m →
          (k < e → k < m → e ≤ m) ∧ (e ≤ k → e ≤ m ∧ m ≤ k)) ∧
        t.roles.coppice = (if s.service = 2 then none else some e) ∧ t.roles.gold = .due ∧ (t.eng e).faulty = false ∧
        (e ≠ k → t.working k = true) ∧ (s.service < 2 → t.working e = false) ∧
        (∀ m : EngId, m ≠ k → m ≠ e → t.working m = s.working m) ∧
        t.roles.retired = s.roles.retired ∧ t.roles.reserve = s.roles.reserve ∧ t.roles.standFor = none

/-- A grid tick: at a tick that is a multiple of GRID_TICKS, once, the Fuse unit builds the grid and keeps the last four;
FORECAST launches when all four grids of the launch exist and the image is good. A member of a hedge makes no tile for it: the
top root deals them (R613), and no publication of the member waits for the launch (the model's choice, log 76). -/
def Obligations.GridsAndForecast : Prop :=
  ∀ s : State,
    let w := s.world
    let due := w.started = true ∧ w.tick % wNat s 0x19 = 0 ∧ w.lastGrid ≠ some w.tick ∧ s.fus.run = true ∧ s.fuseReset = false
    (¬due → ChangesNothing .gridTick s) ∧
    (due → Completes .gridTick s fun t =>
      t = { s with
        world := { w with lastGrid := some w.tick, grids := t.world.grids, launches := t.world.launches }
        tds := { s.tds with tiles := t.tds.tiles, nextHandle := t.tds.nextHandle } } ∧
        t.world.grids.length ≤ 4 ∧ t.world.grids.getLast? = some { tick := w.tick, cells := w.geom.grid w.crown } ∧
        (launchGrids t w.tick = none ∨ goodImage s 3 (wNat s 0x1F) = none → t.tds = s.tds ∧ t.world.launches = w.launches) ∧
        ∀ gs, launchGrids t w.tick = some gs → goodImage s 3 (wNat s 0x1F) ≠ none →
          (isMember s = true → t.tds = s.tds) ∧
          (isMember s = false → t.tds.tiles = s.tds.tiles ++ [{ forecastTile w.tick with handle := s.tds.nextHandle }]) ∧
          t.world.launches = w.launches ++
            [{ tick := w.tick, nt := w.nt, grids := gs, handle := s.tds.nextHandle, done := isMember s }])

/-- SYNC_IN: each context that takes its frame starts from it counts an edge that comes no earlier than E − SYNC_TOL after
the last counted one, else rejects it and counts a miss; an edge that has not come by E + SYNC_TOL is counted in its place,
with a miss. -/
def Obligations.SyncEdges : Prop :=
  ∀ s : State,
    (isMember s = false → Completes .syncInEdge s fun t =>
      t = { s with ctxs := t.ctxs, recorder := t.recorder, psram := t.psram, links := t.links, hedge := t.hedge } ∧
        ∀ c : CtxId,
          let early := ∃ e, (s.ctx c).lastEdge = some e ∧ s.now < e + syncE s c - syncTol s c
          (countsEdges s c = false → t.ctx c = s.ctx c) ∧
          (countsEdges s c = true → ¬early → EdgeCounted s c (t.ctx c) (s.ctx c).cnt.syncMiss) ∧
          (countsEdges s c = true → early → t.ctx c =
            { s.ctx c with cnt := { (s.ctx c).cnt with syncMiss := ((s.ctx c).cnt.syncMiss + 1) % 2 ^ 32 } })) ∧
    (isMember s = true → ChangesNothing .syncInEdge s) ∧
    ∀ c : CtxId,
      let due := isMember s = false ∧ countsEdges s c = true ∧ ∃ e, (s.ctx c).lastEdge = some e ∧ s.now = e + syncE s c + syncTol s c
      (¬due → ChangesNothing (.syncEdgeTimeout c) s) ∧
      (due → Completes (.syncEdgeTimeout c) s fun t =>
        t = { s with ctxs := t.ctxs } ∧ OtherContexts c s t ∧
          EdgeCounted s c (t.ctx c) (((s.ctx c).cnt.syncMiss + 1) % 2 ^ 32))

/-! ### Snapshot, verification, release (R87, R88, R94, R159, R216, R283-R308, R317, R319, R452, R454) -/

/-- A snapshot is taken once, of a publication that waits for nothing, when no delta is due first: the frame keeps its
epoch and whether its forecast is stale; a roadmap or a node that keeps it from searching gives NO_PATH at once, and a warm
path gives the CHECK tile 0. -/
def Obligations.SnapshotIsTaken : Prop :=
  ∀ (c : CtxId) (s : State),
    let delta := ∃ b k, (s.ctx c).rm.nextDelta = some (b, k) ∧ ∀ r, (s.ctx c).run = some r → k ≠ r.frame
    let due := ∃ r p, (s.ctx c).run = some r ∧ framePub s r = some p ∧ r.inSafe = false ∧ r.snapped = false ∧ r.ready = none ∧
      p.wait = none ∧ ¬delta
    (¬due → ∀ bad, ChangesNothing (.snapshot ⟨c, bad⟩) s) ∧
    ∀ bad r p, (s.ctx c).run = some r → framePub s r = some p → r.inSafe = false → r.snapped = false → r.ready = none →
      p.wait = none → ¬delta →
      let a := match p.fc with
        | some f => p.nt - f.baseNT
        | none => 0
      Completes (.snapshot ⟨c, bad⟩) s fun t =>
        (∃ r', (t.ctx c).run = some r' ∧ r'.snapped = true ∧ r'.epoch = p.epoch ∧ r'.a = a ∧
          r'.stale = (p.fc.isNone || s.world.fcImage == 0 || decide (s.world.fcStale < a)) ∧ r'.tf = r.tf ∧ r'.frame = r.frame ∧
          (∀ st, noSearch s c = some st → r'.ready = some (.noPath st) ∧ (t.ctx c).searchRecs = 0) ∧
          (noSearch s c = none → r'.suffix = warmSuffix s c (s.ctx c).warm ∧
            (r'.suffix ≠ [] → ∃ x ∈ t.tds.tiles, x.ctx = c.val ∧ x.frame = r.frame ∧ x.station = 3 ∧ x.seq = 0))) ∧
        (∀ st, noSearch s c = some st → ∀ x ∈ t.tds.tiles, x.ctx = c.val → x.frame = r.frame → x.discard = true) ∧
        Aloof s t ∧ OtherContexts c s t ∧ t.engines = s.engines ∧ t.roles = s.roles ∧ (bad = [] → t.faults = s.faults) ∧ t.psram = s.psram ∧
        t.wear = s.wear

/-- A verification attempt begins where SMOOTH has committed one, the Verifier is free, runs and is not in reset, VERIFY_AT
has been reached and its publication waits for nothing; it ends with the outcome of the Verifier's tests: a pass makes the
frame ready; a failure for another reason than a disagreement counts, and the next attempt goes to SMOOTH or the frame is
NO_PATH. -/
def Obligations.VerifierAttempts : Prop :=
  ∀ (c : CtxId) (s : State) (r : FrameRun), (s.ctx c).run = some r →
    (∀ p, verifyPub s c r = some p → r.block ≠ none → r.reasons.length = r.attempt → r.verifying = false → r.ready = none →
      s.vfy.run = true → s.vfy.busy = none → s.inReset domVerifier = false → r.f + us (cNat s c 0x82) ≤ s.now → p.wait = none →
      Completes (.verifyAttempt c) s fun t =>
        t = { s with ctxs := t.ctxs, vfy := { s.vfy with busy := some c, since := s.now, ctx := c.val } } ∧
          OtherContexts c s t ∧
          t.ctx c = { s.ctx c with run := some { r with verifying := true, tv := p.tick, vEpoch := p.epoch } }) ∧
    (s.vfy.run = false ∨ s.vfy.busy ≠ none ∨ s.now < r.f + us (cNat s c 0x82) ∨ r.block = none →
      ChangesNothing (.verifyAttempt c) s) ∧
    (s.vfy.busy ≠ some c → ∀ bad, ChangesNothing (.verifyComplete c bad) s) ∧
    (s.vfy.busy = some c → ∀ b bad, bad = ⟨[b], []⟩ ∨ bad = ⟨[], [b]⟩ → Completes (.verifyComplete c bad) s fun t =>
      t.vfy.busy = none ∧ t.vfy.irq.toNat.testBit 5 = true ∧ Recorded s t 0x0303 19 0x1F b) ∧
    ∀ plan b snap p, s.vfy.busy = some c → (s.ctx c).plan = some plan → r.block = some b → framePub s r = some snap →
      (s.world.pubs.find? fun p => p.tick == r.tv) = some p → r.verifying = true → r.ready = none →
      let o := verifyAttempt s c plan r b (vview s snap snap []) (vview s snap p []) (p.tick == snap.tick)
      Completes (.verifyComplete c ⟨[], []⟩) s fun t =>
        t.vfy.busy = none ∧ t.vfy.attempts = (s.vfy.attempts + 1) % 65536 ∧ Aloof s t ∧ t.world = s.world ∧
          (o.reason = 0 → t.vfy.irq = s.vfy.irq ∧ OtherContexts c s t ∧ t.tds = s.tds ∧
            ∃ r', t.ctx c = { s.ctx c with run := some r' } ∧ r'.ready = some (.passed r.attempt) ∧
              r'.reasons = r.reasons ++ [0] ∧ r'.stop = o.stop.orElse fun _ => r.stop) ∧
          (o.reason ≠ 0 → o.reason ≠ 3 →
            (t.ctx c).cnt.verifyFail = ((s.ctx c).cnt.verifyFail + 1) % 2 ^ 32 ∧
              (o.reason = 2 → (t.ctx c).cnt.worldChanged = ((s.ctx c).cnt.worldChanged + 1) % 2 ^ 32) ∧
              t.vfy.irq.toNat.testBit 0 = true ∧ OtherContexts c s t ∧
              ∃ r', (t.ctx c).run = some r' ∧ r'.reasons = r.reasons ++ [o.reason] ∧
                let more := r.attempt < cNat s c 0x83 ∧ r.attempt + 1 < (r.selected.map fun l => l.entries.length).getD 0
                (more → r'.ready = none ∧ ∃ x ∈ t.tds.tiles, x.ctx = c.val ∧ x.frame = r.frame ∧ x.station = 6 ∧
                  x.seq = r.attempt + 1 ∧ x.status = .ready) ∧
                (¬more → r'.ready = some (.noPath 0x0501))) ∧
          (o.reason = 3 → t.vfy.irq.toNat.testBit 2 = true ∧ t.vfy.disCtx = c.val)

/-- A release of a ready frame: the record with its digest is the result and stands in its slot, the warm path and the
stop trajectory are kept from a planned one, LATE and NO_PATH count, a valid record arms the context to OPERATE, SYNC_OUT
rises where it is enabled. While RELEASE_AT = 1 (outside replay), or with no outcome, RELEASE changes nothing. -/
def Obligations.ReleaseWritesTheRecord : Prop :=
  ∀ (c : CtxId) (s : State),
    (∀ r o, (s.ctx c).run = some r → outReady s c r = some o → cNat s c 0x81 = 0 ∨ s.replaying = true →
      Completes (.release c) s fun t =>
        Released s t c r.frame (recordBody s c r (frameEpoch s r) o s.now ++ recordDigest s c r (frameEpoch s r) o) ∧
          ReleaseFrame c s t ∧ (t.ctx c).warm = (if o.planned then o.path else []) ∧
          (t.ctx c).stop = (if o.planned then some o.stop else (s.ctx c).stop) ∧
          (t.ctx c).cnt.late = ((s.ctx c).cnt.late + bit (o.status == 0x0601)) % 2 ^ 32 ∧
          (t.ctx c).cnt.noPath = ((s.ctx c).cnt.noPath + bit (noPathStatus o.status)) % 2 ^ 32 ∧
          (t.ctx c).sstate = (if o.valid = true ∧ (s.ctx c).sstate = .arming then .operate else (s.ctx c).sstate) ∧
          (cNat s c 0x88 = 1 → t.syncOut = true ∧ s.now + us (cNat s c 0x89) ≤ t.syncOutEnd) ∧
          (cNat s c 0x88 ≠ 1 → t.syncOut = s.syncOut ∧ t.syncOutEnd = s.syncOutEnd)) ∧
    ((s.ctx c).run = none ∨ (∃ r, (s.ctx c).run = some r ∧ r.ready = none) ∨ (cNat s c 0x81 ≠ 0 ∧ s.replaying = false) →
      ChangesNothing (.release c) s) ∧
    (s.syncOut = true → s.syncOutEnd ≤ s.now → exec .syncOutPulseEnd s = .next { s with syncOut := false }) ∧
    (s.now < s.syncOutEnd ∨ s.syncOut = false → ChangesNothing .syncOutPulseEnd s)

/-- The deadline edge of a context that does not stop at it (R533): a ready frame is released; one that began in SAFE is released with SAFE; any other is released LATE,
the context enters SAFE with cause DEADLINE, and an EMCY goes out. At any other time, and in replay, nothing happens. -/
def Obligations.DeadlineReleases : Prop :=
  ∀ (c : CtxId) (s : State),
    (∀ r, (s.ctx c).run = some r → s.replaying = true ∨ stopsNow s c = true ∨ s.now ≠ r.f + us (deadlineUs s c) →
      ChangesNothing (.deadlineEdge c) s) ∧
    ((s.ctx c).run = none → ChangesNothing (.deadlineEdge c) s) ∧
    ∀ r, (s.ctx c).run = some r → s.replaying = false → stopsNow s c = false → s.now = r.f + us (deadlineUs s c) →
      (∀ o, outReady s c r = some o → Completes (.deadlineEdge c) s fun t =>
        Released s t c r.frame (recordBody s c r (frameEpoch s r) o s.now ++ recordDigest s c r (frameEpoch s r) o) ∧
          ReleaseFrame c s t) ∧
      (r.ready = none → r.inSafe = true → Completes (.deadlineEdge c) s fun t =>
        ReleaseFrame c s t ∧ u (t.ctx c).result 16 1 = 0 ∧ u (t.ctx c).result 18 2 = 0x0602 ∧
          Released s t c r.frame (t.ctx c).result) ∧
      (r.ready = none → r.inSafe = false → (s.ctx c).sstate = .arming ∨ (s.ctx c).sstate = .operate →
        Completes (.deadlineEdge c) s fun t =>
          ReleaseFrame c s t ∧ u (t.ctx c).result 16 1 = 0 ∧ u (t.ctx c).result 18 2 = 0x0601 ∧
            Released s t c r.frame (t.ctx c).result ∧ (t.ctx c).sstate = .safe ∧
            (t.ctx c).cause = (s.ctx c).cause ||| 1 ∧ (t.ctx c).cnt.late = ((s.ctx c).cnt.late + 1) % 2 ^ 32 ∧
            (t.ctx c).satCount = min 65535 ((s.ctx c).satCount + 1) ∧ t.vfy.irq = s.vfy.irq ||| 0x10 ∧
            (isMember s = false → s.faults.inReset.toNat.testBit 29 = false → t.errField.head? = some (BitVec.ofNat 32 (0xFF01 + c.val * 2 ^ 16))) ∧
            (s.saf.outEn = true → t.saf.driveA = t.permit ∧ t.saf.driveB = !t.permit))

/-- The checkers' run-time tests and the Verifier's control: a test that passes moves on to the next checker marked Yes, and
after the last one a cycle is counted; one that fails latches SELFTEST_RUN. VFY_CTRL.RUN may fall only while no context
runs, and a held Verifier answers nothing. -/
def Obligations.CheckersAndVerifierControl : Prop :=
  ∀ s : State,
    (∀ fail, s.saf.chkRunning = false → ChangesNothing (.checkerTestComplete fail) s) ∧
    (s.saf.chkRunning = true → Completes (.checkerTestComplete false) s fun t =>
      t = { s with saf := { s.saf with
        nextChk := t.saf.nextChk, chkRunning := false, cycles := t.saf.cycles, cycleFrom := t.saf.cycleFrom } } ∧
        (∃ k ∈ [0, 1, 2, 3, 5, 6, 7, 8, 9, 10, 11, 15], t.saf.nextChk = k ∧
          (s.saf.nextChk < 15 → s.saf.nextChk < k ∧ t.saf.cycles = s.saf.cycles) ∧
          (15 ≤ s.saf.nextChk → k = 0 ∧ t.saf.cycles = (s.saf.cycles + 1) % 4096 ∧ t.saf.cycleFrom = s.roles.steps))) ∧
    (s.saf.chkRunning = true → Completes (.checkerTestComplete true) s fun t =>
      t.saf.causes = s.saf.causes ||| 0x200 ∧ t.saf.runFail = s.saf.runFail ||| BitVec.ofNat 16 (2 ^ s.saf.nextChk) ∧
        t.saf.chkRunning = false ∧ Aloof s t ∧ t.world = s.world ∧ t.engines = s.engines) ∧
    ∀ (m : Master) (v : Word),
      (v.toNat.testBit 0 = true ∨ s.anyRuns = false → s.inReset domVerifier = false →
        exec (.vfyCtrl m v) s = .next { s with vfy := { s.vfy with run := v.toNat.testBit 0 }, bus := .ok 0 }) ∧
      ((v.toNat.testBit 0 = false ∧ s.anyRuns = true) ∨ s.inReset domVerifier = true → BusErrorBy m (.vfyCtrl m v) s)

/-! ### The Fuse unit and the streams (R58, R78, R83, R101-R131, R434, R507, R571, R712, R713) -/

/-- The Fuse unit's controls. RUN rises: a changed geometry rebuilds the world to epoch 0, grids and launches start anew, and
FC_IMAGE and FC_STALE are taken; RUN is written 0 only while no context runs. A receiver's LANES are frozen while it is enabled, enabling clears its counters; a
stream is enabled only with a record and then waits for its first image. A held domain answers with a bus error. -/
def Obligations.FuseControls : Prop :=
  ∀ (m : Master) (v : Word) (s : State),
    let on := v.toNat.testBit 0
    (s.fuseReset = true ∨ (on = false ∧ s.anyRuns = true) → BusErrorBy m (.fusCtrl m v) s) ∧
    (s.fuseReset = false → on = s.fus.run → on = true ∨ s.anyRuns = false →
      exec (.fusCtrl m v) s = .next { s with bus := .ok 0 }) ∧
    (s.fuseReset = false → on = true → s.fus.run = false → Completes (.fusCtrl m v) s fun t =>
      t = { s with
        bus := .ok 0, fus := { s.fus with run := true, streams := t.fus.streams }, world := t.world
        engines := t.engines, recorder := t.recorder } ∧
        t.world.grids = [] ∧ t.world.launches = [] ∧ t.world.tick = s.world.tick ∧ t.world.nt = s.world.nt ∧
        t.world.geom = geomOf s ∧
        (geomOf s = s.world.geom → t.engines = s.engines ∧ t.recorder = s.recorder ∧
          t.world = { s.world with grids := [], launches := [], fcStale := wNat s 0x1C, fcImage := wNat s 0x1F }) ∧
        (geomOf s ≠ s.world.geom → t.world.crown = [] ∧ t.world.epoch = 0 ∧ t.world.inputs = [] ∧ t.world.fc = none ∧
          t.world.heldSlots = [] ∧ t.recorder = { s.recorder with
            due := none, seedRuns := [], seedAbandon := (s.recorder.seedAbandon + s.recorder.seedRuns.length) % 2 ^ 32
            rebuilds := t.recorder.rebuilds } ∧
          (s.recorder.st = 1 → s.world.tick ∈ t.recorder.rebuilds) ∧
          (∀ p ∈ t.world.pubs, p.tick = s.world.tick ∧ p.crown = [] ∧ p.epoch = 0) ∧
          ∀ n : EngId, t.eng n = { s.eng n with core := (t.eng n).core }) ∧
        ∀ k : StreamId, t.fus.streams[k] = { s.fus.streams[k] with timerFrom := s.now - s.fus.streams[k].timerFrom }) ∧
    (s.fuseReset = false → on = false → s.fus.run = true → s.anyRuns = false → Completes (.fusCtrl m v) s fun t =>
      t = { s with bus := .ok 0, fus := { s.fus with run := false, streams := t.fus.streams } } ∧
        ∀ k : StreamId, t.fus.streams[k] = { s.fus.streams[k] with timerFrom := s.now - s.fus.streams[k].timerFrom }) ∧
    (∀ n : RxId,
      let x := s.fus.rx[n]
      let lanes := v.extractLsb' 1 2
      (s.fuseReset = true ∨ (x.en = true ∧ lanes ≠ x.lanes) → BusErrorBy m (.fusCsiCtrl m n v) s) ∧
      (s.fuseReset = false → x.en = false ∨ lanes = x.lanes → Completes (.fusCsiCtrl m n v) s fun t =>
        t = { s with bus := .ok 0, fus := { s.fus with rx := t.fus.rx } } ∧
          (∀ j : RxId, j ≠ n → t.fus.rx[j] = s.fus.rx[j]) ∧
          (on = true → t.fus.rx[n] = { x with en := true, lanes := lanes, ecc1 := 0, bad := 0, dtIgn := 0 }) ∧
          (on = false → t.fus.rx[n] = { x with en := false, lanes := lanes }))) ∧
    ∀ k : StreamId,
      let x := s.fus.streams[k]
      (s.fuseReset = true ∨ (on = true ∧ x.rec_ = none) → BusErrorBy m (.fusStrCtrl m k v) s) ∧
      (s.fuseReset = false → on = x.en → (on = true → x.rec_ ≠ none) →
        exec (.fusStrCtrl m k v) s = .next { s with bus := .ok 0 }) ∧
      (s.fuseReset = false → on = true → x.en = false → x.rec_ ≠ none → Completes (.fusStrCtrl m k v) s fun t =>
        t = { s with bus := .ok 0, fus := { s.fus with streams := t.fus.streams } } ∧ OtherStreams k s t ∧
          t.fus.streams[k] = { x with
            en := true, st := .wait, fcnt := 0, lastCam := none, img := none, tlFails := 0, refImg := none
            timerFrom := if s.fus.run then s.now else 0 }) ∧
      (s.fuseReset = false → on = false → x.en = true → Completes (.fusStrCtrl m k v) s fun t =>
        t = { s with bus := .ok 0, fus := { s.fus with streams := t.fus.streams } } ∧ OtherStreams k s t ∧
          t.fus.streams[k] = { x with en := false, st := .off, img := none })

/-- The packets of an image: a frame start counts and stamps a new image (CORRUPT if the last one had not ended), a depth
line, an embedded line or a confidence line is put into it, a header beyond repair makes it CORRUPT, a frame end closes it. A
receiver that is enabled notes the lanes and a corrected header of every packet, and ignores and counts a packet of another data
type wherever it comes; one that is not enabled takes no notice. -/
def Obligations.ImagesAreBuilt : Prop :=
  ∀ (k : StreamId) (lanes : LaneState) (s : State),
    let x := s.fus.streams[k]
    let hears := s.fus.rx[(rxOf k)].en = true ∧ s.fuseReset = false ∧ isMember s = false
    let Heard := fun (h : HdrEcc) (t : State) =>
      t = { s with fus := { s.fus with streams := t.fus.streams, rx := t.fus.rx, irq := t.fus.irq } } ∧ OtherStreams k s t ∧
        Saw k h lanes s t
    let Only := fun (h : HdrEcc) (t : State) => Heard h t ∧ t.fus.rx[(rxOf k)].dtIgn = s.fus.rx[(rxOf k)].dtIgn
    let broken := { x with img := x.img.map fun i => if i.closed then i else { i with corrupt := true } }
    (¬hears → (∀ n h, ChangesNothing (.csiFrameStart k ⟨n, h, lanes⟩) s) ∧ (∀ h, ChangesNothing (.csiFrameEnd ⟨k, h, lanes⟩) s) ∧
      ∀ p : CsiPacket, ChangesNothing (.csiLongPacket k { p with lanes := lanes }) s) ∧
    (hears → ∀ (p : CsiPacket), p.hdr ≠ .bad → p.dt ≠ 0x2E → p.dt ≠ 0x12 →
      (∀ r, x.rec_ = some r → r.dtConf = 0 ∨ p.dt ≠ r.dtConf) → Completes (.csiLongPacket k { p with lanes := lanes }) s fun t =>
        Heard p.hdr t ∧ t.fus.streams[k] = x ∧
          t.fus.rx[(rxOf k)].dtIgn = min 255 (s.fus.rx[(rxOf k)].dtIgn + 1)) ∧
    (hears → x.en = false → ∀ h, (∀ n, Completes (.csiFrameStart k ⟨n, h, lanes⟩) s fun t => Only h t ∧ t.fus.streams[k] = x) ∧
      Completes (.csiFrameEnd ⟨k, h, lanes⟩) s fun t => Only h t ∧ t.fus.streams[k] = x) ∧
    (s.receives k = true →
      (∀ n, Completes (.csiFrameStart k ⟨n, .bad, lanes⟩) s fun t => Only .bad t ∧ t.fus.streams[k] = broken) ∧
      Completes (.csiFrameEnd ⟨k, .bad, lanes⟩) s (fun t => Only .bad t ∧ t.fus.streams[k] = broken) ∧
      (∀ p : CsiPacket, p.hdr = .bad → Completes (.csiLongPacket k { p with lanes := lanes }) s fun t => Only .bad t ∧ t.fus.streams[k] = broken) ∧
      ∀ h, h ≠ .bad → (∀ n, Completes (.csiFrameStart k ⟨n, h, lanes⟩) s fun t =>
        Only h t ∧ t.fus.streams[k] = { x with
          fcnt := x.fcnt + 1, lastCam := some n, gaps := t.fus.streams[k].gaps, img := t.fus.streams[k].img } ∧
          (∀ q, x.lastCam = some q → n ≠ 0 → n ≠ 1 → n ≠ (q + 1) % 65536 →
            t.fus.streams[k].gaps = min 65535 (x.gaps + 1)) ∧
          (n = 0 ∨ n = 1 ∨ x.lastCam = none → t.fus.streams[k].gaps = x.gaps) ∧
          ∃ i, t.fus.streams[k].img = some i ∧ i.stamp = s.now ∧ i.fcnt = (x.fcnt + 1).toNat ∧ i.depth = [] ∧ i.conf = [] ∧
            i.embedded = [] ∧ i.closed = false ∧ (i.corrupt = true ↔ ∃ o, x.img = some o ∧ o.closed = false)) ∧
      Completes (.csiFrameEnd ⟨k, h, lanes⟩) s (fun t => Only h t ∧
        t.fus.streams[k] = { x with img := x.img.map fun i => { i with closed := true } }) ∧
      ∀ (p : CsiPacket) (i : Img) (r : CamRec), p.hdr = h → x.img = some i → i.closed = false → x.rec_ = some r →
        (p.dt = 0x2E → p.crcOk = true → p.overrun = false → i.formatBad = false →
          p.payload.length = 2 * r.width → r.dtConf = 0 → Completes (.csiLongPacket k { p with lanes := lanes }) s fun t =>
            Only h t ∧ t.fus.streams[k] = { x with img := some { i with
              depth := i.depth ++ [(List.range r.width).map fun j => u p.payload (2 * j) 2] } }) ∧
        (r.dtConf ≠ 0 → p.dt = r.dtConf → p.dt ≠ 0x2E → p.dt ≠ 0x12 → p.crcOk = true → p.overrun = false →
          i.formatBad = false → p.payload.length = r.width → i.conf.length + 1 = i.depth.length →
          Completes (.csiLongPacket k { p with lanes := lanes }) s fun t =>
            Only h t ∧ t.fus.streams[k] = { x with img := some { i with conf := i.conf ++ [p.payload.map (·.toNat)] } }) ∧
        (p.dt = 0x12 → Completes (.csiLongPacket k { p with lanes := lanes }) s fun t =>
          Only h t ∧ t.fus.streams[k] = { x with img := some { i with
            corrupt := i.corrupt || !p.crcOk, overrun := i.overrun || p.overrun
            embedded := i.embedded ++ [(i.depth.isEmpty, p.crcOk, p.payload)] } }) ∧
        (p.crcOk = false → p.dt = 0x2E → Completes (.csiLongPacket k { p with lanes := lanes }) s fun t =>
          Only h t ∧ ∃ j, t.fus.streams[k] = { x with img := some j } ∧ j.corrupt = true))

/-- A whole image: its status in the order of the table; an accepted one counts, restarts the timer and becomes an input of
the present tick; its test line is judged, and the second that fails in a row loses the stream. Nothing but the image goes
while the Fuse unit does not run, the part replays or it is a member of a hedge (R608). -/
def Obligations.ImagesAreJudged : Prop :=
  ∀ (k : StreamId) (wrong : List (Fin 64 × Word × Nat)) (s : State) (i : Img) (r : CamRec),
    let x := s.fus.streams[k]
    let sound := testExpected s.world.geom r (wNat s 0x1D) i.fcnt
    let bad := pipesFailing wrong sound
    x.img = some i → x.rec_ = some r → i.closed = true → s.fuseReset = false →
    (s.fus.run = false ∨ s.replaying = true ∨ isMember s = true → Completes (.imageComplete k wrong) s fun t =>
      t = { s with fus := { s.fus with streams := t.fus.streams } } ∧ OtherStreams k s t ∧
        t.fus.streams[k] = { x with img := none }) ∧
    (s.fus.run = true → s.replaying = false → isMember s = false →
      let mid : Int := (i.stamp : Int) - us r.expoOffset
      let first := imageStatus s r x i (bad != 0) mid 0
      let set := (updateSet s.world.geom r (maskSpheres s mid) (wNat s 0x1D) i.depth i.conf).1
      Completes (.imageComplete k wrong) s fun t =>
        let y := t.fus.streams[k]
        IngressFrame s t ∧ OtherStreams k s t ∧ y.img = none ∧
          y.lastCode = (if 1 ≤ first ∧ first ≤ 6 then first else if 1048576 < set.length then 7 else first) ∧
          (y.lastCode = 0 → y.acc = x.acc + 1 ∧ y.st = .run ∧ y.timerFrom = s.now ∧
            t.world.inputs = s.world.inputs ++ [.image s.world.tick k i.fcnt set]) ∧
          (y.lastCode ≠ 0 → y.acc = x.acc ∧ y.timerFrom = x.timerFrom ∧ t.world.updReject = s.world.updReject) ∧
          t.fus.tlSig = (List.range 4).map (pipeSig (testGiven wrong sound)) ∧
          t.fus.pipeFault = bad ∧ t.fus.pipeFail = s.fus.pipeFail ||| bad ∧ t.fus.tlRuns = (s.fus.tlRuns + 1) % 65536 ∧
          (bad = 0 → y.tlFails = 0 ∧ (y.lastCode ≠ 0 → y.st = x.st ∧ t.world.inputs = s.world.inputs)) ∧
          (bad ≠ 0 → y.tlFails = x.tlFails + 1 ∧ Recorded s t 0x0301 18 0x1F (k.val + 256 * bad.toNat) ∧ y.lastCode ≠ 0) ∧
          (bad ≠ 0 → x.tlFails = 0 ∨ x.st = .failed → y.st = x.st ∧ t.world.inputs = s.world.inputs) ∧
          (bad ≠ 0 → 1 ≤ x.tlFails → x.st ≠ .failed → y.st = .failed ∧
            t.world.inputs = s.world.inputs ++ [.loss s.world.tick k true]))

/-- A stream without an accepted image for longer than its timeout is LOST, with a marker, a fault record and an EMCY;
external messages become inputs of the present tick, in order, or count as rejected while the Fuse unit does not run or is in
reset; in replay and on a member of a hedge nothing is integrated. -/
def Obligations.LossesAndMessages : Prop :=
  ∀ s : State,
    (∀ (k : StreamId) (r : CamRec), s.fus.streams[k].rec_ = some r →
      let x := s.fus.streams[k]
      let due := s.fus.run = true ∧ s.fuseReset = false ∧ s.replaying = false ∧ isMember s = false ∧
        (x.st = .wait ∨ x.st = .run) ∧ us r.streamTimeout < s.now - x.timerFrom
      (¬due → ChangesNothing (.streamTimeout k) s) ∧
      (due → Completes (.streamTimeout k) s fun t =>
        IngressFrame s t ∧ OtherStreams k s t ∧ t.fus.streams[k] = { x with st := .lost } ∧
          t.fus.irq = s.fus.irq ||| 2 ∧ t.world.inputs = s.world.inputs ++ [.loss s.world.tick k false] ∧
          Recorded s t 0x0302 18 0x1F k.val ∧
          (s.faults.inReset.toNat.testBit 29 = false → t.errField.head? = some (BitVec.ofNat 32 (0xFF06 + k.val * 2 ^ 16))))) ∧
    ∀ (i : SdIf) (data : Bytes),
      let ms := (parseExt (data.length / 24 + 1) data).1
      let lost := (parseExt (data.length / 24 + 1) data).2
      (s.f2 i = false → ChangesNothing (.extUpdateMessage i data) s) ∧
      (s.f2 i = true → Completes (.extUpdateMessage i data) s fun t =>
        t = { s with
          world := t.world, sda := t.sda, sdb := t.sdb, recorder := t.recorder, psram := t.psram, links := t.links
          hedge := t.hedge } ∧
          t.sd i = { s.sd i with extBad := min 255 ((s.sd i).extBad + if lost = 0 then 0 else 1) } ∧
          (∀ j, j ≠ i → t.sd j = s.sd j) ∧
          (s.replaying = true ∨ isMember s = true → t.world = s.world) ∧
          (s.replaying = false → isMember s = false → s.fus.run = true → s.fuseReset = false → t.world = { s.world with
            inputs := s.world.inputs ++ ms.map fun q => .ext s.world.tick q.source q.seq q.entries }) ∧
          (s.replaying = false → isMember s = false → s.fus.run = false ∨ s.fuseReset = true → s.world.updReject < 2 ^ 32 → t.world = { s.world with
            updReject := (s.world.updReject + (ms.map fun q => q.entries.length).sum) % 2 ^ 32 }))

/-! ### The loader, deltas, audits (R134, R147, R150-R170) -/

/-- The loader takes its operations one after another: a load takes its partition, unless the image that was selected waits there
for a frame start, and a preload of the active image is dropped; a delta waits until the last one is in force. A load that passes every check puts its entries into the partition's tables and nothing else into the store; one that
fails leaves the store and reports the first failure. -/
def Obligations.LoaderWorksInOrder : Prop :=
  ∀ (s : State) (j : LoadJob) (rest : List LoadJob), s.loader = j :: rest →
    (j.begun = true → ChangesNothing .loaderOperationStart s) ∧
    (j.begun = false → ∀ c p h sel, j.op = .load c p h sel →
      let r := (s.ctx c).rm
      let q := startPart s c sel
      let idle := sel = false ∧ r.active = true ∧ r.cur.handle = h
      (idle → exec .loaderOperationStart s = .next { s with loader := rest }) ∧
      (¬idle → r.holds q = true → ChangesNothing .loaderOperationStart s) ∧
      (¬idle → r.holds q = false → Completes .loaderOperationStart s fun t =>
        t = { s with loader := ⟨.load c q h sel, true⟩ :: rest, ctxs := t.ctxs } ∧ OtherContexts c s t ∧
          t.ctx c = { s.ctx c with rm := { r with
            parts := vupd r.parts (Fin.ofNat 2 q) fun _ => { RmPart.empty with handle := h, st := 1 }
            ready := if r.ready = some q then none else r.ready
            active := r.active && r.activePart != q } })) ∧
    (j.begun = false → ∀ c b, j.op = .delta c b →
      ((s.ctx c).rm.nextDelta = none → (s.ctx c).rm.deltaHeld = false →
        exec .loaderOperationStart s = .next { s with loader := { j with begun := true } :: rest }) ∧
      ((s.ctx c).rm.nextDelta ≠ none ∨ (s.ctx c).rm.deltaHeld = true → ChangesNothing .loaderOperationStart s)) ∧
    (j.begun = false → ∀ c, j.op = .audit c →
      exec .loaderOperationStart s = .next { s with loader := { j with begun := true } :: rest }) ∧
    (∀ c p h sel, j = ⟨.load c p h sel, true⟩ →
      let nodes := nodeAddr s (nodeFirst s c p)
      let edges := edgeAddr s (edgeFirst s c p)
      (∀ bs, loadCheck s c h = none → goodImage s 2 h = some bs → Completes .loadComplete s fun t =>
        let hd := parseRmHeader bs
        t = { s with loader := rest, store := t.store, ctxs := t.ctxs } ∧ OtherContexts c s t ∧
          (t.ctx c).rm.loadStatus = 0 ∧ (t.ctx c).rm.ready = some p ∧
          (∃ q, (t.ctx c).rm.parts[Fin.ofNat 2 p] = q ∧ q.nCount = hd.nCount ∧ q.eCount = hd.eCount ∧
            q.chain = digest128 (slice bs 0 (256 + 64 * hd.nCount + 512 * hd.eCount))) ∧
          (Memory.wf s.store = true →
            memRead t.store edges (512 * hd.eCount) = slice bs (256 + 64 * hd.nCount) (512 * hd.eCount) ∧
              (nodes + 64 * hd.nCount ≤ edges ∨ edges + 512 * hd.eCount ≤ nodes →
                memRead t.store nodes (64 * hd.nCount) = slice bs 256 (64 * hd.nCount))) ∧
          ∀ a, ¬(nodes ≤ a ∧ a < nodes + 64 * hd.nCount) → ¬(edges ≤ a ∧ a < edges + 512 * hd.eCount) →
            memByte t.store a = memByte s.store a) ∧
      (∀ v, loadCheck s c h = some v → Completes .loadComplete s fun t =>
        t = { s with loader := rest, ctxs := t.ctxs } ∧ OtherContexts c s t ∧
          (t.ctx c).rm.loadStatus = v.1 * 2 ^ 24 + v.2 ∧ (t.ctx c).rm.parts[Fin.ofNat 2 p] = RmPart.empty ∧
          h ∈ (t.ctx c).rm.failed ∧ ((s.ctx c).rm.selected = h → (t.ctx c).rm.reselect = true ∧ (t.ctx c).rm.selected = 0) ∧
          ((s.ctx c).rm.selected ≠ h → (t.ctx c).rm.reselect = (s.ctx c).rm.reselect ∧
            (t.ctx c).rm.selected = (s.ctx c).rm.selected))) ∧
    ((∀ c p h sel, j ≠ ⟨.load c p h sel, true⟩) → ChangesNothing .loadComplete s)

/-- Deltas and audits: a write of DELTA_IN queues the message, one of AUDIT an audit; a delta that passes every check waits
for the frame boundary, one that fails is counted and reported; DELTA_COPY puts its records, and nothing else, into the
partition that its BASE names between the release of its frame and the next snapshot; an audit leaves the digest of the partition. -/
def Obligations.DeltasAndAudits : Prop :=
  ∀ s : State,
    (∀ p c data, Accepted s (.deltaIn p c data) → Completes (.deltaIn p c data) s fun t =>
      AnswerFrame { s with loader := s.loader ++ [⟨.delta c data, false⟩], sem := t.sem } t ∧
        Noted p ⟨0x2201 + c.val, 0x14, data⟩ s t) ∧
    (∀ p c v, Accepted s (.audit p c v) → Completes (.audit p c v) s fun t =>
      t.loader = s.loader ++ [⟨.audit c, false⟩] ∧ (t.ctx c).rm = { (s.ctx c).rm with auditing := true } ∧
        Noted p ⟨0x2201 + c.val, 0x15, [v]⟩ s t ∧ OtherContexts c s t ∧ t.store = s.store ∧ t.world = s.world ∧
        t.engines = s.engines ∧ t.roles = s.roles ∧ t.saf = s.saf) ∧
    (∀ c b rest, s.loader = ⟨.delta c b, true⟩ :: rest →
      (deltaCheck s c b = none → Completes .deltaValidationComplete s fun t =>
        t = { s with loader := rest, ctxs := t.ctxs } ∧ OtherContexts c s t ∧ t.ctx c = { s.ctx c with
          rm := { (s.ctx c).rm with loadStatus := 0, nextDelta := some (b, (s.ctx c).frameNo) } }) ∧
      (∀ v, deltaCheck s c b = some v → Completes .deltaValidationComplete s fun t =>
        t = { s with loader := rest, ctxs := t.ctxs } ∧ OtherContexts c s t ∧ t.ctx c = { s.ctx c with
          rm := { (s.ctx c).rm with
            loadStatus := v.1 * 2 ^ 24 + v.2, deltaRefused := ((s.ctx c).rm.deltaRefused + 1) % 2 ^ 32 } })) ∧
    (∀ c, (s.ctx c).rm.nextDelta = none → ChangesNothing (.deltaCopy c) s) ∧
    (∀ c b k r, (s.ctx c).rm.nextDelta = some (b, k) → (s.ctx c).run = some r → r.frame = k ∨ r.snapped = true →
      ChangesNothing (.deltaCopy c) s) ∧
    (∀ c b k, (s.ctx c).rm.nextDelta = some (b, k) → (∀ r, (s.ctx c).run = some r → r.frame ≠ k ∧ r.snapped = false) →
      let d := parseDelta b
      let p := deltaPart (s.ctx c).rm b
      let part : Fin 2 := Fin.ofNat 2 p
      let node := fun (i : Nat) => nodeAddr s (nodeFirst s c p + i)
      let edge := fun (i : Nat) => edgeAddr s (edgeFirst s c p + i)
      Completes (.deltaCopy c) s fun t =>
        RecordFrame { s with store := t.store, ctxs := t.ctxs } t ∧ OtherContexts c s t ∧
          t.ctx c = { s.ctx c with rm := { (s.ctx c).rm with
            nextDelta := none, deltaApplied := ((s.ctx c).rm.deltaApplied + 1) % 2 ^ 32, deltaHeld := (s.ctx c).run.isNone
            parts := vupd (s.ctx c).rm.parts part fun q => { q with
              nCount := d.newN, eCount := d.newE, chain := digest128 (q.chain ++ b.take (b.length - 64)) } } } ∧
          (Memory.wf s.store = true → (d.edges.map (·.1)).Nodup → ∀ x ∈ d.edges, memRead t.store (edge x.1) 512 = x.2.2) ∧
          ∀ a, (∀ x ∈ d.nodes, ¬(node x.1 ≤ a ∧ a < node x.1 + 64)) → (∀ x ∈ d.edges, ¬(edge x.1 ≤ a ∧ a < edge x.1 + 512)) →
            memByte t.store a = memByte s.store a) ∧
    (∀ c rest, s.loader = ⟨.audit c, true⟩ :: rest →
      let r := (s.ctx c).rm
      let bs := memRead s.store (nodeAddr s (nodeFirst s c r.activePart)) (64 * r.cur.nCount) ++
        memRead s.store (edgeAddr s (edgeFirst s c r.activePart)) (512 * r.cur.eCount)
      Completes .auditComplete s fun t =>
        t = { s with loader := rest, ctxs := t.ctxs } ∧ OtherContexts c s t ∧ t.ctx c = { s.ctx c with
          rm := { r with content := digest128 (if r.active then bs else []), auditing := rest.any fun j => j.op == .audit c } })

/-! ### Recording and replay (R426-R443, R677) -/

/-- Seeds and marks: SEED takes the seed that was captured at the present tick, for the next slot; seeds are written one after
another, each into the bytes of its slot, where one is usable once its SEED entry is in the ring; one that does not fit is
abandoned; a MARK puts its value, with the port it came
by, into the record ring. -/
def Obligations.SeedsAndMarks : Prop :=
  ∀ s : State,
    let r := s.recorder
    (r.due = none ∨ r.st ≠ 1 → ChangesNothing .seed s) ∧
    (∀ sd, r.due = some sd → r.st = 1 → exec .seed s = .next { s with
      recorder := { r with due := none, seedRuns := r.seedRuns ++ [(r.nextSlot, sd)], nextSlot := (r.nextSlot + 1) % 2 } }) ∧
    (r.seedRuns = [] → ChangesNothing .seedComplete s) ∧
    (∀ slot sd rest, r.seedRuns = (slot, sd) :: rest →
      let bs := seedBytes sd
      let at_ := seedOffset s slot
      let fits := bs.length ≤ oNat s 0x2700 0x06 ∧ psramOk s at_ bs.length = true
      (fits → Completes .seedComplete s fun t =>
        let entry := entryBytes s.world.tick 0x0E slot (leBytes 6 sd.tick ++ leBytes 4 at_)
        let usable := t.recorder.seeds = vupd r.seeds (Fin.ofNat 2 slot) (fun _ => some sd) ∧ t.recorder.seedTick = sd.tick
        let unusable := t.recorder.seeds = vupd r.seeds (Fin.ofNat 2 slot) (fun _ => none) ∧ t.recorder.seedTick = r.seedTick
        RecordFrame s t ∧ t.recorder.seedRuns = rest ∧ (usable ∨ unusable) ∧ (r.st ≠ 1 → unusable) ∧
          (RingTakes s entry.length → usable ∧ ∃ x ∈ t.recorder.ents, x.off = r.head ∧ x.ty = 0x0E ∧ x.tick = s.world.tick) ∧
          (r.st ≠ 1 → Memory.wf s.psram = true → memRead t.psram at_ bs.length = bs ∧
            ∀ a, ¬(at_ ≤ a ∧ a < at_ + bs.length) → memByte t.psram a = memByte s.psram a)) ∧
      (¬fits → exec .seedComplete s = .next { s with
        recorder := { r with seedRuns := rest, seedAbandon := (r.seedAbandon + 1) % 2 ^ 32 } })) ∧
    (∀ p v, Accepted s (.mark p v) → Completes (.mark p v) s fun t =>
      let e := entryBytes s.world.tick 0x0F (portSrc p) (leBytes 4 v.toNat)
      AnswerFrame { s with sem := t.sem, recorder := t.recorder, psram := t.psram, links := t.links, hedge := t.hedge } t ∧
        Noted p ⟨0x2700, 0x0E, leBytes 4 v.toNat⟩ s t ∧
        (r.st ≠ 1 → t.recorder = r ∧ t.psram = s.psram) ∧
        (RingTakes s e.length → memRead t.psram (recBase s + r.head) e.length = e ∧
          t.recorder.head = (r.head + e.length) % recSize s ∧ 
          (∃ x ∈ t.recorder.ents, x.off = r.head ∧ x.n = e.length ∧ x.tick = s.world.tick ∧ x.ty = 0x0F) ∧
          ∀ a, ¬(recBase s + r.head ≤ a ∧ a < recBase s + r.head + e.length) → memByte t.psram a = memByte s.psram a))

/-- REPLAY_CMD: START restores the seed, or the world at power-on, and only the recorded contexts run; PAUSE holds at its
tick, once no frame is in progress; SAVE keeps a seed of the paused tick; RESUME goes on; STOP leaves replay with every
context IDLE. While the part replays, PERMIT is never driven. -/
def Obligations.ReplayCommands : Prop :=
  ∀ (s : State) (p : Port),
    (Accepted s (.replayStart p) → Completes (.replayStart p) s fun t =>
      t.recorder.st = 3 ∧ t.recorder.replay = 1 ∧ t.recorder.pos = 0 ∧ t.recorder.seedRuns = [] ∧ t.loader = [] ∧
        t.vfy.busy = none ∧ Unloaded s t ∧ t.roles = s.roles ∧ t.psram = s.psram ∧ t.flash = s.flash ∧
        t.images = s.images ∧ t.boot = s.boot ∧ t.faults = s.faults ∧ Noted p ⟨0x2700, 0x10, [1]⟩ s t ∧
        (s.saf.outEn = true → t.saf.driveA = false ∧ t.saf.driveB = true) ∧
        (∀ sd, startSeed s = some sd →
          t.world.tick = sd.world.tick ∧ t.world.crown = sd.world.crown ∧ t.world.epoch = sd.world.epoch ∧
            t.world.inputs = [] ∧ t.recorder.replayTick = sd.tick ∧ t.power.inForce = sd.step ∧
            t.vfy.bmpEpoch = sd.world.epoch ∧ (∀ n ∈ loadEngines s, ∀ b : BankId, (t.eng n).banks[b].owner = 0) ∧
            (oNat s 0x2700 0x0F = recBase s → (∃ k ∈ s.recorder.rebuilds, sd.tick ≤ k) → t.recorder.barred ≠ none) ∧
            (∀ c, (∀ x ∈ sd.ctxs, x.ctx ≠ c) → (t.ctx c).st = .idle ∧ (t.ctx c).run = none) ∧
            ((sd.ctxs.map (·.ctx)).Nodup → ∀ x ∈ sd.ctxs, (t.ctx x.ctx).st = .running ∧ (t.ctx x.ctx).run = none ∧
              (t.ctx x.ctx).frameNo = (x.frame + 2 ^ 48 - 1) % 2 ^ 48 ∧ (t.ctx x.ctx).warm = x.warm ∧
              (t.ctx x.ctx).stop = x.stop ∧ (t.ctx x.ctx).tool = x.tool ∧ (t.ctx x.ctx).loading = loadEngines s)) ∧
        (startSeed s = none → SameBanks s t ∧ t.world.tick = 0 ∧ t.world.epoch = 0 ∧ t.world.crown = [] ∧ t.world.started = false ∧
          t.world.geom = geomOf s ∧ ∀ c, (t.ctx c).st = .idle)) ∧
    (Accepted s (.replayPause p) → s.recorder.st = 3 → Completes (.replayPause p) s fun t =>
      Answers p ⟨0x2700, 0x10, [2]⟩ 0 s t ∧
        AnswerFrame { s with sem := t.sem, recorder := t.recorder } t ∧
        (if oNat s 0x2700 0x11 ≤ s.world.tick ∧ ∀ c, (s.ctx c).run = none then
          t.recorder = { s.recorder with st := 4, replay := 2, pausing := false }
        else t.recorder = { s.recorder with pausing := true })) ∧
    (Accepted s (.replaySave p) → s.recorder.st = 4 → Completes (.replaySave p) s fun t =>
      let sd := makeSeed s s.world.tick
      let bs := seedBytes sd
      let at_ := seedOffset s 0
      let fits := bs.length ≤ oNat s 0x2700 0x06 ∧ psramOk s at_ bs.length = true
      Noted p ⟨0x2700, 0x10, [3]⟩ s t ∧ AnswerFrame { s with sem := t.sem, recorder := t.recorder, psram := t.psram } t ∧
        (¬fits → t.recorder = s.recorder ∧ t.psram = s.psram) ∧
        (fits → t.recorder = { s.recorder with
            seeds := vupd s.recorder.seeds 0 (fun _ => some sd), seedTick := s.world.tick } ∧
          (Memory.wf s.psram = true → memRead t.psram at_ bs.length = bs) ∧
          ∀ a, ¬(at_ ≤ a ∧ a < at_ + bs.length) → memByte t.psram a = memByte s.psram a)) ∧
    (Accepted s (.replayResume p) → s.recorder.st = 4 → Completes (.replayResume p) s fun t =>
      Noted p ⟨0x2700, 0x10, [4]⟩ s t ∧ AnswerFrame { s with sem := t.sem, recorder := t.recorder } t ∧
        t.recorder = { s.recorder with st := 3, replay := 1, pausing := false }) ∧
    (Accepted s (.replayStop p) → s.replaying = true → Completes (.replayStop p) s fun t =>
      Answers p ⟨0x2700, 0x10, [5]⟩ 0 s t ∧ t.recorder = { s.recorder with st := 0, replay := 0, pausing := false } ∧
        (∀ c, t.ctx c = { s.ctx c with st := .idle, run := none, sstate := .stopped }) ∧
        t.tds.tiles = s.tds.tiles.filter (fun x => x.ctx == 16) ∧ t.world = s.world ∧ Unloaded s t ∧
        SameBanks s t ∧ t.store = s.store ∧ t.psram = s.psram ∧ t.shadow = s.shadow)

/-- The recorded entries of a replay are taken in order, none before its tick; a GAP or a CRC failure stops it with ERROR,
the end of the recording, once its frames have run, with ENDED. -/
def Obligations.ReplayEntriesInOrder : Prop :=
  ∀ s : State,
    let Left := fun (t : State) (code : Nat) =>
      t.recorder = { s.recorder with st := 0, replay := code, pausing := false } ∧
        (∀ c, t.ctx c = { s.ctx c with st := .idle, run := none, sstate := .stopped }) ∧ t.world = s.world ∧ t.fus = s.fus ∧
        Unloaded s t ∧ SameBanks s t ∧ SameMemory s t
    (s.recorder.st ≠ 3 → ChangesNothing .replayEntry s) ∧
    (s.recorder.st = 3 → entryAt s s.recorder.pos = none → replayDone s = true → Completes .replayEntry s fun t => Left t 3) ∧
    (s.recorder.st = 3 → entryAt s s.recorder.pos = none → replayDone s = false → ChangesNothing .replayEntry s) ∧
    ∀ e, s.recorder.st = 3 → entryAt s s.recorder.pos = some e →
      (e.crcOk = false ∨ e.ty = 0x10 → Completes .replayEntry s fun t => Left t 4) ∧
      (e.crcOk = true → e.ty ≠ 0x10 → s.world.tick < e.tick → ChangesNothing .replayEntry s) ∧
      (e.crcOk = true → e.ty ≠ 0x10 → e.tick ≤ s.world.tick → Completes .replayEntry s fun t =>
        t.recorder.pos = s.recorder.pos + e.size ∧ t.recorder.st = 3 ∧ t.engines = s.engines ∧ t.roles = s.roles ∧
          t.faults = s.faults ∧ t.store = s.store ∧
          (e.ty = 0x03 → beforeSeed s e = false → t.ctxs = s.ctxs ∧ t.fus = s.fus ∧ t.world = { s.world with
            inputs := s.world.inputs ++ (parseExt (e.payload.length / 24 + 1) e.payload).1.map fun m =>
              .ext e.tick m.source m.seq m.entries }) ∧
          (e.ty = 0x08 → t.world = s.world ∧ t.fus = s.fus ∧ OtherContexts (Fin.ofNat 16 e.src) s t ∧
            (t.ctx (Fin.ofNat 16 e.src)).joints = (s.ctx (Fin.ofNat 16 e.src)).joints ++
              [(u e.payload 0 8, words e.payload 8 12)]) ∧
          (e.ty = 0x0C → beforeSeed s e = false → t.power = { s.power with inForce := u e.payload 0 1 } ∧ t.world = s.world ∧
            t.ctxs = s.ctxs) ∧
          (beforeSeed s e = true → t.world = s.world ∧ t.ctxs = s.ctxs ∧ t.power = s.power ∧ t.fus = s.fus))

/-- The thermal controller: the throttle step rises by one when the condition of the next step holds, and not again within
10 ticks; it falls by one after 100 ticks without its condition; it moves nothing else. -/
def Obligations.ThrottleMovesOneStep : Prop :=
  ∀ s : State,
    let p := s.power
    let k := p.step
    (s.boot.phase ≠ .on → ChangesNothing .throttleStepChange s) ∧
    (s.boot.phase = .on → Completes .throttleStepChange s fun t =>
      t = { s with power := { p with
        step := t.power.step, lastRise := t.power.lastRise, absentFrom := t.power.absentFrom, pCause := t.power.pCause } } ∧
        (k < 3 → stepCond s (k + 1) = true → (∀ r, p.lastRise = some r → r + 10 ≤ s.world.tick) →
          t.power.step = k + 1 ∧ t.power.lastRise = some s.world.tick) ∧
        (k < 3 → stepCond s (k + 1) = true → ∀ r, p.lastRise = some r → s.world.tick < r + 10 → t = s) ∧
        (3 ≤ k ∨ stepCond s (k + 1) = false →
          (k = 0 ∨ stepCond s k = true ∨ stepT s k - 5 < p.tjMax → t.power.step = k ∧ t.power.absentFrom = none) ∧
          (0 < k → stepCond s k = false → p.tjMax ≤ stepT s k - 5 →
            (p.absentFrom = none → t.power.step = k ∧ t.power.absentFrom = some s.world.tick) ∧
            ∀ f, p.absentFrom = some f →
              (f + 100 ≤ s.world.tick → t.power.step = k - 1 ∧ t.power.absentFrom = none) ∧
              (s.world.tick < f + 100 → t.power.step = k ∧ t.power.absentFrom = some f))))

/-! ### Functional safety (R447-R461, R470, R494, R499-R504) -/

/-- Demands on contexts, by a port or by SAF_REQ from any master: the context leaves ARMING or OPERATE for SAFE with cause
HOST_REQ, its frame in progress is released with VALID = 0; one in STOPPED takes no notice. -/
def Obligations.HostDemands : Prop :=
  ∀ (s : State) (c : CtxId),
    let One := fun (t : State) =>
      DemandFrame s t ∧ OtherContexts c s t ∧
        ((s.ctx c).sstate = .stopped → t.ctx c = s.ctx c) ∧
        ((s.ctx c).sstate ≠ .stopped → InSafe s t c 1) ∧
        ((s.ctx c).sstate = .arming ∨ (s.ctx c).sstate = .operate →
          Announced s t 0xFF02 c.val ∧ (s.saf.outEn = true → t.saf.driveA = t.permit ∧ t.saf.driveB = !t.permit) ∧
            ∀ r, (s.ctx c).run = some r → r.inSafe = false →
              u (t.ctx c).result 16 1 = 0 ∧ u (t.ctx c).result 18 2 = 0x0602)
    (∀ p, Accepted s (.safeReq p c) → Completes (.safeReq p c) s fun t =>
      One t ∧ Answers p ⟨0x2301 + c.val, 0x04, [1]⟩ 0 s t) ∧
    (∀ m, Completes (.safReqCtx m (BitVec.ofNat 16 (2 ^ c.val))) s fun t => One t ∧ t.bus = .ok 0) ∧
    (∀ m, exec (.safReqCtx m 0) s = .next { s with bus := .ok 0 }) ∧
    ∀ m (bits : BitVec 16), Completes (.safReqCtx m bits) s fun t =>
      DemandFrame s t ∧ t.bus = .ok 0 ∧
        (bits.toNat.testBit c.val = true → (s.ctx c).sstate ≠ .stopped → InSafe s t c 1) ∧
        (bits.toNat.testBit c.val = false → t.ctx c = s.ctx c)

/-- The part causes: each latches, the first one puts the part into its safe state. By a port, by any bus master, by the
lockstep comparator, by the SAF watchdog, by a clock, a rail, a temperature, a pin that reads back wrong, an overdue rotation. -/
def Obligations.PartCausesLatch : Prop :=
  ∀ s : State,
    let since := s.aoclk - s.saf.wdtLast
    let right := fun (key : BitVec 16) => key = (if s.saf.wdtNext then 0xC0DE else 0x5AFE) ∧ 256 ≤ since ∧ since ≤ 1024
    (∀ p, Accepted s (.partReq p) → Completes (.partReq p) s fun t =>
      DemandFrame s t ∧ PartSafe s t 0 ∧ Answers p ⟨0x2300, 0x03, [1]⟩ 0 s t) ∧
    (∀ m, Completes (.safReqPart m) s fun t => DemandFrame s t ∧ PartSafe s t 0 ∧ t.bus = .ok 0) ∧
    (Completes .aonLockstepMismatch s fun t => DemandFrame s t ∧ PartSafe s t 1) ∧
    (∀ m key, m ≠ .aon → BusErrorBy m (.safWdt m key) s) ∧
    (∀ key, right key → exec (.safWdt .aon key) s = .next { s with
      bus := .ok 0, saf := { s.saf with wdtLast := s.aoclk, wdtNext := !s.saf.wdtNext } }) ∧
    (∀ key, ¬right key → Completes (.safWdt .aon key) s fun t => DemandFrame s t ∧ PartSafe s t 2 ∧ t.bus = .ok 0) ∧
    (1024 < since → Completes .watchdog s fun t => DemandFrame s t ∧ PartSafe s t 2) ∧
    (since ≤ 1024 → ChangesNothing .watchdog s) ∧
    (∀ k, Completes (.clockFault k) s fun t =>
      let x := { s with clk := { s.clk with xinOk := s.clk.xinOk && k != .xin } }
      DemandFrame x t ∧ PartSafe x t 3) ∧
    (Completes (.voltageFault true) s fun t =>
      let x := { s with saf := { s.saf with conds := s.saf.conds ||| 0x10 } }
      DemandFrame x t ∧ PartSafe x t 4) ∧
    (exec (.voltageFault false) s = .next { s with saf := { s.saf with conds := s.saf.conds &&& 0xFEF } }) ∧
    (∀ tj, 120 ≤ tj → Completes (.temperatureFault tj) s fun t =>
      let x := { s with saf := { s.saf with conds := s.saf.conds ||| 0x20 } }
      DemandFrame x t ∧ PartSafe x t 5) ∧
    (∀ tj, tj < 105 → exec (.temperatureFault tj) s = .next { s with saf := { s.saf with conds := s.saf.conds &&& 0xFDF } }) ∧
    (∀ tj, 105 ≤ tj → tj < 120 → ChangesNothing (.temperatureFault tj) s) ∧
    (∀ a b, Completes (.pinReadback a b) s fun t =>
      let x := { s with saf := { s.saf with pinA := a, pinB := b } }
      if s.saf.outEn = true ∧ (a ≠ drivenA s ∨ b ≠ drivenB s) then DemandFrame x t ∧ PartSafe x t 6 else t = x) ∧
    (rotationLate s = true → Completes .rotationOverdue s fun t => DemandFrame s t ∧ PartSafe s t 10) ∧
    (rotationLate s = false → ChangesNothing .rotationOverdue s)

/-- Clears: that of a context in SAFE, without a part cause and without cause PART, is kept for its F; that of the part, while
no persistent cause and no cause whose condition persists is latched, takes every cause, and FAULT_N rises; a demand or a cause of
the same edge wins over either (R459). Test pulses, and
the notice that the start self-test is a year old. -/
def Obligations.ClearsAndPulses : Prop :=
  ∀ s : State,
    let may := fun (c : CtxId) => (s.ctx c).sstate = .safe ∧ s.saf.causes = 0 ∧ (s.ctx c).cause.toNat.testBit 2 = false ∧
      (s.ctx c).demandAt ≠ some s.now
    let pulse := s.saf.outEn = true ∧ s.permit = true ∧ s.saf.pulseEn = true ∧ s.now % 4000000 = 0
    let old := 8760 ≤ testAge s ∧ s.saf.stDone = true ∧ s.saf.ageSent = false
    let Cleared := fun (t : State) =>
      t.saf.causes = 0 ∧ t.saf.faultLow = false ∧ (s.saf.outEn = false → t.saf.driveA = s.saf.driveA) ∧
        ∀ c, t.ctx c = { s.ctx c with
          cause := (s.ctx c).cause &&& 3
          clearPend := (s.ctx c).clearPend ||
            ((s.ctx c).sstate == .safe && (s.ctx c).cause != 0 && (s.ctx c).cause &&& 3 == 0 && (s.ctx c).demandAt != some s.now) }
    (∀ p c, Accepted s (.safeClear p c) → may c ∧ Completes (.safeClear p c) s fun t =>
      AnswerFrame { s with sem := t.sem, ctxs := t.ctxs } t ∧ Noted p ⟨0x2301 + c.val, 0x05, [1]⟩ s t ∧ OtherContexts c s t ∧
        t.ctx c = { s.ctx c with clearPend := true }) ∧
    (∀ p, Accepted s (.partClear p) → Completes (.partClear p) s fun t =>
      AnswerFrame { s with sem := t.sem, ctxs := t.ctxs, saf := t.saf } t ∧ Noted p ⟨0x2300, 0x04, [1]⟩ s t ∧ Cleared t) ∧
    (∀ m bits, m ≠ .aon → BusErrorBy m (.safClearCtx m bits) s ∧ BusErrorBy m (.safClearPart m) s) ∧
    (∀ bits : BitVec 16, Completes (.safClearCtx .aon bits) s fun t =>
      t = { s with bus := .ok 0, ctxs := t.ctxs } ∧ ∀ c,
        (bits.toNat.testBit c.val = true ∧ may c → t.ctx c = { s.ctx c with clearPend := true }) ∧
        (¬(bits.toNat.testBit c.val = true ∧ may c) → t.ctx c = s.ctx c)) ∧
    (s.saf.causes &&& 0x3CE = 0 → s.saf.causes &&& liveConds s = 0 → s.saf.causeAt ≠ some s.now → Completes (.safClearPart .aon) s fun t =>
      t = { s with bus := .ok 0, ctxs := t.ctxs, saf := t.saf } ∧ Cleared t) ∧
    (s.saf.causes &&& 0x3CE ≠ 0 ∨ s.saf.causes &&& liveConds s ≠ 0 ∨ s.saf.causeAt = some s.now →
      exec (.safClearPart .aon) s = .next { s with bus := .ok 0 }) ∧
    (pulse → exec .testPulse s = .next { s with saf := { s.saf with lastPulse := some s.now } }) ∧
    (¬pulse → ChangesNothing .testPulse s) ∧
    (old → Completes .testAgeExpiry s fun t =>
      t = { s with saf := { s.saf with ageSent := true }, cn0 := t.cn0, cn1 := t.cn1, errField := t.errField } ∧
        Announced s t 0xFF07 0xFF) ∧
    (¬old → ChangesNothing .testAgeExpiry s)

/-- Golden frames and lane tests: the right digest passes; a wrong one, or none in time, retires the engine at once; the slot
of REDUCED ends after 25,000 ACLK; a lane test replaces one failing lane by the spare, and retires an engine beyond that. -/
def Obligations.EngineTestsAreJudged : Prop :=
  ∀ (n : EngId) (s : State), s.retired n = false →
    let Passed := fun (t : State) =>
      (t.eng n).gfFrom = s.aoclk ∧ t.saf.gfPass = (s.saf.gfPass + 1) % 2 ^ 32 ∧ t.saf.lastEng = n.val ∧
        t.saf.lastPass = true ∧ t.saf.gfFail = s.saf.gfFail ∧ OtherEngines n s t ∧ t.ctxs = s.ctxs ∧ t.faults = s.faults ∧
        SameMemory s t
    let Failed := fun (t : State) (detail : Nat) =>
      Retired s t n 1 ∧ Recorded s t 0x0103 n.val n.val detail ∧ t.saf.gfFail = (s.saf.gfFail + 1) % 2 ^ 32 ∧
        t.saf.lastEng = n.val ∧ t.saf.lastPass = false ∧ t.saf.gfPass = s.saf.gfPass
    -- the golden frame of a start test begins with the end of its lane test
    let Started := fun (t : State) (e : Engine) =>
      if s.roles.bringIn = some (n, 0) then
        { e with
          st := .run, banks := Vector.replicate 16 default, spad := (t.eng n).spad, spadGen := (t.eng n).spadGen
          goldLane := if e.spareUsed then none else some (s.roles.steps % 64), tileStation := 15
          tileSeq := (t.eng n).tileSeq, tileCtx := (t.eng n).tileCtx, tileFrame := (t.eng n).tileFrame }
      else e
    -- a rotation step of the same edge comes before a finding (R514)
    let AfterStep := fun (t : State) => t.retired n = true ∧ t.roles.steps = s.roles.steps + 1
    let Judged := fun (c : Instr) (p : State → Prop) =>
      (stepWaits s = false → Completes c s p) ∧ (stepWaits s = true → Completes c s AfterStep)
    (s.roles.bringIn ≠ some (n, 1) → s.goldenTile n = none →
      (∀ d, ChangesNothing (.goldenDigest n d) s) ∧ ChangesNothing (.goldenTimeout n) s) ∧
    (∀ x d, s.roles.bringIn ≠ some (n, 1) → s.goldenTile n = some x → x.discard = false →
      (goldenHash d = goldenExpected s → Completes (.goldenDigest n d) s fun t =>
        Passed t ∧ (s.roles.testEng = some n → s.service ≠ 2 → t.roles = { s.roles with gold := .ended })) ∧
      (goldenHash d ≠ goldenExpected s → Judged (.goldenDigest n d) fun t => Failed t 1) ∧
      (x.since + 48000 ≤ s.now → Judged (.goldenTimeout n) fun t => Failed t 2) ∧
      (s.now < x.since + 48000 → ChangesNothing (.goldenTimeout n) s)) ∧
    (s.roles.bringIn = some (n, 1) →
      (∀ d, goldenHash d = goldenExpected s → Completes (.goldenDigest n d) s fun t =>
        Passed t ∧ t.roles.bringIn = some (n, 2) ∧ (t.eng n).clipStep = s.roles.steps ∧ (t.eng n).st = .idle) ∧
      (∀ d, goldenHash d ≠ goldenExpected s → Judged (.goldenDigest n d) fun t => Failed t 1) ∧
      (s.goldenTile n = none → s.roles.bringAt + 48000 ≤ s.now → Judged (.goldenTimeout n) fun t => Failed t 2) ∧
      (s.goldenTile n = none → s.now < s.roles.bringAt + 48000 → ChangesNothing (.goldenTimeout n) s)) ∧
    (∀ start x, s.roles.gold = .running start → s.roles.testEng = some n → s.service = 2 → s.goldenTile n = some x →
      x.discard = false → ChangesNothing .goldenSlotEnd s) ∧
    (∀ start, s.roles.gold = .running start → s.roles.testEng = some n → s.service = 2 → s.goldenTile n = none →
      (start + 25000 ≤ s.now → exec .goldenSlotEnd s = .next { s with roles := { s.roles with gold := .ended } }) ∧
      (s.now < start + 25000 → ChangesNothing .goldenSlotEnd s)) ∧
    (∀ l, laneTestDue s n = false → ChangesNothing (.laneTestComplete n l) s) ∧
    (laneTestDue s n = true →
      (Completes (.laneTestComplete n []) s fun t =>
        t = { s with engines := t.engines, freeCount := t.freeCount, roles := { s.roles with
          laneTest := s.roles.laneTest.filter fun e => e != n
          bringIn := if s.roles.bringIn = some (n, 0) then some (n, 1) else s.roles.bringIn
          bringAt := if s.roles.bringIn = some (n, 0) then s.now else s.roles.bringAt } } ∧
          OtherEngines n s t ∧ t.eng n = Started t (s.eng n)) ∧
      (∀ l : Fin 65, l.val < 64 → (s.eng n).spareUsed = false → Completes (.laneTestComplete n [l]) s fun t =>
        t.eng n = Started t { s.eng n with spareUsed := true, lane := l.val } ∧ OtherEngines n s t ∧
          t.wear.engLane[n] = l.val + 1 ∧ Recorded s t 0x0108 n.val n.val (1 + 256 * l.val) ∧
          t.roles.laneTest = s.roles.laneTest.filter (fun e => e != n) ∧ t.roles.working = s.roles.working ∧
          t.roles.retired = s.roles.retired ∧ SameButWear s t ∧ WearWritten s t ∧ t.ctxs = s.ctxs) ∧
      (∀ (l : Fin 65) (rest : List (Fin 65)), rest ≠ [] ∨ l.val = 64 ∨ (s.eng n).spareUsed = true →
        Judged (.laneTestComplete n (l :: rest)) fun t =>
          Retired s t n 3 ∧ Recorded s t 0x0108 n.val n.val (rest.length + 1 + 256 * l.val)))

/-! ### The store, resets, contexts, dumps (R19-R21, R351, R352, R482-R484, R505-R549, R564-R566) -/

/-- Accesses to the stacked store: a request of an old generation is discarded and counted; an address that does not exist, or the
store in reset, is a bus error; a range that no region holds, or a right that the region does not give, is a bus error with a
fault record; a granted write stores its bytes and nothing else; a granted read of clean lines gives what the region holds there,
and of a line bad in every copy a bus error. -/
def Obligations.StoreAccesses : Prop :=
  ∀ (q : StoreReq) (s : State),
    let m := storeMaster q
    let n := match q.write with
      | some b => b.length
      | none => q.len
    let off := q.addr - 0x40000000
    let inside := 0x40000000 ≤ q.addr ∧ q.addr + n ≤ 0x40000000 + 2 ^ 29
    let right := fun (r : Region) => match q.write with
      | some _ => writable q r
      | none => readable q r
    let quiet := fun (t : State) => (∀ k, m ≠ .engine k) → t.engines = s.engines ∧ SameMemory s t
    let Barred := fun (t : State) =>
      t.bus = .error ∧ quiet t ∧ t.world = s.world ∧ ∃ i,
        Recorded s t 0x0209 (reqDomain q) 0x1F (q.req.val * 2 ^ 24 + i) ∧ ∀ k r, regionAt s off n = some (k, r) → i = k
    (q.gen ≠ domTag s (reqDomain q) → Completes (.storeAccess q) s fun t =>
      t = { s with
        bus := t.bus, faults := { s.faults with stale := min 65535 (s.faults.stale + 1), staleDomain := reqDomain q } }) ∧
    (q.gen = domTag s (reqDomain q) → ¬inside ∨ s.inReset domStore = true → BusErrorBy m (.storeAccess q) s) ∧
    (q.gen = domTag s (reqDomain q) → inside → s.inReset domStore = false →
      (∀ k r, regionAt s off n = some (k, r) → right r = false) → Completes (.storeAccess q) s Barred) ∧
    ∀ k r, q.gen = domTag s (reqDomain q) → inside → s.inReset domStore = false → regionAt s off n = some (k, r) →
      right r = true →
      (∀ bs, q.write = some bs → Completes (.storeAccess q) s fun t =>
        t = { s with bus := .ok 0, store := t.store } ∧ (Memory.wf s.store = true → memRead t.store q.addr bs.length = bs) ∧
          ∀ a, ¬(q.addr ≤ a ∧ a < q.addr + bs.length) → memByte t.store a = memByte s.store a) ∧
      (q.write = none → s.scrub.lost = [] → s.scrub.poisoned = [] → q.die0 = .clean → q.die1 = .clean →
        r.kind ∉ [4, 5, 6, 7] → exec (.storeAccess q) s = .next { s with bus := .bytes (memRead s.store q.addr q.len) }) ∧
      (q.write = none → s.scrub.lost = [] → s.scrub.poisoned = [] → q.die0 = .clean → q.die1 = .clean →
        Completes (.storeAccess q) s fun t =>
          t = { s with bus := t.bus, freeCount := t.freeCount, engines := t.engines } ∧
            (∀ j : EngId, t.eng j = { s.eng j with core := { (s.eng j).core with lines := (t.eng j).core.lines } }) ∧
            (r.kind ≠ 4 → r.kind ≠ 5 → t.engines = s.engines) ∧
            ∃ bs, t.bus = .bytes bs ∧ bs.length = q.len ∧
              ∀ i b, i < q.len → regionByte s r (off - r.offset + i) = some b → bs[i]? = some b) ∧
      (q.write = none → q.die0 = .bad → q.die1 = .bad → Completes (.storeAccess q) s fun t => t.bus = .error ∧ quiet t)

/-- Store maintenance: a visit of the scrubber moves on by one line of every bank, and the sixteenth corrected error of a row
between two visits asks for its spare; a copy that completes switches the map and writes the wear record, signed, into
its sector of the boot flash; each hour of power-on time enters the wear record with its largest Tj, and every 4 hours the record is
written; a store controller that differs from its shadow is found faulty and reset at once. -/
def Obligations.StoreMaintenance : Prop :=
  ∀ s : State,
    let visit := s.boot.phase = .on ∧ s.now % 32768 = 0 ∧ s.inReset domStore = false
    let hours := s.boot.phase = .on ∧ s.now % hour = 0 ∧ 0 < hoursDue s
    (∀ hits, ¬visit → ChangesNothing (.scrubRead hits) s) ∧
    (visit → Completes (.scrubRead []) s fun t =>
      t = { s with scrub := { s.scrub with next := (s.scrub.next + 1) % 262144, ceRows := t.scrub.ceRows } } ∧
        (s.scrub.next % 128 ≠ 127 → t.scrub.ceRows = s.scrub.ceRows) ∧
        (s.scrub.next % 128 = 127 → ∀ e ∈ t.scrub.ceRows, e.1 % 2048 ≠ s.scrub.next / 128)) ∧
    (∀ h : ScrubHit, visit → h.row = s.scrub.next / 128 → h.line = s.scrub.next % 128 → h.die < 2 → h.bank < 16 →
      h.state = .corrected → s.scrub.next % 128 ≠ 127 →
      let row := (h.die * 16 + h.bank) * 2048 + h.row
      let k := amGetD s.scrub.ceRows row 0 + 1
      Completes (.scrubRead [h]) s fun t =>
        t.scrub.next = (s.scrub.next + 1) % 262144 ∧ amGetD t.scrub.ceRows row 0 = k ∧ SameMemory s t ∧
          t.engines = s.engines ∧ t.ctxs = s.ctxs ∧
          (k ≠ 16 → t.scrub.dueRows = s.scrub.dueRows ∧ t.scrub.copying = s.scrub.copying ∧ t.faults = s.faults) ∧
          (k = 16 → row ∉ s.scrub.lost → amGetD s.wear.rowsUsed (bankOf row) 0 +
            ((s.scrub.copying.toList ++ s.scrub.dueRows).filter fun r => bankOf r == bankOf row).length < 41 →
              t.scrub.copying = some row ∨ row ∈ t.scrub.dueRows)) ∧
    (s.scrub.copying = none → ChangesNothing .rowSpareCopyComplete s) ∧
    (∀ row, s.scrub.copying = some row → Completes .rowSpareCopyComplete s fun t =>
      let k := amGetD s.wear.rowsUsed (bankOf row) 0
      Recorded s t 0x0207 20 0x1F (rowDetail row) ∧ amGet t.wear.spareMap row = some k ∧
        amGet t.wear.rowsUsed (bankOf row) = some (k + 1) ∧ WearWritten s t ∧
        (row ∉ s.scrub.dueRows → t.scrub.copying ≠ some row) ∧
        (∀ l, l ∈ t.scrub.poisoned ↔ l ∈ s.scrub.poisoned ∨ (l ∈ s.scrub.badLines ∧ rowOf l = row ∧ mirrored s l = false)) ∧
        SameButWear s t ∧ t.engines = s.engines ∧ t.ctxs = s.ctxs) ∧
    (∀ a b c d, ¬hours → ChangesNothing (.wearRecordWrite a b c d) s) ∧
    (∀ a b c d, hours → Completes (.wearRecordWrite a b c d) s fun t =>
      t = { s with
        clk := { s.clk with hours := s.now / hour }, wear := t.wear, flashWear := t.flashWear, flash := t.flash } ∧
        t.wear = { s.wear with
          seq := t.wear.seq, powerHours := s.wear.powerHours + hoursDue s
          lifeUsed := s.wear.lifeUsed + (([a, b, c, d].drop (4 - hoursDue s)).map lifeUnits).sum } ∧
        (s.now % (4 * hour) ≠ 0 → t.wear.seq = s.wear.seq ∧ t.flashWear = s.flashWear ∧ t.flash = s.flash) ∧
        (s.now % (4 * hour) = 0 → WearWritten s t)) ∧
    (∀ (k : Fin 4) l, s.boot.phase ≠ .on ∨ s.inReset domStore = true → ChangesNothing (.storeLockstep ⟨k, l⟩) s) ∧
    (∀ (k : Fin 4) l, s.boot.phase = .on → s.inReset domStore = false → Completes (.storeLockstep ⟨k, l⟩) s fun t =>
      t.inReset domStore = true ∧ t.faults.gen[domStore] = (s.faults.gen[domStore] + 1) % 16 ∧
        Recorded s t 0x0206 20 0x1F k.val ∧ (domStore, s.now) ∈ t.faults.fences ∧ SameMemory s t ∧ TilesGoBack l s t ∧
        t.ctxs = s.ctxs)

/-- Resets of domains: by AON with SYS_RST_REQ, by a port with DOMAIN_RESET. The fence of an engine's domain lets its tiles be
dispatched again; the reset ends after its least time and its fence, but never for a retired engine. -/
def Obligations.DomainResets : Prop :=
  ∀ (s : State) (d : DomainId),
    (∀ m bits, m ≠ .aon → BusErrorBy m (.sysRstReq m bits) s) ∧
    (Completes (.sysRstReq .aon (BitVec.ofNat 30 (2 ^ d.val))) s fun t => ResetBegun s t d ∧ t.bus = .ok 0) ∧
    (∀ bits : BitVec 30, Completes (.sysRstReq .aon bits) s fun t => t.bus = .ok 0 ∧
      t.inReset d = (s.inReset d || bits.toNat.testBit d.val)) ∧
    (∀ p, Accepted s (.domainReset p (BitVec.ofNat 8 d.val)) → s.anyRuns = false ∧
      Completes (.domainReset p (BitVec.ofNat 8 d.val)) s fun t => ResetBegun s t d ∧
        (d ≠ domIo → Noted p ⟨0x2400, 0x18, [BitVec.ofNat 8 d.val]⟩ s t)) ∧
    ((∀ x ∈ s.faults.fences, x.1 ≠ d) → ChangesNothing (.fenceComplete d) s) ∧
    ((∃ x ∈ s.faults.fences, x.1 = d) → Completes (.fenceComplete d) s fun t =>
      t = { s with
        faults := { s.faults with fences := s.faults.fences.filter fun x => x.1 != d }
        tds := { s.tds with tiles := t.tds.tiles } } ∧
        (∀ n : EngId, engDomain n = d → ∀ x ∈ t.tds.tiles, x.status ≠ .fenced n) ∧
        (∀ n : EngId, engDomain n = d → ∀ x ∈ s.tds.tiles, x.status = .fenced n → { x with status := .ready } ∈ t.tds.tiles) ∧
        ∀ x ∈ s.tds.tiles, (∀ n, x.status ≠ .fenced n) → x ∈ t.tds.tiles) ∧
    (let ended := s.inReset d = true ∧ (∀ n : EngId, engDomain n = d → s.retired n = false) ∧
        (∀ x ∈ s.faults.fences, x.1 ≠ d) ∧ s.faults.resetFrom[d] + resetTime d ≤ s.now;
      (¬ended → ∀ mib, ChangesNothing (.domainResetEnd ⟨d, mib⟩) s) ∧
      (ended → ∀ mib, Completes (.domainResetEnd ⟨d, mib⟩) s fun t =>
        t.inReset d = false ∧ (∀ k, k ≠ d → t.inReset k = s.inReset k) ∧ t.faults.gen = s.faults.gen ∧
          (∀ n : EngId, engDomain n = d → (s.eng n).st ≠ .off → (s.eng n).faulty = false →
            t.eng n = { s.eng n with st := .idle, idleFrom := s.now }) ∧
          (∀ n : EngId, engDomain n = d → (s.eng n).st = .off ∨ (s.eng n).faulty = true → t.eng n = s.eng n) ∧
          (∀ n : EngId, engDomain n ≠ d → t.eng n = s.eng n) ∧
          (∀ l : LinkId, 22 + l.val = d.val → ∀ k, s.boot.cfg.links[l.val]? = some k →
            (t.link l).en = k.en ∧ (t.link l).spareEn = k.spareEn ∧ (k.en = true → (t.link l).st = .training)) ∧
          (d = domPsram → ∀ (ch : Fin 8) k, s.boot.cfg.psram[ch.val]? = some k →
            let ok := [8, 16, 32, 64].contains (mib[ch.val]?.getD 0)
            t.power.chPop[ch] = k.pop ∧ t.power.chLc[ch] = k.lc ∧
              t.power.chState[ch] = if k.pop = false then 0 else if ok then 2 else 3) ∧
          (d = domHost → t.boot.hostUp = hostImageOk s) ∧ (d = domIo → t.sda = sdFromCfg s .sda ∧ t.cn0 = canFromCfg s .cn0) ∧
          t.ctxs = s.ctxs ∧ SameMemory s t ∧ t.world = s.world ∧ t.saf = s.saf ∧ t.wear = s.wear))

/-- Watchdogs of domains: an engine that has held a watched tile beyond its limit is found faulty with ENGINE_HANG (after a rotation
step of the same edge, R514); another domain that hangs is recorded, dumped and then reset. Since when a condition has lasted that the
state does not hold, the command says (log 59). -/
def Obligations.DomainWatchdogs : Prop :=
  ∀ (s : State) (d : DomainId) (since : Nat) (l : List EngId),
    (s.boot.phase ≠ .on ∨ s.inReset d = true → ChangesNothing (.domainWatchdog ⟨d, since, l⟩) s) ∧
    (∀ n : EngId, engDomain n = d → s.boot.phase = .on → s.inReset d = false → stepWaits s = true →
      Completes (.domainWatchdog ⟨d, since, l⟩) s fun t => t.roles.steps = s.roles.steps + 1) ∧
    (∀ n : EngId, engDomain n = d → s.boot.phase = .on → s.inReset d = false → stepWaits s = false →
      (s.heldTile n = none → ChangesNothing (.domainWatchdog ⟨d, since, l⟩) s) ∧
      ∀ x k, s.heldTile n = some x → tileLimit s x = some k →
        (s.now < x.since + k → ChangesNothing (.domainWatchdog ⟨d, since, l⟩) s) ∧
        (x.since + k ≤ s.now → s.retired n = false → (s.eng n).faulty = false → retireReason s n false = none →
          Completes (.domainWatchdog ⟨d, since, l⟩) s fun t =>
            (t.eng n).st = .stopped ∧ (t.eng n).holding = none ∧ (t.eng n).faulty = true ∧
              t.faults.gen[d] = (s.faults.gen[d] + 1) % 16 ∧ Recorded s t 0x0102 n.val n.val x.seq ∧ n ∈ t.roles.steer ∧
              SameMemory s t)) ∧
    ((∀ n : EngId, engDomain n ≠ d) → s.boot.phase = .on → s.inReset d = false →
      (hangs s d since = false → ChangesNothing (.domainWatchdog ⟨d, since, l⟩) s) ∧
      (hangs s d since = true → Completes (.domainWatchdog ⟨d, since, l⟩) s fun t =>
        t.faults.gen[d] = (s.faults.gen[d] + 1) % 16 ∧ Recorded s t 0x0401 d.val 0x1F 0 ∧
          (d ≠ domStore → d ∈ t.faults.resetDue) ∧ (d = domStore → t.inReset d = true ∧ TilesGoBack l s t) ∧ (d ≠ domStore → t.engines = s.engines) ∧
          t.ctxs = s.ctxs ∧ SameMemory s t ∧ t.world = s.world))

/-- Contexts: an accepted start makes the context STARTING, ARMING (SAFE in the part safe state), with its loads to be made on
every working and coppice engine; a stop makes it DRAINING and STOPPED with nothing of its frame left but tiles that run; it
is IDLE when they have drained; a drain that takes too long tears the engines down that still hold its tiles. -/
def Obligations.ContextsStartAndStop : Prop :=
  ∀ (s : State) (c : CtxId),
    let x := s.ctx c
    let late := x.st = .draining ∧ x.drainFrom + us (2 * tileMaxCtx s c + 100) ≤ s.now
    (∀ p, Accepted s (.ctxCtrlStart p c) → x.st = .idle ∧ s.service ≠ 3 ∧ planOf s (cNat s c 0x03) ≠ none ∧
      Completes (.ctxCtrlStart p c) s fun t =>
        let y := t.ctx c
        AnswerFrame { s with sem := t.sem, ctxs := t.ctxs, saf := t.saf, engines := t.engines } t ∧ OtherContexts c s t ∧
          (∀ n : EngId, t.eng n = { s.eng n with banks := (t.eng n).banks } ∧ ∀ b : BankId,
            s.working n = true ∨ s.roles.coppice = some n → (t.eng n).banks[b].owner = 0) ∧
          Noted p ⟨0x2000 + c.val, 0x01, [1]⟩ s t ∧ y.st = .starting ∧ y.plan = planOf s (cNat s c 0x03) ∧ y.run = none ∧
          (∀ n : EngId, n ∈ y.loading ↔ s.working n = true ∨ s.roles.coppice = some n) ∧ y.warm = [] ∧ y.stop = none ∧
          (s.saf.causes = 0 → y.sstate = .arming ∧ y.cause = 0) ∧ (s.saf.causes ≠ 0 → y.sstate = .safe ∧ y.cause = 4) ∧
          t.saf = { s.saf with driveA := t.saf.driveA, driveB := t.saf.driveB }) ∧
    (∀ p, Accepted s (.ctxCtrlStop p c) → s.started c = true → Completes (.ctxCtrlStop p c) s fun t =>
      let y := t.ctx c
      Answers p ⟨0x2000 + c.val, 0x01, [2]⟩ 0 s t ∧ OtherContexts c s t ∧ y.st = .draining ∧ y.drainFrom = s.now ∧ y.run = none ∧
        y.sstate = .stopped ∧ y.cause = 0 ∧ y.loading = [] ∧ y.rm.nextDelta = none ∧ y.rm.ready = none ∧
        (∀ z ∈ t.tds.tiles, z.ctx = c.val → z.discard = true ∧ ((∃ n, z.status = .held n) ∨ ∃ a e, z.status = .dealt a e)) ∧
        (∀ z ∈ s.tds.tiles, z.ctx ≠ c.val → z ∈ t.tds.tiles) ∧ t.vfy.busy ≠ some c ∧
        (∀ j ∈ t.loader, ∀ p h k, j.op ≠ .load c p h k) ∧ (∀ j ∈ t.loader, ∀ b, j.op ≠ .delta c b) ∧
        t.engines = s.engines ∧ t.world = s.world ∧ SameMemory s t ∧ t.faults = s.faults) ∧
    (x.st = .draining → drained s c = true → Completes (.drainComplete c) s fun t =>
      t = { s with ctxs := t.ctxs, engines := t.engines } ∧ OtherContexts c s t ∧ t.ctx c = { x with st := .idle } ∧
        ∀ n : EngId, (t.eng n).ctxLoaded = (s.eng n).ctxLoaded &&& ~~~(BitVec.ofNat 16 (2 ^ c.val)) ∧
          t.eng n = { s.eng n with
            ctxLoaded := (t.eng n).ctxLoaded, imemUsed := (t.eng n).imemUsed
            imem := (s.eng n).imem.filter fun x => x.1 != c.val, resident := (s.eng n).resident.filter fun x => x.1 != c.val }) ∧
    (x.st ≠ .draining ∨ drained s c = false → ChangesNothing (.drainComplete c) s) ∧
    (¬late → ChangesNothing (.teardown c) s) ∧
    (late → Completes (.teardown c) s fun t =>
      (∀ n : EngId, holdsOf s c n = true → s.retired n = false → (s.eng n).faulty = false →
        (t.eng n).faulty = true ∧ (t.eng n).st = .stopped ∧ (t.eng n).holding = none ∧
          (∀ z ∈ t.tds.tiles, z.status ≠ .held n) ∧
          t.faults.gen[(engDomain n)] = (s.faults.gen[(engDomain n)] + 1) % 16) ∧
        (stepWaits s = false → t.world = s.world ∧ SameMemory s t) ∧ t.roles.retired = s.roles.retired)

/-- Crash dumps: a request has a full dump waiting; the next dump begins with its summary when none runs; two time-outs of the
side path in a row within a unit leave it unreadable, and reading goes on with the next one; a dump that completes is in PSRAM, or in the retention SRAM where PSRAM is not to
be used, and the resets that waited for it begin. -/
def Obligations.DumpsRun : Prop :=
  ∀ s : State,
    let d := s.dump
    (∀ p, Accepted s (.dumpReq p) → s.anyRuns = false ∧ Completes (.dumpReq p) s fun t =>
      AnswerFrame { s with sem := t.sem, dump := { d with queue := t.dump.queue } } t ∧ Noted p ⟨0x2400, 0x14, [1]⟩ s t ∧
        ∃ j ∈ t.dump.queue, j.domain = none) ∧
    (d.queue = [] ∨ d.st = 1 → ChangesNothing .dumpStart s) ∧
    (∀ j rest, d.queue = j :: rest → d.st ≠ 1 → Completes .dumpStart s fun t =>
      t = { s with dump := { d with
        st := 1, cur := some j, queue := rest, seq := (d.seq + 1) % 2 ^ 32, timeouts := 0, unreadCount := 0
        unitAt := 0, wordAt := 0, readTo := s.now, unread := [], summary := t.dump.summary } } ∧ t.dump.summary.length = 1024) ∧
    (d.cur = none ∨ d.st ≠ 1 → ChangesNothing .sidePathTimeout s ∧ ∀ f, ChangesNothing (.dumpComplete f) s) ∧
    (∀ j u w, d.cur = some j → d.st = 1 →
      let words := j.units.map (·.2.2)
      let n := (s.now - timeoutTime - d.readTo) / answerTime
      let again := d.timeouts = 1 ∧ n = 0 ∧ u = d.unitAt
      readOn (words.drop d.unitAt) d.unitAt d.wordAt n = (u, w) →
      (words.length ≤ u → ChangesNothing .sidePathTimeout s) ∧
      (u < words.length → ¬again → exec .sidePathTimeout s = .next { s with
        dump := { d with timeouts := 1, unitAt := u, wordAt := w + 1, readTo := s.now } }) ∧
      (u < words.length → again → exec .sidePathTimeout s = .next { s with dump := { d with
        timeouts := 0, unreadCount := d.unreadCount + 1, unread := d.unread ++ [u], unitAt := u + 1, wordAt := 0
        readTo := s.now } })) ∧
    (∀ j f, d.cur = some j → d.st = 1 →
      (retained s j f = true → Completes (.dumpComplete f) s fun t =>
        t.dump.st = 3 ∧ t.dump.cur = none ∧ t.dump.ret = padTo 31744 (sectionBytes s j true) ∧
          (s.faults.resetDue = [] → t = { s with dump := t.dump })) ∧
      (retained s j f = false → Completes (.dumpComplete f) s fun t =>
        t.dump.st = 2 ∧ t.dump.cur = none ∧ t.dump.ret = d.ret ∧
          (s.faults.resetDue = [] → t = { s with dump := t.dump, psram := t.psram } ∧
            (∀ a, a < oNat s 0x2400 0x12 ∨ oNat s 0x2400 0x12 + oNat s 0x2400 0x13 ≤ a →
              memByte t.psram a = memByte s.psram a) ∧
            (Memory.wf s.psram = true →
              let bs := (sectionBytes s j false).take (oNat s 0x2400 0x13)
              memRead t.psram (oNat s 0x2400 0x12) bs.length = bs))) ∧
      Completes (.dumpComplete f) s fun t =>
        (∀ k ∈ s.faults.resetDue, (∀ q ∈ d.queue, q.domain ≠ some k ∧ q.domain ≠ none) → t.inReset k = true) ∧
          ∀ k, k ∉ s.faults.resetDue → t.inReset k = s.inReset k)

/-! ### Object accesses at the ports (R14-R17, R552-R562, R629) -/

/-- Writes take effect one after another: a write asks for SEM and holds it or waits; of two at one edge TIE chooses, and the
other is refused; the oldest that waits takes SEM at the edge at which it is released; the one that holds it is checked, takes effect
and is answered, or, where it is of a customer object, carried to its server. A live object's new value is in its shadow alone, and a frame boundary at the same edge does not take it. -/
def Obligations.WritesAreSerialised : Prop :=
  ∀ (s : State) (p : Port) (w : ObjWrite),
    let cmd : Instr := match p with
      | .a => .objectWrite (some w) none
      | .b => .objectWrite none (some w)
    let s1 : State := { s with sem := { s.sem with holder := none, lost := false } }
    ChangesNothing (.objectWrite none none) s ∧
    (s.serves = false → Completes cmd s fun t => AnswerFrame s t ∧ Answers p w 0x08000023 s t) ∧
    (s.serves = true → stopOrder w = none →
      (s.sem.holder = none → s.sem.waiting = [] →
        exec cmd s = .next { s with sem := { s.sem with holder := some (p, w), lost := false } }) ∧
      (∀ x rest, s.sem.holder = none → s.sem.waiting = x :: rest →
        exec cmd s = .next { s with sem := { s.sem with holder := some x, lost := false, waiting := rest ++ [(p, w)] } }) ∧
      (s.sem.holder ≠ none → exec cmd s = .next { s with sem := { s.sem with waiting := s.sem.waiting ++ [(p, w)] } })) ∧
    (s.serves = true → stopOrder w ≠ none → writeAbort s p w ≠ 0 → Completes cmd s fun t =>
      AnswerFrame s t ∧ Answers p w (writeAbort s p w) s t) ∧
    (s.serves = true → stopOrder w ≠ none → writeAbort s p w = 0 → Completes cmd s fun t =>
      Answers p w 0 s t ∧ t.sem.lastIndex = w.index ∧ t.sem.lastSub = w.sub ∧ t.sem.lastPort = 3 ∧
        (∀ y ∈ t.sem.waiting, y ∈ s.sem.waiting) ∧
        ∀ y, t.sem.holder = some y → s.sem.holder = some y ∨ y ∈ s.sem.waiting) ∧
    (∀ x y : ObjWrite, s.serves = true → stopOrder x = none → stopOrder y = none → s.sem.holder ≠ none →
      Completes (.objectWrite (some x) (some y)) s fun t =>
        AnswerFrame { s with sem := t.sem } t ∧ t.sem.tie = !s.sem.tie ∧ t.sem.ties = min 65535 (s.sem.ties + 1) ∧
          t.sem.holder = s.sem.holder ∧
          (s.sem.tie = false → t.sem.waiting = s.sem.waiting ++ [(.a, x)] ∧ Answers .b y 0x08000022 s t) ∧
          (s.sem.tie = true → t.sem.waiting = s.sem.waiting ++ [(.b, y)] ∧ Answers .a x 0x08000022 s t)) ∧
    (∀ x y : ObjWrite, s.serves = true → stopOrder x = none → stopOrder y = none → s.sem.holder = none → s.sem.waiting = [] →
      Completes (.objectWrite (some x) (some y)) s fun t =>
        AnswerFrame { s with sem := t.sem } t ∧ t.sem.tie = !s.sem.tie ∧ t.sem.ties = min 65535 (s.sem.ties + 1) ∧
          t.sem.waiting = s.sem.waiting ∧
          (s.sem.tie = false → t.sem.holder = some (.a, x) ∧ Answers .b y 0x08000022 s t) ∧
          (s.sem.tie = true → t.sem.holder = some (.b, y) ∧ Answers .a x 0x08000022 s t)) ∧
    (s.sem.holder ≠ none ∨ s.sem.waiting = [] → ChangesNothing .semGrant s) ∧
    (∀ x rest, s.sem.holder = none → s.sem.waiting = x :: rest →
      exec .semGrant s = .next { s with sem := { s.sem with holder := some x, lost := false, waiting := rest } }) ∧
    (s.sem.holder = none → ChangesNothing .objectWriteComplete s) ∧
    (s.sem.holder = some (p, w) → customIndex w.index = true → s.serves = true → isMember s = false → hostHeld s = false →
      Completes .objectWriteComplete s fun t =>
        t.sem.lastIndex = w.index ∧ t.sem.lastSub = w.sub ∧ t.sem.lastPort = portNat p ∧ ∃ b, (t.port p).cust = some
          { index := w.index, sub := w.sub, write := some w.data, at_ := s.now, posted := b
            lost := s.sem.lost || decide (w ∈ (s.port p).ended) }) ∧
    (s.sem.holder = some (p, w) → customIndex w.index = false → Completes .objectWriteComplete s fun t =>
      (∀ x, t.sem.holder = some x → s.sem.waiting.head? = some x ∨ (stopOrder w ≠ none ∧ x ∈ s.sem.waiting)) ∧
        (∀ x rest, s.sem.waiting = x :: rest → stopOrder w = none → t.inReset domIo = false → w.index ≠ 0x2600 →
          t.sem.holder = some x ∧ t.sem.waiting = rest) ∧
        (s.sem.lost = false → Answers p w (writeAbort s1 p w) s t ∨ t.inReset domIo = true) ∧
        (writeAbort s1 p w ≠ 0 → AnswerFrame (semNext s1) t) ∧
        (writeAbort s1 p w = 0 → t.sem.lastIndex = w.index ∧ t.sem.lastSub = w.sub ∧ t.sem.lastPort = portNat p ∧
          ∀ d, objDef w.index w.sub = some d →
            (d.acc = .rwf ∨ (d.acc = .rw ∧ w.sub ≠ 0x15) →
              amGet t.shadow (objKey w.index w.sub) = some w.data ∧ t.force = s.force ∧ t.world = s.world ∧
                t.engines = s.engines ∧ t.faults = s.faults ∧ t.store = s.store ∧
                t.saf = if w.index = 0x2300 ∧ w.sub = 0x05 then { s.saf with pulseEn := leNat w.data == 1 } else s.saf) ∧
            (d.acc = .rwf → boundaryShadow t = boundaryShadow s)))

/-- The commands that are writes of one object: before READY, while another write holds SEM, or where a check of R562 fails
(in its order), the write has no effect but its answer; where it is accepted it is answered with success and noted. -/
def Obligations.OwnWritesAreAnswered : Prop :=
  ∀ (s : State) (cmd : Instr) (p : Port) (w : ObjWrite), ownWriteOf cmd = some (p, w) →
    (s.serves = false → Completes cmd s fun t => AnswerFrame s t ∧ Answers p w 0x08000023 s t) ∧
    (s.serves = true → stopOrder w = none → ∀ h, s.sem.holder = some h → h ≠ (p, w) →
      exec cmd s = .next { s with sem := { s.sem with waiting := s.sem.waiting ++ [(p, w)] } }) ∧
    (s.serves = true → (s.sem.holder = none ∧ s.sem.waiting = []) ∨ stopOrder w ≠ none → writeAbort s p w ≠ 0 → Completes cmd s fun t =>
      AnswerFrame s t ∧ Answers p w (writeAbort s p w) s t) ∧
    (Accepts s p w → Completes cmd s fun t =>
      (t.inReset domIo = false → Answers p w 0 s t) ∧ t.sem.lastIndex = w.index ∧ t.sem.lastSub = w.sub ∧
        t.sem.lastPort = if stopOrder w = none then portNat p else 3) ∧
    (s.serves = true → isMember s = false → commIndex w.index = false →
      (indexExists w.index = false → writeAbort s p w = 0x06020000) ∧
      (indexExists w.index = true → objDef w.index w.sub = none → writeAbort s p w = 0x06090011) ∧
      ∀ d, indexExists w.index = true → objDef w.index w.sub = some d →
        (d.acc = .ro → writeAbort s p w = 0x06010002) ∧
        (d.acc ≠ .ro → (∃ k, d.len = some k ∧ k ≠ w.data.length) → writeAbort s p w = 0x06070010) ∧
        (d.acc ≠ .ro → (∀ k, d.len = some k → k = w.data.length) →
          (frozenNow s d w.index w.sub = true → writeAbort s p w = 0x08000022) ∧
          (frozenNow s d w.index w.sub = false → ∀ a, stateRefuses s w = some a → writeAbort s p w = a) ∧
          (frozenNow s d w.index w.sub = false → stateRefuses s w = none →
            rngOk d.rng w.data = false ∨ relOk s w.index w.sub w.data = false → writeAbort s p w = 0x06090030)))

/-- Reads are answered at once, without SEM: an object that may be read with its value, any other with the abort code of the
check that fails. An access to a customer object is carried to the host's server, and answered by it, by its absence, or by
the 10 ms limit; an answer later than that, or while the host cluster is held in reset, does not count, nor one that comes before
mailbox 31 has carried the access. A write is complete, and SEM_LAST shows it, once it is on its way (R590). -/
def Obligations.ReadsAreAnswered : Prop :=
  ∀ (s : State) (p : Port) (index sub : Nat),
    let Answered := fun (t : State) (abort : Nat) (data : Bytes) => s.inReset domIo = false → s.ifOf p < 4 → (t.port p).answer =
      some { index := index, sub := sub, abort := BitVec.ofNat 32 abort, data := data }
    (customIndex index = false → Completes (.objectRead p index sub) s fun t =>
      AnswerFrame s t ∧
        (s.serves = false → Answered t 0x08000023 []) ∧
        (s.serves = true → commIndex index = false →
          (indexExists index = false → Answered t 0x06020000 []) ∧
          (indexExists index = true → objDef index sub = none → Answered t 0x06090011 []) ∧
          ∀ d, indexExists index = true → objDef index sub = some d →
            (d.acc = .wo → Answered t 0x06010001 []) ∧ (d.acc = .ro → Answered t 0 (roValue s index sub)) ∧
              (d.acc = .rw ∨ d.acc = .rwf → Answered t 0 (rwValue s index sub)))) ∧
    (customIndex index = false → ∀ write reply, ChangesNothing (.customerObjectAccess p index sub write reply) s) ∧
    (∀ write, customIndex index = true → s.serves = true → write = none ∨ isMember s = false → hostHeld s = true →
      (∀ q, (s.port p).cust = some q → ¬(q.index = index ∧ q.sub = sub ∧ q.write = write)) →
      Completes (.customerObjectAccess p index sub write none) s fun t => AnswerFrame s t ∧ Answered t 0x08000021 []) ∧
    (∀ write, customIndex index = true → s.serves = true → write = none ∨ isMember s = false → hostHeld s = false →
      (∀ q, (s.port p).cust = some q → ¬(q.index = index ∧ q.sub = sub ∧ q.write = write)) →
      Completes (.customerObjectAccess p index sub write none) s fun t =>
        (∃ b, (t.port p).cust = some { index := index, sub := sub, write := write, at_ := s.now, posted := b, lost := false } ∧
          (b = true → s.mbx.box[(31 : MbxId)].full = false)) ∧
          t.mbx.box[(31 : MbxId)].full = true ∧ OtherBoxes 31 s t ∧
          (s.mbx.box[(31 : MbxId)].full = true → t.mbx.box[(31 : MbxId)] = s.mbx.box[(31 : MbxId)]) ∧
          (∀ d, write = some d → t.sem = { s.sem with lastIndex := index, lastSub := sub, lastPort := portNat p }) ∧
          (write = none → t.sem = s.sem) ∧
          t.engines = s.engines ∧ t.world = s.world ∧ SameMemory s t ∧ t.ctxs = s.ctxs) ∧
    (∀ write code data q, customIndex index = true → (s.port p).cust = some q → q.index = index → q.sub = sub → q.write = write →
      (customLate s q = false → q.posted = false →
        ChangesNothing (.customerObjectAccess p index sub write (some (code, data))) s) ∧
      (customLate s q = true ∨ q.posted = true → Completes (.customerObjectAccess p index sub write (some (code, data))) s fun t =>
        AnswerFrame s t ∧ (t.port p).cust = none ∧
          (q.lost = true → (t.port p).answer = (s.port p).answer) ∧
          (q.lost = false → customLate s q = true → Answered t 0x08000021 []) ∧
          (q.lost = false → customLate s q = false → Answered t code.toNat (if write = none then data else [])))) ∧
    ((s.port p).cust = none → ChangesNothing (.customerServerTimeout p) s) ∧
    ∀ q, (s.port p).cust = some q →
      (s.now < q.at_ + us 10000 → hostHeld s = false → ChangesNothing (.customerServerTimeout p) s) ∧
      (q.at_ + us 10000 ≤ s.now ∨ hostHeld s = true → q.index = index → q.sub = sub →
        Completes (.customerServerTimeout p) s fun t =>
          AnswerFrame s t ∧ (t.port p).cust = none ∧ (q.lost = false → Answered t 0x08000021 []))

/-! ### SDIO (R567-R572, R591, R630, R698) -/

/-- The SDIO interface: the object window reads and writes the object that it names, and answers DONE or ABORTED; the card
commands move the card's state; RESULT_OUT gives the oldest record; MEM moves bytes of PSRAM at MEM_ADDR, writes inside their
window only, and a read of PSRAM that is not there, held in reset, or in recovery boot outside the staging window, ends with a bus
error. An interface that does not answer
takes no notice; one that answers has each command noted for diagnosis. -/
def Obligations.SdioInterface : Prop :=
  ∀ (s : State) (i : SdIf),
    let x := s.sd i
    let Card := fun (t : State) (y : Sd) => t.sd i = y ∧ (∀ j, j ≠ i → t.sd j = s.sd j) ∧
      t = { s with bus := t.bus, sda := t.sda, sdb := t.sdb, freeCount := t.freeCount }
    let Access := fun (cmd : Instr) (p : State → Prop) => ∃ t, exec cmd s = .next (sdAccess i s t) ∧ p t
    (s.sdOn i = false → ChangesNothing (.odCmdRead i) s ∧ ChangesNothing (.odCmdWrite i) s ∧ ChangesNothing (.odCmdCancel i) s ∧
      (∀ cs, ChangesNothing (.cmd0 ⟨i, cs⟩) s) ∧ ChangesNothing (.cmd3 i) s ∧ (∀ v, ChangesNothing (.cmd5 i v) s) ∧
      (∀ r, ChangesNothing (.cmd7 i r) s ∧ ChangesNothing (.cmd15 i r) s) ∧ ChangesNothing (.cmd11 i) s ∧
      ChangesNothing (.cmd19 i) s) ∧
    (∀ p, s.sdOn i = true → s.portOf (sdIdx i) = some p → x.odStatus ≠ 1 →
      (customIndex x.odIndex = false → HeardSd i 53 (.odCmdRead i) s fun t =>
        let a := objRead (s.modSd i fun x => { x with odStatus := 1, fifo := [] }) p x.odIndex x.odSub
        AnswerFrame s t ∧ (t.port p).answer = some a ∧ (∀ j, j ≠ i → t.sd j = s.sd j) ∧
          (t.sd i).evt.toNat.testBit 18 = true ∧ (t.sd i).odSeq = x.odSeq + 1 ∧
          (a.abort = 0 → (t.sd i).odStatus = 2 ∧ (t.sd i).fifo = a.data ∧ (t.sd i).odLen = a.data.length) ∧
          (a.abort ≠ 0 → (t.sd i).odStatus = 3 ∧ (t.sd i).odAbort = a.abort ∧ (t.sd i).fifo = [])) ∧
      (x.fifo.length ≠ x.odLen → (s.port p).ended = [] → HeardSd i 53 (.odCmdWrite i) s fun t =>
        AnswerFrame s t ∧ (t.sd i).odStatus = 3 ∧ (t.sd i).odAbort = 0x06070010) ∧
      (x.fifo.length = x.odLen → s.serves = true → s.sem.holder = none → s.sem.waiting = [] →
        stopOrder ⟨x.odIndex, x.odSub, x.fifo⟩ = none → HeardSd i 53 (.odCmdWrite i) s fun t =>
          t = { s with sda := t.sda, sdb := t.sdb, sem := { s.sem with
            holder := some (p, ⟨x.odIndex, x.odSub, x.fifo⟩), lost := false } } ∧
            t.sd i = { x with odStatus := 1 } ∧ ∀ j, j ≠ i → t.sd j = s.sd j)) ∧
    (∀ p q, s.sdOn i = true → s.portOf (sdIdx i) = some p → x.odStatus = 1 → (s.port p).cust = some q → q.write = none →
      HeardSd i 53 (.odCmdCancel i) s fun t =>
        AnswerFrame s t ∧ (t.port p).cust = none ∧ (t.sd i).odStatus = 3 ∧ (t.sd i).odAbort = 0x05040000) ∧
    (s.sdOn i = true → x.card ≠ .inactive →
      (∀ cs, HeardSd i 0 (.cmd0 ⟨i, cs⟩) s fun t => Card t { x with
        card := .idle, rca := 0, ioEn := 0, intEn := 0, busCtl := 0, blk := default
        mode := (let m := if x.v18 then 4 else if cs = true ∨ x.mode = 1 then 1 else 2
          if m ≤ x.maxMode then m else 0) }) ∧
      (x.card = .ready ∨ x.card = .standby → HeardSd i 3 (.cmd3 i) s fun t =>
        ∃ r, Card t { x with card := .standby, rca := r } ∧ t.bus = .ok r.toNat) ∧
      (x.mode = 0 → x.maxMode < 2 → ∀ v, HeardSd i 5 (.cmd5 i v) s fun t => t = s) ∧
      (x.mode ≠ 0 ∨ 2 ≤ x.maxMode → ∀ v, HeardSd i 5 (.cmd5 i v) s fun t =>
        Card t { x with card := if x.card = .idle then .ready else x.card, mode := if x.mode = 0 then 2 else x.mode } ∧
          ∃ k, t.bus = .ok k ∧ k.testBit 31 = true ∧ (k.testBit 24 = true ↔ v = true ∧ x.v18En = true) ∧
            k / 2 ^ 28 % 8 = if x.f2En then 2 else 1) ∧
      (x.card = .standby → x.rca ≠ 0 → HeardSd i 7 (.cmd7 i x.rca) s fun t => Card t { x with card := .command }) ∧
      (∀ r, x.card = .command → r ≠ x.rca → HeardSd i 7 (.cmd7 i r) s fun t => Card t { x with card := .standby }) ∧
      (x.card = .ready → x.v18En = true → 4 ≤ x.maxMode → HeardSd i 11 (.cmd11 i) s fun t =>
        Card t { x with v18 := true, mode := 4 }) ∧
      (x.card = .standby ∨ x.card = .command → HeardSd i 15 (.cmd15 i x.rca) s fun t => Card t { x with card := .inactive }) ∧
      (x.card = .command → x.v18 = true → HeardSd i 19 (.cmd19 i) s fun t => t = { s with bus := .bytes tuningBlock })) ∧
    (∀ p (v : Word), s.sdOn i = true → s.portOf (sdIdx i) = some p → 2 ≤ x.mode →
      let k := v.toNat / 2 % 8
      let asked := if x.v18 then 4 + k else 2 + k
      let offered := asked ≤ x.maxMode ∧ asked ≤ 8 ∧ (x.v18 = false → asked ≤ 3)
      HeardSd i 53 (.registerWrite (.io p) (0x40013 + 0x10000 * sdIdx i) (.word v)) s fun t =>
        t = s.modSd i fun y => { y with mode := if offered then asked else y.mode }) ∧
    (∀ b rest, s.f2 i = true → x.outQ = b :: rest → HeardSd i 53 (.resultOut i) s fun t =>
      Card t { x with outQ := rest, out := b } ∧ t.bus = .bytes b) ∧
    (s.f2 i = true → x.outQ = [] → HeardSd i 53 (.resultOut i) s fun t => t = { s with bus := .bytes [] }) ∧
    (∀ data, s.memOn i = true →
      let a := x.memAddr.toNat
      let lo := (memWindow s).1
      let hi := lo + (memWindow s).2
      Access (.memWrite i data) fun t =>
        t = { s with psram := t.psram, sda := t.sda, sdb := t.sdb } ∧ (∀ j, j ≠ i → t.sd j = s.sd j) ∧
          (∀ k, ¬(a ≤ k ∧ k < a + data.length) ∨ k < lo ∨ hi ≤ k → memByte t.psram k = memByte s.psram k) ∧
          (lo ≤ a → a + data.length ≤ hi → psramOk s a data.length = true → t.sd i = x ∧
            (Memory.wf s.psram = true → memRead t.psram a data.length = data)) ∧
          (data ≠ [] → a < lo ∨ hi < a + data.length → t.sd i = { x with memDrop := min 255 (x.memDrop + 1) })) ∧
    (∀ len, s.memOn i = true → s.inReset domPsram = false → psramOk s x.memAddr.toNat len = true →
      (s.boot.st = 1 → x.memAddr.toNat + len ≤ 2 ^ 24) →
      Access (.memRead i len) fun t => t = { s with bus := .bytes (memRead s.psram x.memAddr.toNat len) }) ∧
    ∀ len, s.memOn i = true → s.inReset domPsram = true ∨ psramOk s x.memAddr.toNat len = false ∨
        (s.boot.st = 1 ∧ 2 ^ 24 < x.memAddr.toNat + len) →
      Access (.memRead i len) fun t => t = { s with bus := .error }

/-- Joint samples come by JOINT_IN of an interface whose function 2 works, or as 64 B in an RPDO of an operational FD or XL
controller. One of a running context that fits its axes and is later than the last is stamped, recorded and kept; any
other of it is dropped and counted; in replay, before READY and on a member none is taken. -/
def Obligations.JointSamplesAreKept : Prop :=
  ∀ (s : State) (sample : JointArrival) (c : CtxId), (parseJoint sample.data).ctx = c.val →
    let j := parseJoint sample.data
    let comes := (∃ i, sample.via = .jointIn i ∧ s.f2 i = true ∧ sample.data.length = 56) ∨
      ∃ n k, sample.via = .rpdo n k ∧ (s.can n).en = true ∧ (s.can n).bus ≠ 2 ∧ (s.can n).nmt = 5 ∧ (s.can n).gen ≠ 0 ∧
        sample.data.length = 64
    let x := s.ctx c
    let axes := (x.plan.map (·.axes)).getD 0
    let stamp := s.now - us j.delay
    let open_ := s.serves = true ∧ s.replaying = false ∧ isMember s = false ∧ s.inReset domIo = false ∧ comes
    let good := x.st = .running ∧ j.axes = axes ∧ jointPosOk axes j.pos = true ∧ ∀ l, x.joints.getLast? = some l → l.1 < stamp
    (¬open_ → ChangesNothing (.jointSample sample) s) ∧
    (open_ → good → Completes (.jointSample sample) s fun t =>
      RecordFrame { s with ctxs := t.ctxs } t ∧ OtherContexts c s t ∧
        t.ctx c = { x with joints := x.joints ++ [(stamp, j.pos)] }) ∧
    (open_ → ¬good → Completes (.jointSample sample) s fun t =>
      t = { s with ctxs := t.ctxs } ∧ OtherContexts c s t ∧
        t.ctx c = { x with cnt := { x.cnt with jointDrop := (x.cnt.jointDrop + 1) % 2 ^ 32 } })

/-! ### CAN (R574-R580, R592, R648) -/

/-- Transfers over CAN: a controller takes part while it is on the bus, out of bus-off, neither stopped nor initialising, with
the generation of the transfer, and a port bound to it. A download is a write complete at that port, an upload a read answered
there; a Classical block transfer is aborted; an XL frame whose priority ID, SDT, VCID or node-ID is not the part's is ignored; an XL
session is opened, filled, acknowledged and ended as R578 to R580 say, and what its port still waits for at its end is answered to
nobody. NMT, heartbeats and
bus-off move the controller they name and nothing else, but that a frame that is taken is noted for diagnosis. The heartbeats of module nodes: a node's first one, or its boot-up
message, starts the read of its slot, a boot-up message or a time-out removes the module that was there. -/
def Obligations.CanControllers : Prop :=
  (∀ (s : State) (n : CanIf),
    let k := s.can n
    let Session := fun (t : State) (y : Can) =>
      t = { s with cn0 := t.cn0, cn1 := t.cn1, portA := t.portA, portB := t.portB } ∧ t.can n = y ∧ ∀ j, j ≠ n → t.can j = s.can j
    let Only := fun (t : State) (y : Can) => Session t y ∧ t.portA = s.portA ∧ t.portB = s.portB
    let at_ := (k.xl.map fun x => (x.index, x.sub)).getD (0, 0)
    let Fails := fun (t : State) (session : Byte) (code : Word) =>
      Session t { k with xl := none, tx := k.tx ++ [.xl session (XlHead 0x7F at_.1 at_.2 0 0 0 code)] } ∧ SessionEnded n s t
    let takes := fun (h : XlFrom) (p : Port) => h.ctrl = n ∧ xlPort h s = some p ∧ h.badOp = false
    (∀ gen p, canPort s n gen = some p ↔ k.en = true ∧ k.bus ≠ 2 ∧ k.nmt ≠ 4 ∧ k.nmt ≠ 0 ∧ k.gen = gen ∧
      s.inReset domIo = false ∧ s.portOf (canIdx n) = some p) ∧
    (∀ h : XlFrom, ∀ p, h.ctrl = n → (xlPort h s = some p ↔ canPort s n 2 = some p ∧ h.prio = k.xlIds.reqId ∧
      h.sdt = k.xlIds.sdt ∧ h.vcid = k.xlIds.vcid ∧ h.node = k.nodeId)) ∧
    (∀ v index sub data, sdoCtrl v = n → canPort s n 0 = none → ChangesNothing (.sdoDownload v index sub data) s ∧
      ChangesNothing (.sdoUpload v index sub) s) ∧
    (∀ p index sub data, canPort s n 0 = some p →
      let Refused := fun (t : State) => AnswerFrame s t ∧ t.can n = { k with tx := k.tx ++ [.sdo index sub 0x05040001 []] } ∧
        ∀ j, j ≠ n → t.can j = s.can j
      HeardOn n (.sdoDownload (.block n) index sub data) s Refused ∧ HeardOn n (.sdoUpload (.block n) index sub) s Refused) ∧
    (∀ index sub data, canPort s n 1 = none → ChangesNothing (.usdoDownload n index sub data) s ∧
      ChangesNothing (.usdoUpload n index sub) s) ∧
    (∀ (h : XlFrom) ss index sub total last code data, xlPort h s = none → ChangesNothing (.xlRead h ss index sub) s ∧
      ChangesNothing (.xlWrite h ss index sub total last code data) s ∧ ChangesNothing (.xlData h ss index last code data) s ∧
      ChangesNothing (.xlAck h ss index) s ∧ ChangesNothing (.xlAbort h ss code) s) ∧
    (∀ (h : XlFrom) p ss index sub total last code data, h.ctrl = n → xlPort h s = some p → h.badOp = true →
      let Unknown := fun (t : State) => Fails t ss 0x05040001
      HeardOn n (.xlRead h ss index sub) s Unknown ∧ HeardOn n (.xlWrite h ss index sub total last code data) s Unknown ∧
        HeardOn n (.xlData h ss index last code data) s Unknown ∧ HeardOn n (.xlAck h ss index) s Unknown ∧
        HeardOn n (.xlAbort h ss code) s Unknown) ∧
    (∀ p index sub data,
      let at_ : Instr := match p with
        | .a => .objectWrite (some ⟨index, sub, data⟩) none
        | .b => .objectWrite none (some ⟨index, sub, data⟩)
      (canPort s n 0 = some p → HeardOn n (.sdoDownload (.segmented n) index sub data) s fun t => exec at_ s = .next t ∧
        (s.serves = false → (⟨index, sub, data⟩ : ObjWrite) ∉ (s.port p).ended → AnswerFrame s t ∧ t.can n = { k with tx := k.tx ++ [.sdo index sub 0x08000023 []] })) ∧
      (canPort s n 1 = some p → HeardOn n (.usdoDownload n index sub data) s fun t => exec at_ s = .next t)) ∧
    (∀ p index sub, customIndex index = false →
      let a := objRead s p index sub
      let Told := fun (t : State) => AnswerFrame s t ∧ (t.port p).answer = some a ∧
        t.can n = { k with tx := k.tx ++ [.sdo index sub a.abort a.data] } ∧ ∀ j, j ≠ n → t.can j = s.can j
      (canPort s n 0 = some p → HeardOn n (.sdoUpload (.segmented n) index sub) s Told) ∧
      (canPort s n 1 = some p → HeardOn n (.usdoUpload n index sub) s Told)) ∧
    (∀ p w, s.sem.holder = some (p, w) → s.sem.lost = false → w ∉ (s.port p).ended → customIndex w.index = false →
      canPort s n 0 = some p ∨ canPort s n 1 = some p →
      let a := writeAbort { s with sem := { s.sem with holder := none, lost := false } } p w
      a ≠ 0 → Completes .objectWriteComplete s fun t =>
        t.can n = { k with tx := k.tx ++ [.sdo w.index w.sub (BitVec.ofNat 32 a) []] }) ∧
    (∀ h p ss index sub, takes h p → customIndex index = false →
      let x : XlSession := ⟨ss, false, index, sub, 0, 0, [], 0, s.now, false⟩
      let a := objRead (openXl n x s) p index sub
      let segs := max 1 ((a.data.length + 2031) / 2032)
      let piece := fun (i : Nat) => CanTx.xl ss (XlHead 3 index sub (if i + 1 = segs then 1 else 0) i (if i = 0 then a.data.length else 0)
        (if i + 1 = segs then BitVec.ofNat 32 (crc32 a.data) else 0) ++ (a.data.drop (2032 * i)).take 2032)
      HeardOn n (.xlRead h ss index sub) s fun t =>
        AnswerFrame s t ∧ (t.port p).answer = some a ∧ (∀ j, j ≠ n → t.can j = s.can j) ∧
          (a.abort ≠ 0 → t.can n = { k with xl := none, tx := k.tx ++ [.xl ss (XlHead 0x7F index sub 0 0 0 a.abort)] }) ∧
          (a.abort = 0 → t.can n = { k with
            tx := k.tx ++ (List.range (min 4 segs)).map piece
            xl := some { x with total := a.data.length, data := a.data, nextSeg := min 4 segs, unacked := min 4 segs } })) ∧
    (∀ h p ss index sub total code data, takes h p →
      let x : XlSession := ⟨ss, true, index, sub, total, 1, data, 0, s.now, false⟩
      (data.length = 2032 → total ≤ 2 ^ 20 → HeardOn n (.xlWrite h ss index sub total false code data) s fun t =>
        Session t { k with xl := some x, tx := k.tx ++ [.xl ss (XlHead 4 index sub 0 0 0 0)] } ∧ SessionEnded n s t) ∧
      (data.length ≠ 2032 ∨ 2 ^ 20 < total → HeardOn n (.xlWrite h ss index sub total false code data) s fun t =>
        Session t { k with xl := none, tx := k.tx ++ [.xl ss (XlHead 0x7F index sub 0 0 0 0x06070010)] })) ∧
    (∀ h p ss seg code data, takes h p → (∀ x, k.xl = some x → x.session ≠ ss ∨ x.isWrite = false ∨ x.finished = true) →
      ∀ last, HeardOn n (.xlData h ss seg last code data) s fun t => Fails t ss 0x05040001) ∧
    (∀ h p ss seg last code data x, takes h p → k.xl = some x → x.session = ss → x.isWrite = true →
      x.finished = false →
      let tooLong := (last = false ∧ data.length ≠ 2032) ∨ (last = true ∧ 2032 < data.length) ∨ 2 ^ 20 < x.total ∨
        2 ^ 20 < (x.data ++ data).length
      (seg ≠ x.nextSeg → HeardOn n (.xlData h ss seg last code data) s fun t => Fails t ss 0x05040003) ∧
      (seg = x.nextSeg → tooLong → HeardOn n (.xlData h ss seg last code data) s fun t => Fails t ss 0x06070010) ∧
      (seg = x.nextSeg → ¬tooLong → last = false → HeardOn n (.xlData h ss seg last code data) s fun t =>
        Only t { k with
          xl := some { x with nextSeg := seg + 1, data := x.data ++ data, lastAt := s.now }
          tx := k.tx ++ [.xl ss (XlHead 4 x.index x.sub 0 seg 0 0)] }) ∧
      (seg = x.nextSeg → ¬tooLong → last = true → code.toNat ≠ crc32 (x.data ++ data) →
        HeardOn n (.xlData h ss seg last code data) s fun t => Session t { k with
          xl := none, tx := k.tx ++ [.xl ss (XlHead 4 x.index x.sub 0 seg 0 0), .xl ss (XlHead 0x7F x.index x.sub 0 0 0 0x05040004)] }) ∧
      (seg = x.nextSeg → ¬tooLong → last = true → code.toNat = crc32 (x.data ++ data) → (x.data ++ data).length ≠ x.total →
        HeardOn n (.xlData h ss seg last code data) s fun t => Session t { k with
          xl := none, tx := k.tx ++ [.xl ss (XlHead 4 x.index x.sub 0 seg 0 0), .xl ss (XlHead 0x7F x.index x.sub 0 0 0 0x06070010)] }) ∧
      (seg = x.nextSeg → ¬tooLong → last = true → code.toNat = crc32 (x.data ++ data) → (x.data ++ data).length = x.total →
        s.serves = true → s.sem.holder = none → s.sem.waiting = [] → stopOrder ⟨x.index, x.sub, x.data ++ data⟩ = none →
        HeardOn n (.xlData h ss seg last code data) s fun t =>
          t = { s with cn0 := t.cn0, cn1 := t.cn1, sem := { s.sem with
            holder := some (p, ⟨x.index, x.sub, x.data ++ data⟩), lost := false } } ∧
            (t.can n).tx = k.tx ++ [.xl ss (XlHead 4 x.index x.sub 0 seg 0 0)] ∧ ∀ j, j ≠ n → t.can j = s.can j)) ∧
    (∀ h p ss seg, takes h p → (∀ x, k.xl = some x → x.session ≠ ss ∨ x.isWrite = true ∨ x.unacked = 0) →
      HeardOn n (.xlAck h ss seg) s fun t => Fails t ss 0x05040001) ∧
    (∀ h p ss seg x, takes h p → k.xl = some x → x.session = ss → x.isWrite = false → 0 < x.unacked →
      let segs := max 1 ((x.total + 2031) / 2032)
      (seg ≠ x.nextSeg - x.unacked → HeardOn n (.xlAck h ss seg) s fun t => Fails t ss 0x05040003) ∧
      (seg = x.nextSeg - x.unacked → segs ≤ x.nextSeg → HeardOn n (.xlAck h ss seg) s fun t =>
        Only t { k with xl := if x.unacked = 1 then none else some { x with unacked := x.unacked - 1, lastAt := s.now } }) ∧
      (seg = x.nextSeg - x.unacked → x.nextSeg < segs → x.unacked = 4 → HeardOn n (.xlAck h ss seg) s fun t =>
        ∃ f, Only t { k with
          xl := some { x with nextSeg := x.nextSeg + 1, lastAt := s.now }, tx := k.tx ++ [f] } ∧
          f = .xl ss (XlHead 3 x.index x.sub (if x.nextSeg + 1 = segs then 1 else 0) x.nextSeg
            (if x.nextSeg = 0 then x.total else 0) (if x.nextSeg + 1 = segs then BitVec.ofNat 32 (crc32 x.data) else 0) ++
              (x.data.drop (2032 * x.nextSeg)).take 2032))) ∧
    (∀ h p ss code, takes h p →
      ((∀ x, k.xl = some x → x.session ≠ ss) → HeardOn n (.xlAbort h ss code) s fun t => t = s) ∧
      (∀ x, k.xl = some x → x.session = ss → HeardOn n (.xlAbort h ss code) s fun t =>
        Session t { k with xl := none } ∧ SessionEnded n s t)) ∧
    (k.xl = none → ChangesNothing (.xlSessionTimeout n) s) ∧
    ∀ x, k.xl = some x →
      let owed := (x.isWrite = true ∧ x.finished = false) ∨ (x.isWrite = false ∧ 0 < x.unacked)
      (owed → x.lastAt + us 100000 ≤ s.now → Completes (.xlSessionTimeout n) s fun t => Fails t x.session 0x05040000) ∧
      (¬owed ∨ s.now < x.lastAt + us 100000 → ChangesNothing (.xlSessionTimeout n) s)) ∧
  ∀ (s : State) (n : CanIf),
    let k := s.can n
    let on := k.en = true ∧ s.inReset domIo = false
    let Only := fun (t : State) (y : Can) => t = { s with cn0 := t.cn0, cn1 := t.cn1 } ∧ t.can n = y ∧
      ∀ j, j ≠ n → t.can j = s.can j
    let fresh : Can := { k with nmt := 0x7F, xl := none, lastHb := s.now, tx := k.tx ++ [.bootUp] }
    let Fresh := fun (t : State) => t = { s with cn0 := t.cn0, cn1 := t.cn1, portA := t.portA, portB := t.portB } ∧
      t.can n = fresh ∧ (∀ j, j ≠ n → t.can j = s.can j) ∧ SessionEnded n s t
    (on → HeardOn n (.nmtStart n) s (fun t => Only t { k with nmt := 5 }) ∧
      HeardOn n (.nmtStop n) s (fun t => Only t { k with nmt := 4 }) ∧
      HeardOn n (.nmtPreOperational n) s (fun t => Only t { k with nmt := 0x7F }) ∧
      HeardOn n (.nmtResetCommunication n) s Fresh ∧ HeardOn n (.nmtResetNode n) s Fresh) ∧
    (¬on → ChangesNothing (.nmtStart n) s ∧ ChangesNothing (.nmtStop n) s ∧ ChangesNothing (.nmtPreOperational n) s ∧
      ChangesNothing (.nmtResetCommunication n) s ∧ ChangesNothing (.nmtResetNode n) s ∧ ChangesNothing (.heartbeatProduce n) s ∧
      (∀ x, ChangesNothing (.busOff ⟨n, x⟩) s) ∧ ChangesNothing (.busOffRecovery n) s) ∧
    (on → k.heartbeatMs ≠ 0 → k.bus ≠ 2 → k.lastHb + us (1000 * k.heartbeatMs) ≤ s.now →
      Completes (.heartbeatProduce n) s fun t => Only t { k with tx := k.tx ++ [.heartbeat k.nmt], lastHb := s.now }) ∧
    (k.heartbeatMs = 0 ∨ k.bus = 2 ∨ s.now < k.lastHb + us (1000 * k.heartbeatMs) → ChangesNothing (.heartbeatProduce n) s) ∧
    (on → k.bus ≠ 2 → ∀ a b : Byte, Completes (.busOff ⟨n, some (a, b)⟩) s fun t =>
      Only t { k with tec := a.toNat, rec_ := b.toNat, bus := if 127 < a.toNat ∨ 127 < b.toNat then 1 else 0 }) ∧
    (on → k.bus ≠ 2 → Completes (.busOff ⟨n, none⟩) s fun t =>
      t = { s with cn0 := t.cn0, cn1 := t.cn1, freeCount := t.freeCount } ∧
        t.can n = { k with bus := 2, busoff := min 65535 (k.busoff + 1), tec := (t.can n).tec, rec_ := (t.can n).rec_ } ∧
        ∀ j, j ≠ n → t.can j = s.can j) ∧
    (on → k.bus = 2 → (∀ x, ChangesNothing (.busOff ⟨n, x⟩) s) ∧ Completes (.busOffRecovery n) s fun t =>
      Only t { k with bus := 0, tec := 0, rec_ := 0, tx := emcyFirst k.emcyQ k.tx, emcyQ := [] }) ∧
    (k.bus ≠ 2 → ChangesNothing (.busOffRecovery n) s) ∧
    ∀ node,
      let bus := canIdx n
      let consumes := s.serves = true ∧ isMember s = false ∧ s.inReset domIo = false ∧ k.en = true
      let NodeFrame := fun (t : State) => t = { s with cn0 := t.cn0, cn1 := t.cn1, modules := t.modules } ∧
        (∀ j, j ≠ n → t.can j = s.can j) ∧ t.can n = { k with nodes := (t.can n).nodes } ∧
        (∀ m, m ≠ node → amGet (t.can n).nodes m = amGet k.nodes m)
      let Same := fun (t : State) (e : Option (Fin 32)) => ∀ j : Fin 32, e ≠ some j → t.slot j = s.slot j
      let Reading := fun (t : State) (j : Fin 32) => (t.slot j).st = 1 ∧ (t.slot j).bus = bus ∧ (t.slot j).addr = node ∧
        (t.slot j).raw = [] ∧ (t.slot j).nacks = 0
      (¬consumes → ChangesNothing (.heartbeatReceived n node) s ∧ ChangesNothing (.bootUpMessage n node) s ∧
        ChangesNothing (.heartbeatTimeout n node) s) ∧
      (consumes → amGet k.nodes node ≠ none → HeardOn n (.heartbeatReceived n node) s fun t =>
        NodeFrame t ∧ amGet (t.can n).nodes node = some s.now ∧ t.modules = s.modules) ∧
      (consumes → amGet k.nodes node = none → HeardOn n (.heartbeatReceived n node) s fun t =>
        NodeFrame t ∧ amGet (t.can n).nodes node = some s.now ∧
          (∀ j, slotOf s bus node = some j → (s.slot j).st = 0 → Reading t j ∧ Same t (some j)) ∧
          (∀ j, slotOf s bus node = some j → (s.slot j).st ≠ 0 → t.modules = s.modules) ∧
          (slotOf s bus node = none → inWindow s bus node = false → t.modules = s.modules) ∧
          (slotOf s bus node = none → inWindow s bus node = true →
            (∀ j : Fin 32, 16 ≤ j.val → (s.slot j).st ≠ 0) ∧ t.modules = s.modules ∨
            ∃ j : Fin 32, 16 ≤ j.val ∧ (s.slot j).st = 0 ∧ (∀ i : Fin 32, 16 ≤ i.val → i < j → (s.slot i).st ≠ 0) ∧
              Reading t j ∧ Same t (some j))) ∧
      (consumes → HeardOn n (.bootUpMessage n node) s fun t =>
        NodeFrame t ∧ amGet (t.can n).nodes node = some s.now ∧
          (∀ j, slotOf s bus node = some j → j.val < 16 → Reading t j ∧ Same t (some j) ∧
            ((s.slot j).st ≠ 0 → (t.slot j).rec_ = none ∧ (t.slot j).changedAt = some s.now)) ∧
          (slotOf s bus node = none → inWindow s bus node = false → t.modules = s.modules)) ∧
      (∀ at_, amGet k.nodes node = some at_ → consumes → at_ + us (1000 * s.boot.cfg.canTimeoutMs) ≤ s.now →
        Completes (.heartbeatTimeout n node) s fun t =>
          NodeFrame t ∧ amGet (t.can n).nodes node = none ∧ Same t (slotOf s bus node) ∧
            ∀ j, slotOf s bus node = some j → (s.slot j).st ≠ 0 →
              (t.slot j).st = 0 ∧ (t.slot j).rec_ = none ∧ (t.slot j).raw = [] ∧ (t.slot j).changedAt = some s.now) ∧
      (amGet k.nodes node = none ∨ (∃ at_, amGet k.nodes node = some at_ ∧ s.now < at_ + us (1000 * s.boot.cfg.canTimeoutMs)) →
        ChangesNothing (.heartbeatTimeout n node) s)

/-! ### Links (R531, R543, R593-R600, R602-R604, R619) -/

/-- The link ports: what is received is accepted in order, with its CRC, and kept, forwarded or broadcast; anything else is
answered with a NAK; a NAK or a time-out sends the retry buffer again, and the 16th sending of one flit takes the link down;
lanes with errors are replaced once, and a second one fails the port; a port that has trained sends HELLO. -/
def Obligations.LinksCarryFlits : Prop :=
  ∀ (s : State) (l : LinkId),
    let p := s.link l
    let d := linkDomain l
    let Others := fun (t : State) => ∀ k, k ≠ l → t.link k = s.link k
    let few := s.hedge.members.length < 200
    let Used := fun (i : Fin 5) => if p.spareUsed then i.val ≠ p.sparedLane else i.val ≠ 4
    let Nak := fun (g : Flit) => g.type = 11 ∧ g.dest = p.peer ∧ g.payload = leBytes 1 p.rxNext ∧
      g.ack = (p.rxNext + 255) % 256 ∧ g.crc = flitCrc g
    let Relayed := fun (f g : Flit) (k : LinkId) => g = { f with
      seq := (s.link k).txNext, ack := ((s.link k).rxNext + 255) % 256, crc := g.crc } ∧ g.crc = flitCrc g
    let Room := fun (k : LinkId) => (s.link k).st = .up ∧ (s.link k).txQ = [] ∧ (s.link k).retry.length < 64
    let Kept := fun (seq : Nat) => match p.retry.findIdx? fun x => x.seq == seq with
      | some i => p.retry.drop (i + 1)
      | none => p.retry
    let again := fun (kept : List TxFlit) => kept.map fun x => { x with sends := x.sends + 1, lastSent := s.now }
    let Resent := fun (kept : List TxFlit) (t : State) =>
      ((∀ x ∈ kept, x.sends < 15) → t = { s with links := t.links } ∧ Others t ∧
        (∃ more, (t.link l).retry = again kept ++ more ∧ (t.link l).wire = p.wire ++ (again kept ++ more).map (·.flit)) ∧
        (p.txQ = [] → t.link l = { p with
          retry := again kept, wire := p.wire ++ (again kept).map (·.flit), retries := min 65535 (p.retries + kept.length)
          fullFrom := (t.link l).fullFrom })) ∧
      ((∃ x ∈ kept, 15 ≤ x.sends) → t.inReset d = true ∧ t.faults.gen[d] = (s.faults.gen[d] + 1) % 16 ∧
        (t.link l).st = .down ∧ (t.link l).retry = [] ∧ t.hedge.irq.toNat.testBit l.val = true ∧
        (few → ∃ x ∈ kept, 15 ≤ x.sends ∧ Recorded s t 0x0501 (22 + l.val) 0x1F x.seq))
    let Hello := fun (g : Flit) => g.type = 6 ∧ g.dest = upAddr s ∧
      g.payload = leBytes 2 (hedgeAddr s) ++ leBytes 2 s.boot.cl ++ s.boot.hedgeDigest ++ leBytes 1 s.service
    let Tells := fun (f : Flit) (k : LinkId) => hedgeRole s = 2 ∧ f.type = 10 ∧ f.src / 256 = hedgeAddr s / 256 ∧
      (u f.payload 8 2 = 0x0501 ∨ u f.payload 8 2 = 0x0503) ∧ u f.payload 7 1 = 22 + k.val
    -- NAK and time-out
    (∀ e : Byte, p.st ≠ .up → ChangesNothing (.nakFlit l e) s) ∧
    (∀ e : Byte, p.st = .up →
      let kept := Kept ((e.toNat + 255) % 256)
      ((∃ x ∈ kept, x.seq = e.toNat) → Completes (.nakFlit l e) s (Resent kept)) ∧
      ((∀ x ∈ kept, x.seq ≠ e.toNat) → Completes (.nakFlit l e) s fun t => t = { s with links := t.links } ∧ Others t ∧
        (∃ more, (t.link l).retry = kept ++ more ∧ (t.link l).wire = p.wire ++ more.map (·.flit)) ∧
        (p.txQ = [] → t.link l = { p with retry := kept, fullFrom := (t.link l).fullFrom }))) ∧
    (p.st ≠ .up ∨ p.retry = [] → ChangesNothing (.retryTimeout l) s) ∧
    (∀ x rest, p.retry = x :: rest → p.st = .up →
      (x.lastSent + 400 ≤ s.now → Completes (.retryTimeout l) s (Resent p.retry)) ∧
      (s.now < x.lastSent + 400 → ChangesNothing (.retryTimeout l) s)) ∧
    -- receiving
    (∀ (f : Flit) (errs : List (Fin 5)),
      let used := errs.filter fun i => if p.spareUsed then i.val != p.sparedLane else i.val != 4
      let lanes := used.foldl (fun v i => vupd v i fun k => min 63 (k + 1)) p.laneErr
      let s1 := s.modLink l fun p => { p with laneErr := lanes }
      let Acked := fun (y : LinkPort) => y.rxNext = (p.rxNext + 1) % 256 ∧ y.st = .up ∧ y.laneErr = lanes ∧
        (p.txQ = [] → y.wire = p.wire ∧ y.retry = Kept f.ack)
      let good := p.st = .up ∧ f.crc = flitCrc f ∧ f.type ≠ 11 ∧ f.seq = p.rxNext
      (p.st ≠ .up → ChangesNothing (.flitReceive l f errs) s) ∧
      (p.st = .up → f.crc ≠ flitCrc f → Completes (.flitReceive l f errs) s fun t =>
        t = { s with links := t.links, freeCount := t.freeCount, wear := { s.wear with linkCrc := t.wear.linkCrc } } ∧ Others t ∧
          t.wear.linkCrc[l] = min (2 ^ 32 - 1) (s.wear.linkCrc[l] + 1) ∧
          (∀ k : LinkId, k ≠ l → t.wear.linkCrc[k] = s.wear.linkCrc[k]) ∧
          ∃ g, Nak g ∧ t.link l = { p with laneErr := lanes, crcErr := min 65535 (p.crcErr + 1), wire := p.wire ++ [g] }) ∧
      (p.st = .up → f.crc = flitCrc f → f.type = 11 → Completes (.flitReceive l f errs) s fun t =>
        exec (.nakFlit l (BitVec.ofNat 8 (u f.payload 0 1))) (s1.modLink l (dropAcked f.ack)) = .next t) ∧
      (p.st = .up → f.crc = flitCrc f → f.type ≠ 11 → f.seq ≠ p.rxNext → Completes (.flitReceive l f errs) s fun t =>
        t = { s with links := t.links, freeCount := t.freeCount } ∧ Others t ∧
          ∃ g, Nak g ∧ t.link l = { p with laneErr := lanes, wire := p.wire ++ [g] }) ∧
      (good → f.dest ≠ 0xFFFF → f.dest = hedgeAddr s → Completes (.flitReceive l f errs) s fun t =>
        t = { s with links := t.links, hedge := { s.hedge with members := t.hedge.members } } ∧ Others t ∧ Acked (t.link l) ∧
          t.hedge.members = s.hedge.members.map fun m =>
            if m.addr = f.src ∧ m.tag = f.gen ∧ (m.st = 2 ∨ m.st = 3) then { m with heard := s.now } else m) ∧
      (good → f.dest = 0xFFFF → s.boot.cfg.hedge.bcast.Nodup → l.val ∉ s.boot.cfg.hedge.bcast →
        Completes (.flitReceive l f errs) s fun t =>
          t = { s with links := t.links } ∧ Acked (t.link l) ∧ ∀ k, k ≠ l →
            (k.val ∉ s.boot.cfg.hedge.bcast → t.link k = s.link k) ∧
            (k.val ∈ s.boot.cfg.hedge.bcast → Room k → ∃ g, Relayed f g k ∧ (t.link k).wire = (s.link k).wire ++ [g])) ∧
      (∀ k, good → f.dest ≠ 0xFFFF → f.dest ≠ hedgeAddr s → Tells f k → Completes (.flitReceive l f errs) s fun t =>
        ∀ m ∈ s.hedge.members, m.st = 2 ∨ m.st = 3 →
          Config.routeVia (hedgeAddr s) m.addr f.src k.val = true ∨ Config.routeVia m.addr (hedgeAddr s) f.src k.val = true →
            ∃ y ∈ t.hedge.members, y.addr = m.addr ∧ y.st = 4) ∧
      (good → f.dest ≠ 0xFFFF → f.dest ≠ hedgeAddr s → (∀ k, ¬Tells f k) → Completes (.flitReceive l f errs) s fun t =>
        t = { s with links := t.links, hedge := { s.hedge with members := t.hedge.members } } ∧
          t.hedge.members.map (·.addr) = s.hedge.members.map (·.addr) ∧
          (∀ k, k ≠ l → portTo s f.dest ≠ some k → t.link k = s.link k) ∧ (portTo s f.dest ≠ some l → Acked (t.link l)) ∧
          ∀ k, portTo s f.dest = some k → k ≠ l → Room k →
            ∃ g, Relayed f g k ∧ (t.link k).wire = (s.link k).wire ++ [g])) ∧
    -- lanes
    (s.now % 400000000 ≠ 0 → ChangesNothing (.laneErrorWindow l) s) ∧
    (s.now % 400000000 = 0 →
      let Bad := fun (i : Fin 5) => Used i ∧ 32 < p.laneErr[i]
      let zero : LinkPort := { p with laneErr := Vector.replicate 5 0 }
      (p.st ≠ .up ∨ p.spareEn = false ∨ (∀ i, ¬Bad i) → Completes (.laneErrorWindow l) s fun t =>
        t = { s with links := t.links } ∧ Others t ∧ t.link l = zero) ∧
      (∀ i, p.st = .up → p.spareEn = true → p.spareUsed = false → Bad i → (∀ j, Bad j → j = i) →
        Completes (.laneErrorWindow l) s fun t => t = { s with links := t.links } ∧ Others t ∧
          t.link l = { zero with st := .sparing, since := s.now, sparedLane := i.val }) ∧
      (∀ i j, p.st = .up → p.spareEn = true → Bad i → Bad j → p.spareUsed = true ∨ i ≠ j →
        Completes (.laneErrorWindow l) s fun t => (t.link l).st = .failed ∧ t.hedge.irq.toNat.testBit (12 + l.val) = true ∧
          (few → ∃ k, Bad k ∧ Recorded s t 0x0503 (22 + l.val) 0x1F k.val))) ∧
    (p.st ≠ .sparing ∨ s.now < p.since + 8000 → ChangesNothing (.sparingEnd l) s) ∧
    (p.st = .sparing → p.since + 8000 ≤ s.now → (∀ x ∈ p.retry, x.sends < 15) → isMember s = false →
      Completes (.sparingEnd l) s fun t =>
        (t.link l).st = .up ∧ (t.link l).spareUsed = true ∧ (t.link l).sparedLane = p.sparedLane ∧ Others t ∧
          (∃ more, (t.link l).wire = p.wire ++ p.retry.map (·.flit) ++ more ∧
            (p.txQ = [] → p.retry.length < 64 → if p.greeted then more = [] else ∃ g, more = [g] ∧ Hello g)) ∧
          Recorded s t 0x0502 (22 + l.val) 0x1F p.sparedLane ∧ t.hedge.irq.toNat.testBit (6 + l.val) = true ∧
          t.wear.linkLane[l] = p.sparedLane + 1 ∧ SameButWear s t ∧ WearWritten s t) ∧
    -- training
    (∀ failed : List (Fin 5),
      let Bad := fun (i : Fin 5) => Used i ∧ i ∈ failed
      let single := ∃ i, Bad i ∧ ∀ j, Bad j → j = i
      let spared := p.spareUsed = false ∧ p.spareEn = true ∧ (4 : Fin 5) ∉ failed ∧ single
      (p.st ≠ .training → ChangesNothing (.trainingComplete l failed) s) ∧
      (p.st = .training → (∀ i, ¬Bad i) → Completes (.trainingComplete l failed) s fun t =>
        t = { s with links := t.links } ∧ Others t ∧ (t.link l).st = .up ∧ (t.link l).trainFails = 0 ∧
          (t.link l).greeted = true ∧
          (p.txQ = [] → p.retry.length < 64 → if p.greeted then (t.link l).wire = p.wire else ∃ g, (t.link l).wire = p.wire ++ [g] ∧ Hello g)) ∧
      (p.st = .training → spared → Completes (.trainingComplete l failed) s fun t =>
        t = { s with links := t.links } ∧ Others t ∧
          ∃ i, Bad i ∧ t.link l = { p with st := .sparing, since := s.now, sparedLane := i.val }) ∧
      (p.st = .training → p.spareUsed = true → (∃ i, Bad i) → Completes (.trainingComplete l failed) s fun t =>
        (t.link l).st = .failed ∧ t.hedge.irq.toNat.testBit (12 + l.val) = true ∧
          ∃ i, Bad i ∧ Recorded s t 0x0503 (22 + l.val) 0x1F i.val) ∧
      (p.st = .training → p.spareUsed = false → (∃ i, Bad i) → ¬spared → Completes (.trainingComplete l failed) s fun t =>
        (∃ bits, Recorded s t 0x0504 (22 + l.val) 0x1F bits ∧ ∀ i : Fin 5, bits.testBit i.val = true ↔ i ∈ failed) ∧
          (t.link l).trainFails = p.trainFails + 1 ∧
          (p.trainFails + 1 < 3 → (t.link l).st = .training ∧ (t.link l).since = p.since ∧ t.hedge.irq = s.hedge.irq) ∧
          (3 ≤ p.trainFails + 1 → (t.link l).st = .failed ∧ t.hedge.irq.toNat.testBit (12 + l.val) = true)))

/-! ### Hedges (R601-R622) -/

/-- Forming a hedge, what a member does with what it is sent, dealt tiles, and the loss of a member. A chip whose role does not
take a flit lets it go. -/
def Obligations.HedgeMembers : Prop :=
  ∀ s : State,
    let role := hedgeRole s
    let root := role = 3
    let HedgeOnly := fun (t : State) => t = { s with links := t.links, hedge := { s.hedge with
      members := t.hedge.members, lastTx := t.hedge.lastTx } }
    let Heard := fun (t : State) (a : Nat) => t.hedge.members = s.hedge.members.map fun m =>
      if m.addr = a then (if m.st = 2 ∨ m.st = 3 then { m with heard := s.now } else m) else m
    let OnlyHeard := fun (t : State) (a : Nat) => t = { s with hedge := { s.hedge with members := t.hedge.members } } ∧ Heard t a
    let Room := fun (k : LinkId) (n : Nat) => (s.link k).st = .up ∧ (s.link k).txQ = [] ∧ (s.link k).retry.length + n ≤ 64
    let In := fun (a : Nat) => ∃ m, s.member a = some m ∧ (m.st = 2 ∨ m.st = 3)
    let Lost := fun (t : State) (a cause : Nat) =>
      (∀ m ∈ t.hedge.members, m.addr = a → m.st = 4) ∧
        (∀ m ∈ s.hedge.members, m.addr = a → ∃ y ∈ t.hedge.members, y.addr = a ∧ y.tag = (m.tag + 1) % 16) ∧
        t.hedge.lostCount = (s.hedge.lostCount + 1) % 2 ^ 32 ∧ t.hedge.irq.toNat.testBit 18 = true ∧
        (∀ x ∈ t.hedge.takes, x.1 ≠ a) ∧ (∀ x ∈ t.tds.tiles, ∀ e, x.status ≠ .dealt a e ∧ x.status ≠ .waitsCopy e a) ∧
        (∀ x ∈ s.tds.tiles, x.discard = false → (∃ e, x.status = .dealt a e ∨ x.status = .waitsCopy e a) →
          ∃ y ∈ t.tds.tiles, y.handle = x.handle ∧ y.status = .ready ∧ y.redisp = true) ∧
        Recorded s t 0x0505 (match portTo s a with
          | some l => 22 + l.val
          | none => 0x1F) 0x1F (a + cause * 2 ^ 16)
    let Current := fun (m : MemberRef) => ∃ x, s.member m.addr.toNat = some x ∧ (x.st = 2 ∨ x.st = 3) ∧ x.tag = m.tag.toNat
    let plain := fun (a : Nat) => s.boot.cfg.hedge.levels ≠ 2 ∨ a % 256 ≠ 0 ∨ role ≠ 3
    -- HELLO
    (∀ (l : LinkId) (g : Greeting) (cl : Nat) (digest : BitVec 128) (service : Nat),
      let addr := g.addr.toNat
      let judged := s.hedge.members.filterMap fun m =>
        if g.powered = false ∨ m.addr ≠ addr then some m else if m.st ≠ 5 then some { m with ignored := false }
        else if addr ∈ s.boot.cfg.hedge.expected then some { m with st := 1 } else none
      let known := judged.find? fun m => m.addr == addr
      let noted := s.modLink l fun p => { p with peer := if p.peer = 0 then addr else p.peer }
      let reason := if cl ≠ s.boot.cl then 1 else if addr ∉ s.boot.cfg.hedge.expected then 2
        else if (∃ m, known = some m ∧ (m.st = 2 ∨ m.st = 3)) then 3
        else if leBytes 16 digest.toNat ≠ s.boot.hedgeDigest then 4 else if service = 3 then 5 else 0
      let ignored := ∃ m, known = some m ∧ (m.st = 5 ∨ m.ignored = true ∨ (m.st = 4 ∧ oNat s 0x2800 0x09 = 0))
      (role < 2 → exec (.helloFlit l g cl digest service) s = .next noted) ∧
      (root → ignored → exec (.helloFlit l g cl digest service) s = .next { noted with hedge := { s.hedge with members := judged } }) ∧
      (role = 2 → addr / 256 ≠ hedgeAddr s / 256 ∨ addr = hedgeAddr s →
        exec (.helloFlit l g cl digest service) s = .next noted) ∧
      (∀ k, role = 2 → addr / 256 = hedgeAddr s / 256 → addr ≠ hedgeAddr s → portTo s 0 = some k → Room k 2 →
        s.boot.hedgeDigest.length = 16 →
        Completes (.helloFlit l g cl digest service) s fun t => HedgeOnly t ∧ t.hedge.members = s.hedge.members ∧
          ∃ f own, (t.link k).wire = (s.link k).wire ++ [f, own] ∧ f.type = 6 ∧ f.dest = 0 ∧ own.type = 6 ∧ own.dest = 0 ∧
            f.payload = leBytes 2 addr ++ leBytes 2 cl ++ leBytes 16 digest.toNat ++ leBytes 1 service ∧
            own.payload = helloBytes s) ∧
      (root → ¬ignored → reason ≠ 0 → Completes (.helloFlit l g cl digest service) s fun t =>
        Recorded s t 0x0506 (22 + l.val) 0x1F (addr + reason * 2 ^ 16) ∧ t.hedge.refusedLast = addr + reason * 2 ^ 16 ∧
          (reason = 3 → t.hedge.members = judged.map fun m => if m.addr = addr then { m with ignored := true } else m) ∧
          (reason ≠ 3 → (∃ m ∈ t.hedge.members, m.addr = addr) ∧ ∀ m ∈ t.hedge.members, m.addr = addr → m.st = 5) ∧
          ∀ k, portTo s addr = some k → Room k 1 →
            ∃ f, (t.link k).wire = (s.link k).wire ++ [f] ∧ f.type = 7 ∧ f.dest = addr ∧ f.payload = []) ∧
      (∀ m, root → ¬ignored → reason = 0 → known = some m → Completes (.helloFlit l g cl digest service) s fun t =>
        HedgeOnly t ∧ (∀ y ∈ t.hedge.members, y.addr = addr → y.heard = s.now ∧
            y.joined = (if s.world.started then s.world.tick + 1 else 0) ∧ y.st = if s.runningCtxs = [] then 3 else 2) ∧
          ∀ k, portTo s addr = some k → Room k 1 →
            ∃ f more, (t.link k).wire = (s.link k).wire ++ f :: more ∧ f.type = 7 ∧ f.dest = addr ∧ f.payload = leBytes 1 m.tag)) ∧
    -- orders of a port
    (∀ (p : Port) (a : BitVec 16), Accepts s p ⟨0x2800, 0x0B, leBytes 2 a.toNat⟩ →
      root ∧ (∃ m, s.member a.toNat = some m ∧ (m.st = 2 ∨ m.st = 3 ∨ m.st = 4)) ∧
        (In a.toNat → plain a.toNat → Completes (.exclude p a) s fun t => Lost t a.toNat 4 ∧
          t.sem.lastIndex = 0x2800 ∧ t.sem.lastSub = 0x0B) ∧
        ((∀ m ∈ s.hedge.members, m.addr = a.toNat → m.st = 4) → plain a.toNat → Completes (.exclude p a) s fun t =>
          AnswerFrame { s with sem := t.sem } t)) ∧
    (∀ (p : Port) (a : BitVec 16) (m : Member), Accepts s p ⟨0x2800, 0x0C, leBytes 2 a.toNat⟩ → s.member a.toNat = some m →
      (m.st = 4 → Completes (.admitOrder p a) s fun t =>
        (∀ y ∈ t.hedge.members, y.addr = a.toNat → y.heard = s.now ∧ y.st = if s.runningCtxs = [] then 3 else 2) ∧
          ∀ k, portTo s a.toNat = some k → Room k 1 → ∃ f more, (t.link k).wire = (s.link k).wire ++ f :: more ∧
            f.type = 7 ∧ f.dest = a.toNat ∧ f.payload = leBytes 1 m.tag) ∧
      (m.st ≠ 4 → Completes (.admitOrder p a) s fun t => AnswerFrame { s with sem := t.sem } t)) ∧
    -- what a member is sent
    (∀ (a : Admission) (seed : Option Bytes),
      let asks := allEng.filter (takes s)
      let Admitted := fun (t : State) => t.hedge = { s.hedge with
        admitted := true, myTag := a.tag.toNat, applies := seed.isSome || !a.waits, dealtHere := [], dealtWait := [], heads := []
        lastTx := t.hedge.lastTx }
      let Asks := fun (t : State) => (isMember s = true ∨ asks = [] → t.links = s.links ∧ t.hedge.lastTx = s.hedge.lastTx) ∧
        ∀ k, isMember s = false → portTo s (upAddr s) = some k → Room k asks.length →
          ∃ more, (t.link k).wire = (s.link k).wire ++ more ∧ more.map (fun f => (f.type, f.dest, f.payload)) =
            asks.map fun n => (3, upAddr s, leBytes 2 (hedgeAddr s) ++ leBytes 1 n.val)
      (role = 0 ∨ root → ChangesNothing (.admitFlit a seed) s) ∧
      (role = 1 ∨ role = 2 → seed.bind seedOf = none → Completes (.admitFlit a seed) s fun t =>
        t = { s with
          saf := { s.saf with driveA := t.saf.driveA, driveB := t.saf.driveB }, hedge := t.hedge, links := t.links } ∧
          Admitted t ∧ Asks t ∧ (s.saf.outEn = true → t.saf.driveA = false ∧ t.saf.driveB = true)) ∧
      (∀ sd, role = 1 ∨ role = 2 → seed.bind seedOf = some sd → Completes (.admitFlit a seed) s fun t =>
        Admitted t ∧ t.power.inForce = sd.step ∧ amGet t.shadow (objKey 0x2700 0x01) = some (leBytes 1 sd.strict) ∧
          t.world.tick = sd.world.tick ∧ t.world.geom = sd.world.geom ∧ t.world.inputs = [] ∧
          (s.saf.outEn = true → t.saf.driveA = false ∧ t.saf.driveB = true))) ∧
    (isMember s = false → ChangesNothing .heartbeatSend s ∧ (∀ x, ChangesNothing (.entryFlit x) s) ∧
      (∀ h k bs, ChangesNothing (.imageFlit h k bs) s) ∧ ∀ d c st q n, ChangesNothing (.tileFlit d c st q n) s) ∧
    (∀ x : EntryIn, isMember s = true →
      (x.lost = true → exec (.entryFlit x) s = .next { s with hedge := { s.hedge with applies := false } }) ∧
      (x.lost = false → s.hedge.applies = false → ChangesNothing (.entryFlit x) s)) ∧
    (∀ (handle kind : Nat) (data : Bytes), isMember s = true → handle ≠ 0 →
      (∀ i : Fin 64, s.images[i].st ≠ 0 → s.images[i].handle ≠ handle) → (∃ i : Fin 64, s.images[i].st = 0) →
      Completes (.imageFlit handle kind data) s fun t =>
        t = { s with images := t.images, psram := t.psram } ∧ ∃ i : Fin 64, s.images[i].st = 0 ∧
          (∀ j : Fin 64, j ≠ i → t.images[j] = s.images[j]) ∧ t.images[i].handle = handle ∧ t.images[i].kind = kind ∧
          t.images[i].length = data.length ∧
          (t.images[i].st = 2 ∧ t.images[i].digest = sha512 (psramRead t t.images[i].offset data.length) ∨ t.images[i].st = 3)) ∧
    (∀ bs : Bytes, isMember s = true → s.hedge.applies = true →
      let x : EntryIn := ⟨bs, false⟩
      let e := entryOf bs
      let items := odItems e.payload.length (e.payload.drop 6)
      let heads := s.hedge.heads ++ bs.take 16
      e.tick ≤ s.world.tick →
      (e.ty = 0x0B → (s.ctx (Fin.ofNat 16 e.src)).rm.reselect = false → Completes (.entryFlit x) s fun t =>
        let c : CtxId := Fin.ofNat 16 e.src
        let y := s.ctx c
        t = { s with ctxs := t.ctxs, engines := t.engines, hedge := { s.hedge with heads := heads } } ∧ OtherContexts c s t ∧
          (y.st = .running → t.ctx c = { y with frameNo := u e.payload 4 6 } ∧ t.engines = s.engines) ∧
          (y.st ≠ .running →
            t.ctx c = { y with st := .running, frameNo := u e.payload 4 6, loading := loadEngines s } ∧
            ∀ n : EngId, t.eng n = if n ∈ loadEngines s then
              { s.eng n with banks := (s.eng n).banks.map fun k => { k with owner := 0 } } else s.eng n)) ∧
      (e.ty = 0x07 → Completes (.entryFlit x) s fun t => t.hedge.heads = heads ∧
        ∀ i sub v, items = [(i, sub, v)] → amGet t.shadow (objKey i sub) = some v) ∧
      (e.ty = 0x07 → (∀ y ∈ items, ∀ c : CtxId, ¬(y.1 = 0x2201 + c.val ∧ (y.2.1 = 0x06 ∨ y.2.1 = 0x07))) →
        Completes (.entryFlit x) s fun t =>
        t = { s with
          shadow := t.shadow, edgeShadow := t.edgeShadow, force := t.force, ctxs := t.ctxs
          fus := { s.fus with streams := t.fus.streams }, hedge := { s.hedge with heads := heads } } ∧
          ∀ i sub v, items = [(i, sub, v)] →
            amGet t.shadow (objKey i sub) = some v ∧
            (∀ k : StreamId, t.fus.streams[k] = if i = 0x2101 ∧ sub = k.val + 1 then
              { s.fus.streams[k] with rec_ := some (parseCam v) } else s.fus.streams[k]) ∧
            (∀ c : CtxId, i = 0x2000 + c.val → sub = 0x03 → v = leBytes 4 0 → (t.ctx c).plan = none) ∧
            ((∀ c : CtxId, ¬(i = 0x2000 + c.val ∧ sub = 0x03)) → t.ctxs = s.ctxs) ∧
            ((∃ d, objDef i sub = some d ∧ d.acc = .rwf) → amGet t.force (objKey i sub) = some v)) ∧
      (∀ k : Fin 32, e.ty = 0x09 → e.src = k.val → Completes (.entryFlit x) s fun t =>
        t.hedge.heads = heads ∧ (∀ j, j ≠ k → t.slot j = s.slot j) ∧ (t.slot k).raw = e.payload.drop 6 ∧
          (e.payload.drop 6 = [] → (t.slot k).st = 0 ∧ (t.slot k).rec_ = none) ∧
          (e.payload.drop 6 ≠ [] → (t.slot k).st = 2 ∧ (t.slot k).rec_ = some (parseTag (e.payload.drop 6))))) ∧
    (∀ (d : DealtTile) (c : CtxId) (station q : Nat) (n : EngId), isMember s = true →
      let y : Tile := { (default : Tile) with ctx := c.val, station := station, seq := q, status := .ready }
      let wait := s.hedge.dealtWait ++ [(d, n, y)]
      let kept := { s with hedge := { s.hedge with dealtWait := wait } }
      let first := takes s n = true ∧ nextFor kept n = some (.dealt d y)
      (¬first → exec (.tileFlit d c station q n) s = .next kept) ∧
      (first → (s.ctx c).loading.contains n = false) ∧
      (first → (∀ x ∈ s.tds.tiles, x.handle ≠ s.tds.nextHandle) → station ≠ 14 →
        Completes (.tileFlit d c station q n) s fun t =>
          OtherEngines n s t ∧ (t.eng n).holding = some s.tds.nextHandle ∧ (t.eng n).st = .run ∧ (t.eng n).waiting = false ∧
            t.hedge = { s.hedge with
              dealtWait := wait.filter fun x => x.1.handle != d.handle
              dealtHere := s.hedge.dealtHere ++ [⟨d.handle, s.tds.nextHandle, d.inputs⟩] } ∧
            ∃ x, t.tile s.tds.nextHandle = some x ∧ x.ctx = c.val ∧ x.station = station ∧ x.seq = q ∧ x.status = .held n)) ∧
    (∀ k, isMember s = true → portTo s 0 = some k → Room k 1 →
      (s.hedge.lastTx + us 10 ≤ s.now → Completes .heartbeatSend s fun t =>
        HedgeOnly t ∧ t.hedge.lastTx = s.now ∧ ∃ f, (t.link k).wire = (s.link k).wire ++ [f] ∧ f.type = 9 ∧ f.dest = 0) ∧
      (s.now < s.hedge.lastTx + us 10 → ChangesNothing .heartbeatSend s)) ∧
    -- what a root hears
    (∀ m : MemberRef, (Current m → Completes (.heartbeatFlit m) s fun t => OnlyHeard t m.addr.toNat) ∧
      (¬Current m → ChangesNothing (.heartbeatFlit m) s)) ∧
    (∀ (m : MemberRef) (tick : Nat) (epoch : Word) (digest : BitVec 128),
      let a := m.addr.toNat
      let own := s.hedge.digests.find? fun x => x.1 == tick
      let same := ∀ x y, s.member a = some y → y.joined < tick → own = some x →
        x.2.1 = epoch ∧ x.2.2 = leBytes 16 digest.toNat
      (¬root ∨ ¬Current m → ChangesNothing (.reportFlit m tick epoch digest) s) ∧
      (root → Current m → same → Completes (.reportFlit m tick epoch digest) s fun t => OnlyHeard t a) ∧
      (root → Current m → ¬same → plain a → Completes (.reportFlit m tick epoch digest) s fun t => Lost t a 3)) ∧
    (∀ (m : MemberRef) (e : EngId),
      let a := m.addr
      (role < 2 ∨ ¬Current m → ChangesNothing (.takeFlit m e) s) ∧
      (role = 2 → a.toNat / 256 ≠ hedgeAddr s / 256 → ChangesNothing (.takeFlit m e) s) ∧
      (∀ k, role = 2 → Current m → a.toNat / 256 = hedgeAddr s / 256 → portTo s 0 = some k → Room k 1 →
        Completes (.takeFlit m e) s fun t => HedgeOnly t ∧ Heard t a.toNat ∧
          ∃ f, (t.link k).wire = (s.link k).wire ++ [f] ∧ f.type = 3 ∧ f.dest = 0 ∧
            f.payload = leBytes 2 a.toNat ++ leBytes 1 e.val) ∧
      (root → Current m → Completes (.takeFlit m e) s fun t =>
        t = { s with hedge := { s.hedge with members := t.hedge.members, takes := t.hedge.takes } } ∧ Heard t a.toNat ∧
          ((∃ m, s.member a.toNat = some m ∧ m.st = 3) → (∀ x ∈ s.hedge.takes, ¬(x.1 = a.toNat ∧ x.2.1 = e)) →
            t.hedge.takes = s.hedge.takes ++ [(a.toNat, e, s.now)]) ∧
          ((∀ m, s.member a.toNat = some m → m.st ≠ 3) → t.hedge.takes = s.hedge.takes))) ∧
    (∀ (a : BitVec 16) (tag : BitVec 4) (handle : Nat) (last : Bool) (d : TileDefect),
      let known := ∃ m, s.member a.toNat = some m ∧ m.st = 3 ∧ m.tag = tag.toNat
      (¬root ∨ ¬known → ChangesNothing (.resultFlit a tag handle last d) s) ∧
      (root → known → (∀ x, s.tile handle = some x → ∀ e, x.status ≠ .dealt a.toNat e) ∨ last = false →
        Completes (.resultFlit a tag handle last d) s fun t => OnlyHeard t a.toNat) ∧
      (∀ x e, root → known → last = true → s.tile handle = some x → x.status = .dealt a.toNat e →
        (x.discard = true → Completes (.resultFlit a tag handle last d) s fun t => Heard t a.toNat ∧
          t = { s with hedge := { s.hedge with members := t.hedge.members }, tds := { s.tds with
            tiles := s.tds.tiles.filter fun y => y.handle != handle } }) ∧
        (x.discard = false → x.xchk = false ∨ (∀ o, otherCopy s x = some o → ∃ n k, o.status = .waitsCopy n k) →
          Completes (.resultFlit a tag handle last d) s fun t => ∀ y ∈ t.tds.tiles, y.handle = handle → y.status = .ready) ∧
        (∀ o, x.discard = false → x.xchk = true → x.station ≠ 1 → d.search = none → otherCopy s x = some o → (∀ n k, o.status ≠ .waitsCopy n k) →
          Completes (.resultFlit a tag handle last d) s fun t =>
            ∃ y, t.tile handle = some y ∧ y.status = .waitsCopy e a.toNat ∧ y.defect = d))) ∧
    (∀ (m : MemberRef) (b : Bytes),
      let a := m.addr
      let port := fun (k : LinkId) => (u b 8 2 = 0x0501 ∨ u b 8 2 = 0x0503) ∧ u b 7 1 = 22 + k.val
      let lossHere := u b 8 2 = 0x0505 ∧ a.toNat ≠ 0 ∧ a.toNat % 256 = 0
      (¬root ∨ ¬Current m → ChangesNothing (.faultFlit m b) s) ∧
      (∀ k, root → Current m → port k → Completes (.faultFlit m b) s fun t =>
        (s.hedge.members.length < 200 → ∃ r : FaultRec, t.faults.ring[s.faults.head % 256]'(Nat.mod_lt _ (by decide)) = some r ∧
          r.chip = a.toNat ∧ r.fcode = u b 8 2 ∧ r.domain = u b 7 1) ∧
        ∀ x ∈ s.hedge.members, x.st = 2 ∨ x.st = 3 →
          Config.routeVia 0 x.addr a.toNat k.val = true ∨ Config.routeVia x.addr 0 a.toNat k.val = true →
            ∃ y ∈ t.hedge.members, y.addr = x.addr ∧ y.st = 4) ∧
      (root → Current m → ¬lossHere → (∀ k, ¬port k) → Completes (.faultFlit m b) s fun t =>
        ∃ r : FaultRec, t.faults.ring[s.faults.head % 256]'(Nat.mod_lt _ (by decide)) = some r ∧ r.chip = a.toNat ∧
          r.fcode = u b 8 2 ∧ r.domain = u b 7 1 ∧ r.detail = u b 24 4 ∧ r.stamp = u b 16 8 ∧ Heard t a.toNat ∧
          t = { s with faults := t.faults, ctxs := t.ctxs, hedge := { s.hedge with members := t.hedge.members } }) ∧
      (root → Current m → lossHere →
        let lost := u b 24 4 % 2 ^ 16
        (In lost → plain lost → Completes (.faultFlit m b) s fun t => Lost t lost (u b 24 4 / 2 ^ 16 % 2 ^ 4)) ∧
        ((∀ x ∈ s.hedge.members, x.addr = lost → x.st ≠ 2 ∧ x.st ≠ 3) → plain lost → Completes (.faultFlit m b) s fun t => OnlyHeard t a.toNat))) ∧
    (∀ a : BitVec 16,
      let silent := ∃ m, s.member a.toNat = some m ∧ (m.st = 2 ∨ m.st = 3) ∧ m.heard + us (oNat s 0x2800 0x0A) ≤ s.now
      (¬silent → ChangesNothing (.memberTimeout a) s) ∧
      (silent → plain a.toNat → Completes (.memberTimeout a) s fun t => Lost t a.toNat 1))

/-! ### Power-on, boot, recovery, attestation (R447, R448, R455, R625-R639, R657, R691-R696) -/

/-- Power-on and the core supply, the boot's outcome, the recovery session and its commands, and attestation. -/
def Obligations.BootAndRecovery : Prop :=
  ∀ s : State,
    let b := s.boot
    -- supplies
    (exec .powerOnReset s = .next { State.reset with
      pending := s.pending, freeCount := s.freeCount, psram := s.psram, store := s.store, flash := s.flash
      flashWear := s.flashWear
      clk := { (default : Clk) with rtc := s.clk.rtc, rtcPhase := s.clk.rtcPhase, rtcOk := s.clk.rtcOk } }) ∧
    (b.phase ≠ .held → ChangesNothing .porstNRise s ∧ ChangesNothing .vddAonReturn s) ∧
    (b.phase = .held →
      let Rises := fun (t : State) =>
        t = { s with
          clk := { s.clk with xinOk := true, rtcOk := true }
          boot := { b with phase := .ramp, coreEn := true, rampFrom := s.now }
          power := { s.power with vset := t.power.vset }, freeCount := s.freeCount + 1 } ∧
        ∀ l, sectionsOf ((slice (flashRecord s) 192 ((flashRecord s).length - 256)).length / 8 + 1)
          (slice (flashRecord s) 192 ((flashRecord s).length - 256)) = some l → t.power.vset = (bodiesOf l).vcoreNom
      Completes .porstNRise s Rises ∧ Completes .vddAonReturn s Rises) ∧
    (¬(b.phase = .ramp ∧ b.rampFrom + 4000000 ≤ s.now) → ChangesNothing .pwrgdCoreTimeout s) ∧
    (b.phase = .ramp → b.rampFrom + 4000000 ≤ s.now → exec .pwrgdCoreTimeout s = .next { s with
      boot := { b with phase := .coreOff, coreEn := false, rampFrom := s.now }, saf := { s.saf with faultLow := true } }) ∧
    (b.phase ≠ .on → ChangesNothing .pwrgdCoreFall s) ∧
    (b.phase = .on → Completes .pwrgdCoreFall s fun t => PartSafe s t 4 ∧ t.boot = { b with pwrgd := false }) ∧
    -- the boot
    (∀ f : BootFinding,
      (b.phase = .on → exec (.pwrgdCoreRise f) s = .next { s with boot := { b with pwrgd := true } }) ∧
      (b.phase ≠ .on → b.phase ≠ .ramp → ChangesNothing (.pwrgdCoreRise f) s) ∧
      (b.phase = .ramp →
        let bs := flashRecord s
        let id := deviceIdOf ((deviceSeed s).getD [])
        let why := recordReason id bs
        let fw := (flashFirmware s).getD []
        let body := slice bs 192 (bs.length - 256)
        let l := sectionsOf (body.length / 8 + 1) body
        let Recovers := fun (reason : Nat) => Completes (.pwrgdCoreRise f) s fun t =>
          t.boot.phase = .on ∧ t.boot.st = 1 ∧ t.boot.reason = reason ∧ t.boot.hostUp = false ∧ t.boot.recHolder = none ∧
            t.saf.faultLow = true ∧ t.saf.outEn = s.saf.outEn ∧ t.saf.driveA = s.saf.driveA ∧ t.saf.driveB = s.saf.driveB ∧
            t.sda.en = true ∧ t.sdb.en = true ∧ t.cn0 = s.cn0 ∧ t.cn1 = s.cn1 ∧ t.ctxs = s.ctxs ∧ SameMemory s t
        (f.flashSize = 0 → Recovers 8) ∧
        (f.flashSize ≠ 0 → deviceSeed s = none → Recovers 6) ∧
        (f.flashSize ≠ 0 → deviceSeed s ≠ none →
          (why ≠ 0 → Recovers why) ∧
          (why = 0 → flashFirmware s = none → Recovers 5) ∧
          (why = 0 → flashFirmware s ≠ none → Config.clMax < u bs 14 2 ∨ u fw 12 2 < u bs 14 2 → Recovers 4) ∧
          (why = 0 → flashFirmware s ≠ none → u bs 14 2 ≤ Config.clMax → u bs 14 2 ≤ u fw 12 2 →
            (l = none → Recovers 3) ∧ (∀ x, l = some x → sectionsOk x = false → Recovers 3) ∧
            ∀ x, l = some x → sectionsOk x = true → Completes (.pwrgdCoreRise f) s fun t =>
              t.boot.phase = .on ∧ t.boot.st = 5 ∧ t.boot.deviceId = id ∧ t.boot.lifecycle = u bs 12 1 ∧
                t.boot.cfgVersion = u bs 8 4 ∧ t.boot.cl = u bs 14 2 ∧ t.boot.fwVersion = u fw 8 4 ∧
                t.boot.cfg = bodiesOf x ∧ t.tds.run = true ∧ (t.saf.outEn = true ↔ f.checkers = []) ∧ t.saf.stDone = true ∧
                t.power.vset = (bodiesOf x).vcoreNom ∧
                (∀ a, ¬(wearBase ≤ a ∧ a < wearBase + 8192) → memByte t.flash a = memByte s.flash a) ∧
                t.wear.powerCycles = ((restoredWear { s with boot := { s.boot with keyProd := u bs 12 1 == 3 } }).elim 0 (·.powerCycles)) + 1 ∧
                (t.saf.faultLow = true ↔ t.saf.causes ≠ 0) ∧ (f.checkers ≠ [] → t.saf.causes.toNat.testBit 8 = true) ∧
                ((∀ i : Fin 64, s.images[i].st ≠ 1) → ∀ i : Fin 64, t.images[i].st ≠ 1))))) ∧
    -- recovery commands
    (∀ i : SdIf,
      let cmds : List Instr :=
        [.programCfg i, .programFw i, .programImage i, .enrol i, .programCert i, .restart i]
      let inRecovery := b.phase = .on ∧ b.st = 1 ∧ (s.sd i).en = true
      let mine := inRecovery ∧ (b.recHolder = none ∨ b.recHolder = some i)
      let bs := staged s
      let here := s.boot.recLen.toNat ≤ 2 ^ 24 ∧ psramOk s 0 s.boot.recLen.toNat = true
      let Fails := fun (err : Nat) (t : State) =>
        t = { s with boot := { b with recHolder := some i, recState := 3, recErr := err } }
      let Written := fun (off size : Nat) (data : Bytes) (t : State) =>
        t = { s with flash := t.flash, boot := { b with
          recHolder := some i, recState := 2, recErr := 0, recData := t.boot.recData } } ∧
        (∀ a, a < off ∨ off + size ≤ a → memByte t.flash a = memByte s.flash a) ∧
        (Memory.wf s.flash = true → memRead t.flash off data.length = data)
      (∀ c ∈ cmds, (¬inRecovery → ChangesNothing c s) ∧
        (∀ j, inRecovery → b.recHolder = some j → j ≠ i →
          exec c s = .next { s with boot := { b with recState := 3, recErr := 5 } })) ∧
      (mine →
        let fits := here ∧ 448 ≤ bs.length ∧ bs.length ≤ 262144 ∧ recLength bs = bs.length
        (¬fits → Completes (.programCfg i) s (Fails 3)) ∧
        (fits → recordReason b.deviceId bs = 7 → Completes (.programCfg i) s (Fails 2)) ∧
        (fits → recordReason b.deviceId bs ≠ 7 → recordReason b.deviceId bs ≠ 0 → Completes (.programCfg i) s (Fails 1)) ∧
        (fits → recordReason b.deviceId bs = 0 → Completes (.programCfg i) s (Written 0 262144 bs))) ∧
      (mine →
        let fits := here ∧ bs.length ≤ 15 * 2 ^ 20
        (¬fits → Completes (.programFw i) s (Fails 3)) ∧
        (fits → rootSigned bs = false → Completes (.programFw i) s (Fails 1)) ∧
        (fits → rootSigned bs = true → Completes (.programFw i) s (Written 0x100000 (15 * 2 ^ 20) bs))) ∧
      (mine →
        let off := 0x1000000 + b.recArg.toNat
        let fits := here ∧ off + bs.length ≤ b.flashSize
        (¬fits → Completes (.programImage i) s (Fails 3)) ∧
        (fits → Completes (.programImage i) s (Written off bs.length bs))) ∧
      (mine →
        let h := padTo 4096 (Config.enrolHelper bs)
        (¬here → Completes (.enrol i) s (Fails 3)) ∧
        (here → rootSigned bs = false → Completes (.enrol i) s (Fails 1)) ∧
        (here → rootSigned bs = true → Completes (.enrol i) s fun t =>
          Written 0x40000 4096 h t ∧ t.boot.recData = padTo 64 (prodPublic (Config.pufSeed h)))) ∧
      (mine →
        let fits := here ∧ bs.length = 128
        let right := ∃ seed, deviceSeed s = some seed ∧ slice bs 16 32 = prodPublic seed
        (¬fits → Completes (.programCert i) s (Fails 3)) ∧
        (fits → certOk bs = false → Completes (.programCert i) s (Fails 1)) ∧
        (fits → certOk bs = true → ¬right → Completes (.programCert i) s (Fails 2)) ∧
        (fits → certOk bs = true → right → Completes (.programCert i) s (Written 0x41000 4096 bs))) ∧
      (mine → Completes (.restart i) s fun t =>
        t.boot = { State.reset.boot with phase := .ramp, coreEn := true, rampFrom := s.now } ∧ t.clk.now = s.clk.now ∧
          t.clk.rtc = s.clk.rtc ∧ t.clk.apllLock = false ∧ t.faults.ring = s.faults.ring ∧ t.faults.inReset = 0 ∧ t.wear = s.wear ∧
          SameMemory s t ∧ t.ctxs = State.reset.ctxs ∧ t.engines = State.reset.engines ∧ t.world = State.reset.world ∧
          t.saf.outEn = false ∧ t.saf.faultLow = false ∧ t.saf.causes = s.saf.causes)) ∧
    -- attestation
    (∀ p nonce, Accepts s p ⟨0x2500, 0x08, nonce⟩ → b.attest ≠ 1 ∧ nonce.length = 32 ∧
      Completes (.attestNonce p nonce) s fun t => AnswerFrame { s with sem := t.sem, boot := t.boot } t ∧
        t.boot = { b with attest := 1, attestBody := attestBody s nonce }) ∧
    (b.attest ≠ 1 → ChangesNothing .attestComplete s) ∧
    (b.attest = 1 → exec .attestComplete s = .next { s with boot := { b with
      attest := 2, attestReport := b.attestBody ++ edSign (keyInForce s) b.attestBody } }) ∧
    ∀ nonce : Bytes, (attestBody s nonce).take 4 = [1, 0, 0, 0] ∧
      (nonce.length = 32 → ((attestBody s nonce).drop 32).take 32 = nonce)

/-! ### Images, modules, power (R640-R653, R663, R667-R677) -/

/-- The image table, the module slots, the power states, part OFF, and the core voltage. -/
def Obligations.ImagesModulesPower : Prop :=
  ∀ s : State,
    -- images
    (∀ p data, Accepts s p ⟨0x2500, 0x10, data⟩ → Completes (.imgRegister p data) s fun t =>
      let h := u data 0 4
      let dup := h = 0 ∨ ∃ j : Fin 64, (s.images[j].st = 1 ∨ s.images[j].st = 2) ∧ s.images[j].handle = h
      AnswerFrame { s with sem := t.sem, images := t.images } t ∧
        ((∀ j : Fin 64, s.images[j].st ≠ 0 ∧ s.images[j].st ≠ 3) → t.images = s.images) ∧
        ((∃ j : Fin 64, s.images[j].st = 0) → ∃ i : Fin 64, s.images[i].st = 0 ∧
          (∀ j : Fin 64, j ≠ i → t.images[j] = s.images[j]) ∧ ∃ r, (r = 4 ↔ dup) ∧ (r = 0 ∨ r = 4) ∧
            t.images[i] = ⟨h, u data 4 1, 1, r, u data 8 4, u data 12 4, []⟩)) ∧
    (∀ i : Fin 64, s.images[i].st ≠ 1 → ChangesNothing (.imageCheckComplete i) s) ∧
    (∀ i : Fin 64, s.images[i].st = 1 →
      let e := s.images[i]
      let bs := memRead s.psram e.offset e.length
      let c := s.boot.cfg
      let why := if signedBy s.boot.ownerKey bs = false then 1 else if imageFormOk e.kind bs = false then 2
        else if e.offset < c.imageBase ∨ c.imageBase + c.imageSize < e.offset + e.length ∨ psramOk s e.offset e.length = false
          then 3 else e.reason
      Completes (.imageCheckComplete i) s fun t =>
        t = { s with images := t.images } ∧ (∀ j : Fin 64, j ≠ i → t.images[j] = s.images[j]) ∧
          (why = 0 → t.images[i] = { e with st := 2, reason := 0, digest := sha512 bs }) ∧
          (why ≠ 0 → t.images[i] = { e with st := 3, reason := why, digest := [] })) ∧
    (∀ (p : Port) (h : Word),
      let w : ObjWrite := ⟨0x2500, 0x11, leBytes 4 h.toNat⟩
      let known := ∃ i : Fin 64, s.images[i].st ≠ 0 ∧ s.images[i].handle = h.toNat
      (s.serves = true → isMember s = false → imageBusy s h.toNat = true → writeAbort s p w = 0x08000022) ∧
      (s.serves = true → isMember s = false → imageBusy s h.toNat = false → h = 0 ∨ ¬known → writeAbort s p w = 0x06090030) ∧
      (Accepts s p w → imageBusy s h.toNat = false ∧ h ≠ 0 ∧ Completes (.imgUnregister p h) s fun t =>
        AnswerFrame { s with sem := t.sem, images := t.images } t ∧ ∃ i : Fin 64, s.images[i].st ≠ 0 ∧
          s.images[i].handle = h.toNat ∧ ((∃ j : Fin 64, s.images[j].st = 2 ∧ s.images[j].handle = h.toNat) → s.images[i].st = 2) ∧
          t.images[i] = default ∧ ∀ j : Fin 64, j ≠ i → t.images[j] = s.images[j])) ∧
    -- modules
    (∀ answers : List PollAnswer,
      let n := s.boot.cfg.tagPollMs
      let due := s.serves = true ∧ isMember s = false ∧ s.inReset domIo = false ∧ n ≠ 0 ∧ s.now % (n * 400000) = 0
      (¬due → ChangesNothing (.tagPoll answers) s) ∧
      (due → Completes (.tagPoll answers) s fun t =>
        t = { s with modules := { s.modules with slots := t.modules.slots } } ∧
          ∀ (k : Fin 32) (bus addr : Nat), k.val < 16 → slotPlace s k = some (bus, addr) →
            let x := s.slot k
            let y := t.slot k
            let heard := answers.find? fun a => a.bus == bus && a.addr == addr && a.ack
            let Gone := y.st = 0 ∧ y.rec_ = none ∧ y.raw = [] ∧ y.changedAt = some s.now
            (bus < 2 → x.st = 2 ∨ x.st = 3 →
              (∀ a, heard = some a → a.ident = identOf x.raw → y = { x with nacks := 0 }) ∧
              (∀ a, heard = some a → a.ident ≠ identOf x.raw → Gone) ∧
              (heard = none → x.nacks = 0 → y = { x with nacks := 1 }) ∧ (heard = none → x.nacks ≠ 0 → Gone)) ∧
            (x.st = 0 → slotOf s bus addr = some k → bus < 2 → heard ≠ none → y.st = 1 ∧ y.bus = bus ∧ y.addr = addr ∧ y.raw = []) ∧
            (x.st = 0 → slotOf s bus addr = some k → heard = none → y = x) ∧ (x.st = 1 → y = x))) ∧
    (∀ (k : Fin 32) (ok : Bool) (record : Bytes),
      let x := s.slot k
      let Others := fun (t : State) => ∀ j, j ≠ k → t.slot j = s.slot j
      (x.st ≠ 1 ∨ x.raw ≠ [] → ChangesNothing (.tagReadComplete k ok record) s) ∧
      (x.st = 1 → x.raw = [] → Completes (.tagReadComplete k true record) s fun t =>
        t = { s with modules := { s.modules with slots := t.modules.slots } } ∧ Others t ∧ t.slot k = { x with raw := record }) ∧
      (x.st = 1 → x.raw = [] → Completes (.tagReadComplete k false record) s fun t =>
        t = { s with modules := { s.modules with slots := t.modules.slots, readFail := (s.modules.readFail + 1) % 2 ^ 32 } } ∧
          Others t ∧ t.slot k = { x with st := 0 }) ∧
      (∀ vendor serial, x.st ≠ 1 ∨ x.raw = [] → ChangesNothing (.tagVerified k vendor serial) s) ∧
      (∀ vendor serial, x.st = 1 → x.raw ≠ [] →
        let r := parseTag x.raw
        let valid := tagOk s.boot.cfg.moduleKeys x.raw = true ∧ (x.bus < 2 ∨ (r.vendor = vendor ∧ r.serial = serial))
        (valid → Completes (.tagVerified k vendor serial) s fun t =>
          t = { s with modules := { s.modules with slots := t.modules.slots } } ∧ Others t ∧
            (t.slot k).st = 2 ∧ (t.slot k).rec_ = some r ∧ (t.slot k).raw = x.raw ∧ (t.slot k).changedAt = some s.now) ∧
        (¬valid → Completes (.tagVerified k vendor serial) s fun t =>
          t = { s with modules := { s.modules with
            slots := t.modules.slots, tagInvalid := (s.modules.tagInvalid + 1) % 2 ^ 32 } } ∧
            Others t ∧ (t.slot k).st = 3 ∧ (t.slot k).rec_ = none ∧ (t.slot k).changedAt = some s.now))) ∧
    -- power states
    (∀ n : EngId,
      let idle := takes s n = true ∧ (s.eng n).st = .takeWait ∧ (s.eng n).idleFrom + 64 ≤ s.now ∧ nextFor s n = none
      (idle → exec (.napEntry n) s = .next (s.modEng n fun e => { e with st := .nap })) ∧
      (¬idle → ChangesNothing (.napEntry n) s)) ∧
    (let served := fun (n : EngId) => s.working n = true ∨ s.roles.coppice = some n;
      let quiet := s.boot.phase = .on ∧ s.boot.st = 5 ∧ oNat s 0x2600 0x09 = 1 ∧ us 20 ≤ toNextWake s ∧ workWaits s = false ∧
        ∀ n, served n → (s.eng n).st = .nap ∧ (s.eng n).idleFrom + 64 + us 5 ≤ s.now;
      (¬quiet → ChangesNothing .dozeEntry s) ∧
      (quiet → Completes .dozeEntry s fun t =>
        t = { s with engines := t.engines, power := { s.power with dozeCount := (s.power.dozeCount + 1) % 2 ^ 32 } } ∧
          ∀ n, (served n → t.eng n = { s.eng n with st := .doze }) ∧ (¬served n → t.eng n = s.eng n))) ∧
    (∀ w : WakeCause,
      let wakes := match w with
        | .wakeLead => toNextWake s = 0
        | .tileReady => workWaits s = true
        | .access => True
      (¬wakes → ChangesNothing (.dozeWake w) s) ∧
      (wakes → Completes (.dozeWake w) s fun t => t = { s with engines := t.engines } ∧ ∀ n,
        ((s.eng n).st = .doze → (t.eng n).st = .takeWait ∧ (t.eng n).idleFrom = s.now ∧ (t.eng n).spad = (s.eng n).spad ∧
          (t.eng n).clipRegion = (s.eng n).clipRegion ∧ (t.eng n).core = State.reset.engines[n].core) ∧
        ((s.eng n).st ≠ .doze → t.eng n = s.eng n))) ∧
    (let may := s.boot.phase = .on ∧ s.boot.hostUp = true ∧ oNat s 0x2600 0x0B = 1;
      (may → exec .hostDozeEntry s = .next { s with power := { s.power with hostDoze := true } }) ∧
      (¬may → ChangesNothing .hostDozeEntry s) ∧
      (exec .hostDozeWake s = .next { s with power := { s.power with hostDoze := false } })) ∧
    (∀ p, Accepts s p ⟨0x2600, 0x0F, [1]⟩ → s.anyRuns = false ∧ s.replaying = false ∧ Completes (.offReq p) s fun t =>
      t.boot.phase = .partOff ∧ t.wear = { s.wear with seq := (s.wear.seq + 1) % 2 ^ 32 } ∧ WearWritten s t ∧
        SameButWear s t ∧ t.saf.outEn = false ∧ t.clk.apllLock = false ∧ t.clk.rtc = s.clk.rtc ∧ t.faults.ring = s.faults.ring ∧
        t.ctxs = State.reset.ctxs ∧ t.engines = State.reset.engines) ∧
    (∀ f : BootFinding,
      let alarm := s.boot.phase = .partOff ∧ oNat s 0x2600 0x0E ≠ 0 ∧ oNat s 0x2600 0x0E = s.clk.rtc
      (¬alarm → ChangesNothing (.rtcAlarm f) s) ∧
      (alarm → Completes (.rtcAlarm f) s fun t =>
        exec (.pwrgdCoreRise f) { s with boot := { s.boot with phase := .ramp } } = .next t)) ∧
    -- voltage
    (∀ r : RegulatorPoll,
      let p := s.power
      let due := s.boot.phase = .on ∧ s.now % us 1000 = 0
      let tj := max r.tjLogic (max r.tjStore0 r.tjStore1)
      let dies := [r.tjLogic, r.tjStore0, r.tjStore1]
      (¬due → ChangesNothing (.telemetryPoll r) s) ∧
      (due → r.ok = false → exec (.telemetryPoll r) s = .next { s with power := { p with
        tjMax := tj, tjDie := dies, pmbusFail := (p.pmbusFail + 1) % 2 ^ 32, backToNom := true } }) ∧
      (due → r.ok = true → Completes (.telemetryPoll r) s fun t =>
        let hist := (r.vout * r.iout :: p.pHist).take 10
        t.power = { p with
          tjMax := tj, tjDie := dies, vread := r.vout, iread := r.iout, pHist := hist, pcore := hist.sum / hist.length / 100
          backToNom := false, vset := if p.backToNom then s.boot.cfg.vcoreNom else p.vset } ∧ t.saf = s.saf ∧
          t.engines = s.engines ∧ t.ctxs = s.ctxs ∧ SameMemory s t ∧ (r.statusWord = 0 → t.faults = s.faults) ∧
          (r.statusWord ≠ 0 → Recorded s t 0x0404 0x1E 0x1F r.statusWord))) ∧
    (∀ up ok : Bool,
      let p := s.power
      let c := s.boot.cfg
      let due := s.boot.phase = .on ∧ s.now % us 10000 = 0
      (¬due → ChangesNothing (.avsAdjust up ok) s) ∧
      (due → ok = false → exec (.avsAdjust up ok) s = .next { s with power := { p with
        pmbusFail := (p.pmbusFail + 1) % 2 ^ 32, backToNom := true } }) ∧
      (due → ok = true → p.backToNom = true → exec (.avsAdjust up ok) s = .next { s with power := { p with
        vset := c.vcoreNom, backToNom := false } }) ∧
      (due → ok = true → p.backToNom = false → exec (.avsAdjust up ok) s = .next { s with power := { p with
        vset := if up then min c.vcoreNom (p.vset + 5) else max c.vcoreMin (p.vset - 5) } })) ∧
    (s.boot.phase ≠ .on → ChangesNothing .speedMonitorAlert s) ∧
    (s.boot.phase = .on → exec .speedMonitorAlert s = .next { s with power := { s.power with
      vset := min s.boot.cfg.vcoreNom (s.power.vset + 25) } })

/-! ### REGISTER_WRITE (R404) -/

/-- The Arbiter's weights and wait limits: a boot that reaches service takes those of the configuration record; AON writes them
while no context runs; any other write of them ends with a bus error and changes nothing. -/
def Obligations.WeightsAreWrittenByAon : Prop :=
  ∀ (s : State) (r : Fin 32) (v : Word),
    let weight := 0x0A000100 + 4 * r.val
    let limit := 0x0A000200 + 4 * r.val
    let a := s.arb
    (∀ m : Master, m ≠ .aon → (∀ n, m ≠ .engine n) → (∀ p, m ≠ .io p) →
      BusErrorOnly (.registerWrite m weight (.word v)) s ∧ BusErrorOnly (.registerWrite m limit (.word v)) s) ∧
    (∀ n, Completes (.registerWrite (.engine n) weight (.word v)) s (fun t => t.bus = .error ∧ t.arb = a) ∧
      Completes (.registerWrite (.engine n) limit (.word v)) s fun t => t.bus = .error ∧ t.arb = a) ∧
    (∀ p, Completes (.registerWrite (.io p) weight (.word v)) s (fun t => t = s) ∧
      Completes (.registerWrite (.io p) limit (.word v)) s fun t => t = s) ∧
    (s.anyRuns = true → BusErrorOnly (.registerWrite .aon weight (.word v)) s ∧ BusErrorOnly (.registerWrite .aon limit (.word v)) s) ∧
    (s.anyRuns = false → Completes (.registerWrite .aon weight (.word v)) s fun t =>
      t = { s with bus := .ok 0, arb := { a with wStore := t.arb.wStore, wPsram := t.arb.wPsram, wLink := t.arb.wLink } } ∧
        t.arb.wStore[r] = v.toNat % 256 ∧ t.arb.wPsram[r] = v.toNat / 256 % 256 ∧ t.arb.wLink[r] = v.toNat / 65536 % 256 ∧
        ∀ k : Fin 32, k ≠ r → t.arb.wStore[k] = a.wStore[k] ∧ t.arb.wPsram[k] = a.wPsram[k] ∧ t.arb.wLink[k] = a.wLink[k]) ∧
    (s.anyRuns = false → v.toNat % 4096 ≠ 0 → Completes (.registerWrite .aon limit (.word v)) s fun t =>
      t = { s with bus := .ok 0, arb := { a with wlimit := t.arb.wlimit } } ∧ t.arb.wlimit[r] = v.toNat % 4096 ∧
        ∀ k : Fin 32, k ≠ r → t.arb.wlimit[k] = a.wlimit[k]) ∧
    (v.toNat % 4096 = 0 → BusErrorOnly (.registerWrite .aon limit (.word v)) s) ∧
    ∀ (f : BootFinding) (t : State) (w : Nat × Nat × Nat × Nat), s.boot.phase = .ramp → exec (.pwrgdCoreRise f) s = .next t →
      t.boot.st = 5 → t.boot.cfg.arbWeights[r.val]? = some w →
        t.arb.wStore[r] = w.1 ∧ t.arb.wPsram[r] = w.2.1 ∧ t.arb.wLink[r] = w.2.2.1 ∧ t.arb.wlimit[r] = w.2.2.2

/-- Register accesses on the bus, by a master that is no engine (an engine's bus error stops it besides) and no port: addresses
outside the map, writes of the boot flash, and what a reset holds answer with a bus error; the ROM keeps its contents; W1C fields
clear where a 1 is written; registers reserved for AON or frozen refuse; PSRAM and scratchpad bytes are stored and loaded; a register
is read as its view says; registers whose write is a command of its own act as that command. A port's host reaches the functions
of its own SDIO card only. -/
def Obligations.RegisterWrites : Prop :=
  ∀ (s : State) (m : Master) (v : Word), (∀ n, m ≠ .engine n) → (∀ p, m ≠ .io p) →
    let Err := fun (a : Nat) => BusErrorOnly (.registerWrite m a (.word v)) s
    let Is := fun (a : Nat) (t : State) => exec (.registerWrite m a (.word v)) s = .next t
    let Load := fun (a len : Nat) (r : BusReply) => exec (.registerWrite m a (.load len none)) s = .next { s with bus := r }
    let Same := fun (a : Nat) (c : Instr) => Completes (.registerWrite m a (.word v)) s fun t => exec c s = .next t
    let ok : State := { s with bus := .ok 0 }
    let word := leBytes 4 v.toNat
    let io := s.inReset domIo
    (∀ a, (0x05200000 ≤ a ∧ a < 0x08000000) ∨ (0x14800000 ≤ a ∧ a < 0x40000000) ∨ (0x60000000 ≤ a ∧ a < 0x800000000) ∨
      0x820000000 ≤ a → Err a) ∧
    (∀ a len, (0x05200000 ≤ a ∧ a < 0x08000000) ∨ (0x14800000 ≤ a ∧ a < 0x40000000) ∨ (0x60000000 ≤ a ∧ a < 0x800000000) ∨
      (0x820000000 ≤ a ∧ a < 0xC00000000) ∨ 0xC08000000 ≤ a → Load a len .error) ∧
    (∀ a len, 0x01000000 ≤ a → a < 0x05200000 ∨ (0x08000000 ≤ a ∧ a < 0x10000000) →
      (regHeld s a = true ∨ regBarred s m a = true → Load a len .error) ∧
        (regHeld s a = false → regBarred s m a = false → ∃ x, regView s a = some x ∧ Load a len (.ok x))) ∧
    (∀ a, a < 0x01000000 → Is a ok) ∧
    (∀ a c g acc, (∀ k h b, acc ≠ .tagged k h b) →
      (g = domTag s (masterDomain m) → exec (.registerWrite m a (.tagged c g acc)) s = exec (.registerWrite m a acc) s) ∧
      (g ≠ domTag s (masterDomain m) → exec (.registerWrite m a (.tagged c g acc)) s = .next { s with faults := { s.faults with
        stale := min 65535 (s.faults.stale + 1), staleDomain := masterDomain m } })) ∧
    -- memories
    (∀ off, off < 2 ^ 29 →
      (s.inReset domPsram = true ∨ psramOk s off 4 = false → Err (0x800000000 + off)) ∧
      (s.inReset domPsram = false → psramOk s off 4 = true → Completes (.registerWrite m (0x800000000 + off) (.word v)) s fun t =>
        t = { ok with psram := t.psram } ∧ (Memory.wf s.psram = true → memRead t.psram off 4 = word) ∧
          ∀ k, k < off ∨ off + 4 ≤ k → memByte t.psram k = memByte s.psram k) ∧
      ∀ len, (s.inReset domPsram = true ∨ psramOk s off len = false → Load (0x800000000 + off) len .error) ∧
        (s.inReset domPsram = false → psramOk s off len = true →
          Load (0x800000000 + off) len (.bytes (memRead s.psram off len)))) ∧
    (∀ off len, off < 0x8000000 →
      (s.boot.flashSize < off + len → Load (0xC00000000 + off) len .error) ∧
        (off + len ≤ s.boot.flashSize → Load (0xC00000000 + off) len (.bytes (memRead s.flash off len)))) ∧
    (∀ (n : EngId) (off : Nat) (bs : Bytes), off < 0x400000 →
      let a := 0x10000000 + n.val * 0x400000 + off
      let z := bs.length
      let store := fun (bad : Option Nat) => Instr.registerWrite m a (.store bs bad)
      let load := fun (bad : Option Nat) => Instr.registerWrite m a (.load z bad)
      let gone := s.retired n = true ∨ s.inReset (engDomain n) = true
      let touched := fun (b : BankId) => b.val * 2 ^ 18 < off + z ∧ off < (b.val + 1) * 2 ^ 18
      let mine := ∀ b, touched b → ownerCode n m = some (s.eng n).banks[b].owner
      let may := ¬gone ∧ z ≤ 256 ∧ off + z ≤ 2 ^ 22 ∧ mine
      let Uncorrected := fun (w : Nat) (t : State) => t = { s with bus := .error, engines := t.engines } ∧ OtherEngines n s t ∧
        t.eng n = { s.eng n with
          eccUe := min 255 ((s.eng n).eccUe + 1), eccSrc := 0, eccAddr := w % 2 ^ 19, eccFlag := true }
      exec (.registerWrite m a (.word v)) s = exec (.registerWrite m a (.store word none)) s ∧
      (¬may → ∀ bad, BusErrorOnly (store bad) s ∧ BusErrorOnly (load bad) s) ∧
      (may →
        (∀ bad, bad = none ∨ (off % 8 = 0 ∧ (off + z) % 8 = 0) → Completes (store bad) s fun t =>
          t = { ok with engines := t.engines } ∧ OtherEngines n s t ∧ t.eng n = { s.eng n with spad := (t.eng n).spad } ∧
            (∀ i, i < z → amGet (t.eng n).spad (off + i) = bs[i]?) ∧
            ∀ k, k < off ∨ off + z ≤ k → amGet (t.eng n).spad k = amGet (s.eng n).spad k) ∧
        (∀ w, off % 8 ≠ 0 ∨ (off + z) % 8 ≠ 0 → Completes (store (some w)) s (Uncorrected w)) ∧
        (∀ w, Completes (load (some w)) s (Uncorrected w)) ∧
        ∃ got, Load a z (.bytes got) ∧ got.length = z ∧
          ∀ i b, i < z → amGet (s.eng n).spad (off + i) = some b → got[i]? = some b)) ∧
    -- engine registers
    (∀ (n : EngId) (off : Nat), off < 0x100000 → s.retired n = true ∨ s.inReset (engDomain n) = true →
      Err (0x04000000 + n.val * 0x100000 + off)) ∧
    (∀ n : EngId, s.retired n = false → s.inReset (engDomain n) = false →
      let base := 0x04000000 + n.val * 0x100000
      Is (base + 0x10) { s.modEng n fun e => { e with fpstat := e.fpstat &&& ~~~(v.setWidth _) } with bus := .ok 0 } ∧
        (m ≠ .aon → Err (base + 0x50)) ∧
        (m = .aon → Is (base + 0x50) { s.modEng n fun e => { e with clipEn := v.toNat.testBit 0 } with bus := .ok 0 }) ∧
        ∀ b : BankId, Same (base + 0x100 + 4 * b.val) (.scratchpadOwnerWrite m n b v)) ∧
    -- W1C and enable fields
    Is 0x08000010 { ok with tds := { s.tds with preempt := s.tds.preempt &&& ~~~(v.setWidth _) } } ∧
    (s.fuseReset = true → Err 0x0B000000 ∧ Err 0x0B000010 ∧ Err 0x0B000014) ∧
    (s.fuseReset = false → Is 0x0B000010 { ok with fus := { s.fus with irq := s.fus.irq &&& ~~~(v.setWidth _) } } ∧
      Is 0x0B000014 { ok with fus := { s.fus with irqEn := v.setWidth 6 } }) ∧
    (s.inReset domVerifier = true → Err 0x0C000000 ∧ Err 0x0C000010 ∧ Err 0x0C000014) ∧
    (s.inReset domVerifier = false → Is 0x0C000010 { ok with vfy := { s.vfy with irq := s.vfy.irq &&& ~~~(v.setWidth _) } } ∧
      Is 0x0C000014 { ok with vfy := { s.vfy with irqEn := v.setWidth 6 } }) ∧
    Is 0x0D008000 { ok with hedge := { s.hedge with irq := s.hedge.irq &&& ~~~(v.setWidth _) } } ∧
    Is 0x0D008004 { ok with hedge := { s.hedge with irqEn := v.setWidth 19 } } ∧
    -- AON only, frozen while a context runs
    (m ≠ .aon ∨ s.anyRuns = true →
      (∀ n : MbxId, Err (0x09000040 + 0x80 * n.val)) ∧ (∀ l : LinkId, Err (0x0D000000 + 0x1000 * l.val)) ∧
        Err 0x0E000000 ∧ Err 0x0E010000 ∧ Err 0x0E020000 ∧ Err 0x0E030000 ∧ ∀ c : Fin 8, Err (0x03000100 + 0x20 * c.val)) ∧
    (m ≠ .aon → Err 0x01000080 ∧ Err 0x01000090 ∧ Err 0x08000000 ∧ Err 0x0F000000 ∧ Err 0x0F000014 ∧ Err 0x0F000040 ∧
      ∀ p : Fin 8, Err (0x08000A00 + 0x10 * p.val)) ∧
    (m = .aon → s.anyRuns = false →
      (io = false → v.toNat / 16 % 16 ≠ 0 → v.toNat / 16 % 16 ≤ 8 → Is 0x0E000000 { ok with sda := { s.sda with
        en := v.toNat.testBit 0, f2En := v.toNat.testBit 1, maxMode := v.toNat / 16 % 16, v18En := v.toNat.testBit 8 } }) ∧
      (io = true → Err 0x0E000000) ∧ (v.toNat / 16 % 16 = 0 ∨ 8 < v.toNat / 16 % 16 → Err 0x0E000000) ∧
      (∀ n : MbxId, v.setWidth 2 ≠ (v >>> 2).setWidth 2 → Completes (.registerWrite m (0x09000040 + 0x80 * n.val) (.word v)) s fun t =>
        OtherBoxes n s t ∧ t = { ok with mbx := { s.mbx with box := t.mbx.box } } ∧
          t.mbx.box[n].sender = v.setWidth 2 ∧ t.mbx.box[n].receiver = (v >>> 2).setWidth 2)) ∧
    -- registers whose write is a command
    (∀ n : MbxId, Same (0x09000044 + 0x80 * n.val) (.mbxPost m n (v.setWidth 7)) ∧
      (v.toNat.testBit 0 = true → Same (0x09000048 + 0x80 * n.val) (.mbxAck m n))) ∧
    (v.toNat.testBit 1 = true → Same 0x0A000000 (.clrStats m)) ∧ Same 0x0B000000 (.fusCtrl m v) ∧ Same 0x0C000000 (.vfyCtrl m v) ∧
    (∀ n : RxId, Same (0x0B000100 + 0x40 * n.val) (.fusCsiCtrl m n v)) ∧
    (∀ k : StreamId, Same (0x0B001000 + 0x20 * k.val) (.fusStrCtrl m k v)) ∧
    Same 0x02000204 (.sysRstReq m (v.setWidth 30)) ∧ (m = .aon → Same 0x0F000040 (.safWdt m (v.setWidth 16))) ∧
    (v.toNat.testBit 16 = false → Same 0x0F000010 (.safReqCtx m (v.setWidth 16))) ∧
    (∀ n : EngId, Same (0x08000804 + 0x10 * n.val) (.tileCommit m n v.toNat default)) ∧
    (∀ c : CoreId, coreOf m ≠ some c → Err (0x0800010C + 0x20 * c.val) ∧ Err (0x08000108 + 0x20 * c.val)) ∧
    -- the hosts behind the ports, and engines
    (∀ (p : Port) (a : Nat) (i : SdIf), a < 0x20000 → (i = .sda ↔ a < 0x10000) → s.boot.st ≠ 1 →
      let other := ∃ q, s.portOf (sdIdx i) = some q ∧ q ≠ p
      (s.sdOn i = false ∨ other → ChangesNothing (.registerWrite (.io p) a (.word v)) s ∧
        ChangesNothing (.registerWrite (.io p) a .crcError) s) ∧
      (s.sdOn i = true → ¬other → exec (.registerWrite (.io p) a .crcError) s =
        .next (s.modSd i fun x => { x with crcErr := min 255 (x.crcErr + 1) })) ∧
      (s.sdOn i = true → s.portOf (sdIdx i) = none → a % 0x10000 ≤ 0x1000 →
        HeardSd i 53 (.registerWrite (.io p) a (.word v)) s (fun t => t = s) ∧
          ∀ len, a % 0x10000 + len ≤ 0x1001 → HeardSd i 53 (.registerWrite (.io p) a (.load len none)) s fun t =>
            t = { s with bus := .bytes (zeros len) }) ∧
      (s.sdOn i = true → s.portOf (sdIdx i) = some p → a % 0x10000 = 0 → (s.sd i).odStatus ≠ 1 →
        HeardSd i 53 (.registerWrite (.io p) a (.word v)) s fun t => t = s.modSd i fun x =>
          { x with fifo := [], odIndex := v.toNat % 65536, odSub := v.toNat / 65536 % 256 }) ∧
      (s.sdOn i = true → s.portOf (sdIdx i) = some p → a % 0x10000 = 8 → v.toNat % 256 = 1 →
        Completes (.registerWrite (.io p) a (.word v)) s fun t => exec (.odCmdRead i) s = .next t)) ∧
    ∀ (n : EngId) (a : Nat), (0x14800000 ≤ a ∧ a < 0x40000000) → engineLive s n = true →
      Completes (.registerWrite (.engine n) a (.word v)) s fun t => t.bus = .error ∧ t.arb = s.arb ∧ t.sem = s.sem
end

