-- ==== Sys2Proof/Laws/Memory.lean ====
section
/-! SUPPORT. Byte memories and sparse maps: a read after a write, and the canonical form kept by every operation. -/

namespace Sys2Proof.Machine

/-! ## The canonical form -/

theorem memWfFrom_cons {lo k : Nat} {v : Byte} {t : Memory} :
    memWfFrom lo ((k, v) :: t) = true ↔ lo ≤ k ∧ v ≠ 0 ∧ memWfFrom (k + 1) t = true := by
  simp [memWfFrom, and_assoc]

theorem memWfFrom_mono {m : Memory} {lo lo' : Nat} (h : memWfFrom lo m = true) (hl : lo' ≤ lo) : memWfFrom lo' m = true := by
  cases m with
  | nil => rfl
  | cons c t =>
    obtain ⟨k, v⟩ := c
    rw [memWfFrom_cons] at h ⊢
    exact ⟨by omega, h.2⟩

/-- An address below every listed one reads 0. -/
theorem memByte_below {m : Memory} {lo a : Nat} (h : memWfFrom lo m = true) (ha : a < lo) : memByte m a = 0 := by
  induction m generalizing lo with
  | nil => rfl
  | cons c t ih =>
    obtain ⟨k, v⟩ := c
    rw [memWfFrom_cons] at h
    simp only [memByte]
    rw [if_neg (by omega)]
    exact ih h.2.2 (by omega)

theorem memPut_wfFrom {m : Memory} {lo a : Nat} (b : Byte) (h : memWfFrom lo m = true) (ha : lo ≤ a) :
    memWfFrom lo (memPut m a b) = true := by
  induction m generalizing lo with
  | nil =>
    simp only [memPut]
    split
    · rfl
    · rename_i hb
      exact memWfFrom_cons.2 ⟨ha, hb, rfl⟩
  | cons c t ih =>
    obtain ⟨k, v⟩ := c
    have h' := memWfFrom_cons.1 h
    simp only [memPut]
    split
    · split
      · exact h
      · rename_i hb
        exact memWfFrom_cons.2 ⟨ha, hb, memWfFrom_cons.2 ⟨by omega, h'.2⟩⟩
    · split
      · rename_i h2
        subst h2
        split
        · exact memWfFrom_mono h'.2.2 (by omega)
        · rename_i hb
          exact memWfFrom_cons.2 ⟨ha, hb, h'.2.2⟩
      · exact memWfFrom_cons.2 ⟨h'.1, h'.2.1, ih h'.2.2 (by omega)⟩

/-- A byte written keeps the canonical form. -/
theorem Memory.wf_memPut {m : Memory} (h : Memory.wf m = true) (a : Nat) (b : Byte) : Memory.wf (memPut m a b) = true :=
  memPut_wfFrom b h (Nat.zero_le a)

/-- Bytes written keep the canonical form. -/
theorem Memory.wf_memWrite {m : Memory} (h : Memory.wf m = true) (a : Nat) (bs : Bytes) :
    Memory.wf (memWrite m a bs) = true := by
  induction bs generalizing m a with
  | nil => exact h
  | cons b bs ih => exact ih (Memory.wf_memPut h a b) (a + 1)

theorem memWfFrom_filter {m : Memory} {lo : Nat} (p : Host.Cell → Bool) (h : memWfFrom lo m = true) :
    memWfFrom lo (m.filter p) = true := by
  induction m generalizing lo with
  | nil => rfl
  | cons c t ih =>
    obtain ⟨k, v⟩ := c
    have h' := memWfFrom_cons.1 h
    rw [List.filter_cons]
    split
    · exact memWfFrom_cons.2 ⟨h'.1, h'.2.1, ih h'.2.2⟩
    · exact ih (memWfFrom_mono h'.2.2 (by omega))

/-- Bytes cleared keep the canonical form. -/
theorem Memory.wf_memClear {m : Memory} (h : Memory.wf m = true) (a n : Nat) : Memory.wf (memClear m a n) = true :=
  memWfFrom_filter _ h

/-- An entry written to the ring keeps the canonical form. -/
theorem Memory.wf_ringWrite {m : Memory} (h : Memory.wf m = true) (base size off : Nat) (bs : Bytes) :
    Memory.wf (ringWrite m base size off bs) = true :=
  Memory.wf_memWrite (Memory.wf_memWrite h _ _) _ _

@[simp] theorem Memory.wf_nil : Memory.wf [] = true := rfl

/-! ## A read after a write -/

/-- A byte written reads back. -/
theorem memByte_memPut_same {m : Memory} {lo : Nat} (h : memWfFrom lo m = true) (a : Nat) (b : Byte) :
    memByte (memPut m a b) a = b := by
  induction m generalizing lo with
  | nil =>
    simp only [memPut]
    split
    · rename_i hb
      exact hb.symm
    · simp [memByte]
  | cons c t ih =>
    obtain ⟨k, v⟩ := c
    have h' := memWfFrom_cons.1 h
    simp only [memPut]
    split
    · split
      · rename_i hb
        rw [hb]
        exact memByte_below (lo := k) (memWfFrom_cons.2 ⟨by omega, h'.2⟩) (by omega)
      · simp [memByte]
    · split
      · split
        · rename_i hb
          rw [hb]
          exact memByte_below h'.2.2 (by omega)
        · simp [memByte]
      · simp only [memByte]
        rw [if_neg (by omega)]
        exact ih h'.2.2

/-- A byte written leaves every other byte as it was. -/
theorem memByte_memPut_other (m : Memory) {a x : Nat} (b : Byte) (hx : x ≠ a) :
    memByte (memPut m a b) x = memByte m x := by
  induction m with
  | nil =>
    simp only [memPut]
    split
    · rfl
    · simp only [memByte]
      exact if_neg (by omega)
  | cons c t ih =>
    obtain ⟨k, v⟩ := c
    simp only [memPut]
    split
    · split
      · rfl
      · exact if_neg (by omega)
    · split
      · split
        · exact (if_neg (by omega)).symm
        · simp only [memByte]
          rw [if_neg (by omega), if_neg (by omega)]
      · simp only [memByte]
        rw [ih]

/-- Bytes written leave every byte outside them as it was. -/
theorem memByte_memWrite_other (m : Memory) {a x : Nat} {bs : Bytes}
    (hx : x < a ∨ a + bs.length ≤ x) : memByte (memWrite m a bs) x = memByte m x := by
  induction bs generalizing m a with
  | nil => rfl
  | cons b bs ih =>
    simp only [List.length_cons] at hx
    simp only [memWrite]
    rw [ih _ (by omega)]
    exact memByte_memPut_other m b (by omega)

/-- Each of the bytes written reads back. -/
theorem memByte_memWrite_inside {m : Memory} (h : Memory.wf m = true) (a : Nat) {bs : Bytes} {i : Nat} (hi : i < bs.length) :
    memByte (memWrite m a bs) (a + i) = bs[i] := by
  induction bs generalizing m a i with
  | nil => simp at hi
  | cons b bs ih =>
    have hw := Memory.wf_memPut h a b
    simp only [memWrite]
    cases i with
    | zero =>
      rw [memByte_memWrite_other _ (by omega)]
      exact memByte_memPut_same h a b
    | succ i =>
      have := ih hw (a + 1) (i := i) (by simpa using hi)
      rw [show a + (i + 1) = a + 1 + i by omega, this]
      rfl

/-- The bytes written read back. -/
theorem memRead_memWrite {m : Memory} (h : Memory.wf m = true) (a : Nat) (bs : Bytes) :
    memRead (memWrite m a bs) a bs.length = bs := by
  induction bs generalizing m a with
  | nil => rfl
  | cons b bs ih =>
    have hw := Memory.wf_memPut h a b
    simp only [memWrite, List.length_cons, memRead]
    rw [ih hw, memByte_memWrite_other _ (by omega), memByte_memPut_same h a b]

@[simp] theorem memRead_length (m : Memory) (a n : Nat) : (memRead m a n).length = n := by
  induction n generalizing a with
  | zero => rfl
  | succ n ih => simp [memRead, ih]

/-- A range read after a write that does not meet it. -/
theorem memRead_memWrite_other (m : Memory) {a x n : Nat} {bs : Bytes}
    (hx : x + n ≤ a ∨ a + bs.length ≤ x) : memRead (memWrite m a bs) x n = memRead m x n := by
  induction n generalizing x with
  | zero => rfl
  | succ n ih =>
    simp only [memRead]
    rw [memByte_memWrite_other m (by omega), ih (by omega)]

/-- A cleared byte reads 0. -/
theorem memByte_filter_out {m : Memory} {p : Host.Cell → Bool} {x : Nat} (hp : ∀ v, p (x, v) = false) :
    memByte (m.filter p) x = 0 := by
  induction m with
  | nil => rfl
  | cons c t ih =>
    obtain ⟨k, v⟩ := c
    rw [List.filter_cons]
    split
    · rename_i hk
      have : k ≠ x := by rintro rfl; simp [hp] at hk
      simp only [memByte]
      rw [if_neg this, ih]
    · exact ih

theorem memByte_filter_in {m : Memory} {p : Host.Cell → Bool} {x : Nat} (hp : ∀ v, p (x, v) = true) :
    memByte (m.filter p) x = memByte m x := by
  induction m with
  | nil => rfl
  | cons c t ih =>
    obtain ⟨k, v⟩ := c
    rw [List.filter_cons]
    split
    · simp only [memByte, ih]
    · rename_i hk
      have : k ≠ x := by rintro rfl; simp [hp] at hk
      rw [ih]
      simp only [memByte]
      rw [if_neg this]

/-- What clearing a range does to a byte. -/
theorem memByte_memClear (m : Memory) (a n x : Nat) :
    memByte (memClear m a n) x = if a ≤ x ∧ x < a + n then 0 else memByte m x := by
  split
  · rename_i h
    exact memByte_filter_out (by intro v; simp [h])
  · rename_i h
    exact memByte_filter_in (by intro v; simp only [Bool.not_eq_true', Bool.and_eq_false_iff, decide_eq_false_iff_not]; omega)

/-! ## Sparse maps -/

/-- A key put into a map answers its value. -/
theorem amGet_amPut_same {α : Type} (m : List (Nat × α)) (a : Nat) (x : α) : amGet (amPut m a x) a = some x := by
  induction m with
  | nil => simp [amPut, amGet]
  | cons c t ih =>
    obtain ⟨k, v⟩ := c
    simp only [amPut]
    split
    · simp [amGet]
    · split
      · simp [amGet]
      · simp only [amGet]
        rw [if_neg (by omega), ih]

/-- A key put into a map leaves every other key as it was. -/
theorem amGet_amPut_other {α : Type} (m : List (Nat × α)) {a b : Nat} (x : α) (hb : b ≠ a) :
    amGet (amPut m a x) b = amGet m b := by
  induction m with
  | nil => simp [amPut, amGet, hb.symm]
  | cons c t ih =>
    obtain ⟨k, v⟩ := c
    simp only [amPut]
    split
    · exact if_neg hb.symm
    · split
      · rename_i h2
        subst h2
        simp only [amGet]
        rw [if_neg hb.symm, if_neg hb.symm]
      · simp only [amGet, ih]

/-- A key deleted from a map answers nothing. -/
theorem amGet_amDel_same {α : Type} (m : List (Nat × α)) (a : Nat) : amGet (amDel m a) a = none := by
  induction m with
  | nil => rfl
  | cons c t ih =>
    obtain ⟨k, v⟩ := c
    simp only [amDel, List.filter_cons] at ih ⊢
    split
    · rename_i hk
      simp only [amGet]
      rw [if_neg (by simpa using hk), ih]
    · exact ih

/-! ## Vectors -/

@[simp] theorem vupd_same {α : Type} {n : Nat} (v : Vector α n) (i : Fin n) (f : α → α) : (vupd v i f)[i] = f v[i] := by
  simp [vupd]

@[simp] theorem vupd_other {α : Type} {n : Nat} (v : Vector α n) {i j : Fin n} (f : α → α) (h : i ≠ j) :
    (vupd v i f)[j] = v[j] := by
  have : i.val ≠ j.val := fun e => h (Fin.ext e)
  simp [vupd, this]

end Sys2Proof.Machine
end

