-- ==== Sys2Proof/Laws/State.lean ====
section
/-! SUPPORT. What each named update of the state leaves alone, field by field, and what it makes of the unit that it
changes. -/

namespace Sys2Proof.Machine

variable (s : State)

/-! ### A reply -/

@[simp] theorem State.reply_pending (r : BusReply) : (s.reply r).pending = s.pending := rfl
@[simp] theorem State.reply_freeCount (r : BusReply) : (s.reply r).freeCount = s.freeCount := rfl
@[simp] theorem State.reply_clk (r : BusReply) : (s.reply r).clk = s.clk := rfl
@[simp] theorem State.reply_engines (r : BusReply) : (s.reply r).engines = s.engines := rfl
@[simp] theorem State.reply_roles (r : BusReply) : (s.reply r).roles = s.roles := rfl
@[simp] theorem State.reply_tds (r : BusReply) : (s.reply r).tds = s.tds := rfl
@[simp] theorem State.reply_arb (r : BusReply) : (s.reply r).arb = s.arb := rfl
@[simp] theorem State.reply_mbx (r : BusReply) : (s.reply r).mbx = s.mbx := rfl
@[simp] theorem State.reply_sem (r : BusReply) : (s.reply r).sem = s.sem := rfl
@[simp] theorem State.reply_portA (r : BusReply) : (s.reply r).portA = s.portA := rfl
@[simp] theorem State.reply_portB (r : BusReply) : (s.reply r).portB = s.portB := rfl
@[simp] theorem State.reply_sda (r : BusReply) : (s.reply r).sda = s.sda := rfl
@[simp] theorem State.reply_sdb (r : BusReply) : (s.reply r).sdb = s.sdb := rfl
@[simp] theorem State.reply_cn0 (r : BusReply) : (s.reply r).cn0 = s.cn0 := rfl
@[simp] theorem State.reply_cn1 (r : BusReply) : (s.reply r).cn1 = s.cn1 := rfl
@[simp] theorem State.reply_errField (r : BusReply) : (s.reply r).errField = s.errField := rfl
@[simp] theorem State.reply_shadow (r : BusReply) : (s.reply r).shadow = s.shadow := rfl
@[simp] theorem State.reply_force (r : BusReply) : (s.reply r).force = s.force := rfl
@[simp] theorem State.reply_edgeAt (r : BusReply) : (s.reply r).edgeAt = s.edgeAt := rfl
@[simp] theorem State.reply_edgeShadow (r : BusReply) : (s.reply r).edgeShadow = s.edgeShadow := rfl
@[simp] theorem State.reply_world (r : BusReply) : (s.reply r).world = s.world := rfl
@[simp] theorem State.reply_fus (r : BusReply) : (s.reply r).fus = s.fus := rfl
@[simp] theorem State.reply_loader (r : BusReply) : (s.reply r).loader = s.loader := rfl
@[simp] theorem State.reply_ctxs (r : BusReply) : (s.reply r).ctxs = s.ctxs := rfl
@[simp] theorem State.reply_vfy (r : BusReply) : (s.reply r).vfy = s.vfy := rfl
@[simp] theorem State.reply_saf (r : BusReply) : (s.reply r).saf = s.saf := rfl
@[simp] theorem State.reply_faults (r : BusReply) : (s.reply r).faults = s.faults := rfl
@[simp] theorem State.reply_dump (r : BusReply) : (s.reply r).dump = s.dump := rfl
@[simp] theorem State.reply_wear (r : BusReply) : (s.reply r).wear = s.wear := rfl
@[simp] theorem State.reply_flashWear (r : BusReply) : (s.reply r).flashWear = s.flashWear := rfl
@[simp] theorem State.reply_scrub (r : BusReply) : (s.reply r).scrub = s.scrub := rfl
@[simp] theorem State.reply_links (r : BusReply) : (s.reply r).links = s.links := rfl
@[simp] theorem State.reply_hedge (r : BusReply) : (s.reply r).hedge = s.hedge := rfl
@[simp] theorem State.reply_boot (r : BusReply) : (s.reply r).boot = s.boot := rfl
@[simp] theorem State.reply_images (r : BusReply) : (s.reply r).images = s.images := rfl
@[simp] theorem State.reply_modules (r : BusReply) : (s.reply r).modules = s.modules := rfl
@[simp] theorem State.reply_power (r : BusReply) : (s.reply r).power = s.power := rfl
@[simp] theorem State.reply_recorder (r : BusReply) : (s.reply r).recorder = s.recorder := rfl
@[simp] theorem State.reply_syncOut (r : BusReply) : (s.reply r).syncOut = s.syncOut := rfl
@[simp] theorem State.reply_syncOutEnd (r : BusReply) : (s.reply r).syncOutEnd = s.syncOutEnd := rfl
@[simp] theorem State.reply_store (r : BusReply) : (s.reply r).store = s.store := rfl
@[simp] theorem State.reply_psram (r : BusReply) : (s.reply r).psram = s.psram := rfl
@[simp] theorem State.reply_flash (r : BusReply) : (s.reply r).flash = s.flash := rfl

/-! ### A completed write -/

@[simp] theorem State.okBus_pending : (s.okBus).pending = s.pending := rfl
@[simp] theorem State.okBus_freeCount : (s.okBus).freeCount = s.freeCount := rfl
@[simp] theorem State.okBus_clk : (s.okBus).clk = s.clk := rfl
@[simp] theorem State.okBus_engines : (s.okBus).engines = s.engines := rfl
@[simp] theorem State.okBus_roles : (s.okBus).roles = s.roles := rfl
@[simp] theorem State.okBus_tds : (s.okBus).tds = s.tds := rfl
@[simp] theorem State.okBus_arb : (s.okBus).arb = s.arb := rfl
@[simp] theorem State.okBus_mbx : (s.okBus).mbx = s.mbx := rfl
@[simp] theorem State.okBus_sem : (s.okBus).sem = s.sem := rfl
@[simp] theorem State.okBus_portA : (s.okBus).portA = s.portA := rfl
@[simp] theorem State.okBus_portB : (s.okBus).portB = s.portB := rfl
@[simp] theorem State.okBus_sda : (s.okBus).sda = s.sda := rfl
@[simp] theorem State.okBus_sdb : (s.okBus).sdb = s.sdb := rfl
@[simp] theorem State.okBus_cn0 : (s.okBus).cn0 = s.cn0 := rfl
@[simp] theorem State.okBus_cn1 : (s.okBus).cn1 = s.cn1 := rfl
@[simp] theorem State.okBus_errField : (s.okBus).errField = s.errField := rfl
@[simp] theorem State.okBus_shadow : (s.okBus).shadow = s.shadow := rfl
@[simp] theorem State.okBus_force : (s.okBus).force = s.force := rfl
@[simp] theorem State.okBus_edgeAt : (s.okBus).edgeAt = s.edgeAt := rfl
@[simp] theorem State.okBus_edgeShadow : (s.okBus).edgeShadow = s.edgeShadow := rfl
@[simp] theorem State.okBus_world : (s.okBus).world = s.world := rfl
@[simp] theorem State.okBus_fus : (s.okBus).fus = s.fus := rfl
@[simp] theorem State.okBus_loader : (s.okBus).loader = s.loader := rfl
@[simp] theorem State.okBus_ctxs : (s.okBus).ctxs = s.ctxs := rfl
@[simp] theorem State.okBus_vfy : (s.okBus).vfy = s.vfy := rfl
@[simp] theorem State.okBus_saf : (s.okBus).saf = s.saf := rfl
@[simp] theorem State.okBus_faults : (s.okBus).faults = s.faults := rfl
@[simp] theorem State.okBus_dump : (s.okBus).dump = s.dump := rfl
@[simp] theorem State.okBus_wear : (s.okBus).wear = s.wear := rfl
@[simp] theorem State.okBus_flashWear : (s.okBus).flashWear = s.flashWear := rfl
@[simp] theorem State.okBus_scrub : (s.okBus).scrub = s.scrub := rfl
@[simp] theorem State.okBus_links : (s.okBus).links = s.links := rfl
@[simp] theorem State.okBus_hedge : (s.okBus).hedge = s.hedge := rfl
@[simp] theorem State.okBus_boot : (s.okBus).boot = s.boot := rfl
@[simp] theorem State.okBus_images : (s.okBus).images = s.images := rfl
@[simp] theorem State.okBus_modules : (s.okBus).modules = s.modules := rfl
@[simp] theorem State.okBus_power : (s.okBus).power = s.power := rfl
@[simp] theorem State.okBus_recorder : (s.okBus).recorder = s.recorder := rfl
@[simp] theorem State.okBus_syncOut : (s.okBus).syncOut = s.syncOut := rfl
@[simp] theorem State.okBus_syncOutEnd : (s.okBus).syncOutEnd = s.syncOutEnd := rfl
@[simp] theorem State.okBus_store : (s.okBus).store = s.store := rfl
@[simp] theorem State.okBus_psram : (s.okBus).psram = s.psram := rfl
@[simp] theorem State.okBus_flash : (s.okBus).flash = s.flash := rfl

/-! ### A bus error -/

@[simp] theorem State.busErr_pending : (s.busErr).pending = s.pending := rfl
@[simp] theorem State.busErr_freeCount : (s.busErr).freeCount = s.freeCount := rfl
@[simp] theorem State.busErr_clk : (s.busErr).clk = s.clk := rfl
@[simp] theorem State.busErr_engines : (s.busErr).engines = s.engines := rfl
@[simp] theorem State.busErr_roles : (s.busErr).roles = s.roles := rfl
@[simp] theorem State.busErr_tds : (s.busErr).tds = s.tds := rfl
@[simp] theorem State.busErr_arb : (s.busErr).arb = s.arb := rfl
@[simp] theorem State.busErr_mbx : (s.busErr).mbx = s.mbx := rfl
@[simp] theorem State.busErr_sem : (s.busErr).sem = s.sem := rfl
@[simp] theorem State.busErr_portA : (s.busErr).portA = s.portA := rfl
@[simp] theorem State.busErr_portB : (s.busErr).portB = s.portB := rfl
@[simp] theorem State.busErr_sda : (s.busErr).sda = s.sda := rfl
@[simp] theorem State.busErr_sdb : (s.busErr).sdb = s.sdb := rfl
@[simp] theorem State.busErr_cn0 : (s.busErr).cn0 = s.cn0 := rfl
@[simp] theorem State.busErr_cn1 : (s.busErr).cn1 = s.cn1 := rfl
@[simp] theorem State.busErr_errField : (s.busErr).errField = s.errField := rfl
@[simp] theorem State.busErr_shadow : (s.busErr).shadow = s.shadow := rfl
@[simp] theorem State.busErr_force : (s.busErr).force = s.force := rfl
@[simp] theorem State.busErr_edgeAt : (s.busErr).edgeAt = s.edgeAt := rfl
@[simp] theorem State.busErr_edgeShadow : (s.busErr).edgeShadow = s.edgeShadow := rfl
@[simp] theorem State.busErr_world : (s.busErr).world = s.world := rfl
@[simp] theorem State.busErr_fus : (s.busErr).fus = s.fus := rfl
@[simp] theorem State.busErr_loader : (s.busErr).loader = s.loader := rfl
@[simp] theorem State.busErr_ctxs : (s.busErr).ctxs = s.ctxs := rfl
@[simp] theorem State.busErr_vfy : (s.busErr).vfy = s.vfy := rfl
@[simp] theorem State.busErr_saf : (s.busErr).saf = s.saf := rfl
@[simp] theorem State.busErr_faults : (s.busErr).faults = s.faults := rfl
@[simp] theorem State.busErr_dump : (s.busErr).dump = s.dump := rfl
@[simp] theorem State.busErr_wear : (s.busErr).wear = s.wear := rfl
@[simp] theorem State.busErr_flashWear : (s.busErr).flashWear = s.flashWear := rfl
@[simp] theorem State.busErr_scrub : (s.busErr).scrub = s.scrub := rfl
@[simp] theorem State.busErr_links : (s.busErr).links = s.links := rfl
@[simp] theorem State.busErr_hedge : (s.busErr).hedge = s.hedge := rfl
@[simp] theorem State.busErr_boot : (s.busErr).boot = s.boot := rfl
@[simp] theorem State.busErr_images : (s.busErr).images = s.images := rfl
@[simp] theorem State.busErr_modules : (s.busErr).modules = s.modules := rfl
@[simp] theorem State.busErr_power : (s.busErr).power = s.power := rfl
@[simp] theorem State.busErr_recorder : (s.busErr).recorder = s.recorder := rfl
@[simp] theorem State.busErr_syncOut : (s.busErr).syncOut = s.syncOut := rfl
@[simp] theorem State.busErr_syncOutEnd : (s.busErr).syncOutEnd = s.syncOutEnd := rfl
@[simp] theorem State.busErr_store : (s.busErr).store = s.store := rfl
@[simp] theorem State.busErr_psram : (s.busErr).psram = s.psram := rfl
@[simp] theorem State.busErr_flash : (s.busErr).flash = s.flash := rfl

/-! ### A free value taken -/

@[simp] theorem State.free_pending (w : Nat) : (s.free w).2.pending = s.pending := rfl
@[simp] theorem State.free_clk (w : Nat) : (s.free w).2.clk = s.clk := rfl
@[simp] theorem State.free_bus (w : Nat) : (s.free w).2.bus = s.bus := rfl
@[simp] theorem State.free_engines (w : Nat) : (s.free w).2.engines = s.engines := rfl
@[simp] theorem State.free_roles (w : Nat) : (s.free w).2.roles = s.roles := rfl
@[simp] theorem State.free_tds (w : Nat) : (s.free w).2.tds = s.tds := rfl
@[simp] theorem State.free_arb (w : Nat) : (s.free w).2.arb = s.arb := rfl
@[simp] theorem State.free_mbx (w : Nat) : (s.free w).2.mbx = s.mbx := rfl
@[simp] theorem State.free_sem (w : Nat) : (s.free w).2.sem = s.sem := rfl
@[simp] theorem State.free_portA (w : Nat) : (s.free w).2.portA = s.portA := rfl
@[simp] theorem State.free_portB (w : Nat) : (s.free w).2.portB = s.portB := rfl
@[simp] theorem State.free_sda (w : Nat) : (s.free w).2.sda = s.sda := rfl
@[simp] theorem State.free_sdb (w : Nat) : (s.free w).2.sdb = s.sdb := rfl
@[simp] theorem State.free_cn0 (w : Nat) : (s.free w).2.cn0 = s.cn0 := rfl
@[simp] theorem State.free_cn1 (w : Nat) : (s.free w).2.cn1 = s.cn1 := rfl
@[simp] theorem State.free_errField (w : Nat) : (s.free w).2.errField = s.errField := rfl
@[simp] theorem State.free_shadow (w : Nat) : (s.free w).2.shadow = s.shadow := rfl
@[simp] theorem State.free_force (w : Nat) : (s.free w).2.force = s.force := rfl
@[simp] theorem State.free_edgeAt (w : Nat) : (s.free w).2.edgeAt = s.edgeAt := rfl
@[simp] theorem State.free_edgeShadow (w : Nat) : (s.free w).2.edgeShadow = s.edgeShadow := rfl
@[simp] theorem State.free_world (w : Nat) : (s.free w).2.world = s.world := rfl
@[simp] theorem State.free_fus (w : Nat) : (s.free w).2.fus = s.fus := rfl
@[simp] theorem State.free_loader (w : Nat) : (s.free w).2.loader = s.loader := rfl
@[simp] theorem State.free_ctxs (w : Nat) : (s.free w).2.ctxs = s.ctxs := rfl
@[simp] theorem State.free_vfy (w : Nat) : (s.free w).2.vfy = s.vfy := rfl
@[simp] theorem State.free_saf (w : Nat) : (s.free w).2.saf = s.saf := rfl
@[simp] theorem State.free_faults (w : Nat) : (s.free w).2.faults = s.faults := rfl
@[simp] theorem State.free_dump (w : Nat) : (s.free w).2.dump = s.dump := rfl
@[simp] theorem State.free_wear (w : Nat) : (s.free w).2.wear = s.wear := rfl
@[simp] theorem State.free_flashWear (w : Nat) : (s.free w).2.flashWear = s.flashWear := rfl
@[simp] theorem State.free_scrub (w : Nat) : (s.free w).2.scrub = s.scrub := rfl
@[simp] theorem State.free_links (w : Nat) : (s.free w).2.links = s.links := rfl
@[simp] theorem State.free_hedge (w : Nat) : (s.free w).2.hedge = s.hedge := rfl
@[simp] theorem State.free_boot (w : Nat) : (s.free w).2.boot = s.boot := rfl
@[simp] theorem State.free_images (w : Nat) : (s.free w).2.images = s.images := rfl
@[simp] theorem State.free_modules (w : Nat) : (s.free w).2.modules = s.modules := rfl
@[simp] theorem State.free_power (w : Nat) : (s.free w).2.power = s.power := rfl
@[simp] theorem State.free_recorder (w : Nat) : (s.free w).2.recorder = s.recorder := rfl
@[simp] theorem State.free_syncOut (w : Nat) : (s.free w).2.syncOut = s.syncOut := rfl
@[simp] theorem State.free_syncOutEnd (w : Nat) : (s.free w).2.syncOutEnd = s.syncOutEnd := rfl
@[simp] theorem State.free_store (w : Nat) : (s.free w).2.store = s.store := rfl
@[simp] theorem State.free_psram (w : Nat) : (s.free w).2.psram = s.psram := rfl
@[simp] theorem State.free_flash (w : Nat) : (s.free w).2.flash = s.flash := rfl

/-! ### A context changed -/

@[simp] theorem State.modCtx_pending (c : CtxId) (f : Ctx → Ctx) : (s.modCtx c f).pending = s.pending := rfl
@[simp] theorem State.modCtx_freeCount (c : CtxId) (f : Ctx → Ctx) : (s.modCtx c f).freeCount = s.freeCount := rfl
@[simp] theorem State.modCtx_clk (c : CtxId) (f : Ctx → Ctx) : (s.modCtx c f).clk = s.clk := rfl
@[simp] theorem State.modCtx_bus (c : CtxId) (f : Ctx → Ctx) : (s.modCtx c f).bus = s.bus := rfl
@[simp] theorem State.modCtx_engines (c : CtxId) (f : Ctx → Ctx) : (s.modCtx c f).engines = s.engines := rfl
@[simp] theorem State.modCtx_roles (c : CtxId) (f : Ctx → Ctx) : (s.modCtx c f).roles = s.roles := rfl
@[simp] theorem State.modCtx_tds (c : CtxId) (f : Ctx → Ctx) : (s.modCtx c f).tds = s.tds := rfl
@[simp] theorem State.modCtx_arb (c : CtxId) (f : Ctx → Ctx) : (s.modCtx c f).arb = s.arb := rfl
@[simp] theorem State.modCtx_mbx (c : CtxId) (f : Ctx → Ctx) : (s.modCtx c f).mbx = s.mbx := rfl
@[simp] theorem State.modCtx_sem (c : CtxId) (f : Ctx → Ctx) : (s.modCtx c f).sem = s.sem := rfl
@[simp] theorem State.modCtx_portA (c : CtxId) (f : Ctx → Ctx) : (s.modCtx c f).portA = s.portA := rfl
@[simp] theorem State.modCtx_portB (c : CtxId) (f : Ctx → Ctx) : (s.modCtx c f).portB = s.portB := rfl
@[simp] theorem State.modCtx_sda (c : CtxId) (f : Ctx → Ctx) : (s.modCtx c f).sda = s.sda := rfl
@[simp] theorem State.modCtx_sdb (c : CtxId) (f : Ctx → Ctx) : (s.modCtx c f).sdb = s.sdb := rfl
@[simp] theorem State.modCtx_cn0 (c : CtxId) (f : Ctx → Ctx) : (s.modCtx c f).cn0 = s.cn0 := rfl
@[simp] theorem State.modCtx_cn1 (c : CtxId) (f : Ctx → Ctx) : (s.modCtx c f).cn1 = s.cn1 := rfl
@[simp] theorem State.modCtx_errField (c : CtxId) (f : Ctx → Ctx) : (s.modCtx c f).errField = s.errField := rfl
@[simp] theorem State.modCtx_shadow (c : CtxId) (f : Ctx → Ctx) : (s.modCtx c f).shadow = s.shadow := rfl
@[simp] theorem State.modCtx_force (c : CtxId) (f : Ctx → Ctx) : (s.modCtx c f).force = s.force := rfl
@[simp] theorem State.modCtx_edgeAt (c : CtxId) (f : Ctx → Ctx) : (s.modCtx c f).edgeAt = s.edgeAt := rfl
@[simp] theorem State.modCtx_edgeShadow (c : CtxId) (f : Ctx → Ctx) : (s.modCtx c f).edgeShadow = s.edgeShadow := rfl
@[simp] theorem State.modCtx_world (c : CtxId) (f : Ctx → Ctx) : (s.modCtx c f).world = s.world := rfl
@[simp] theorem State.modCtx_fus (c : CtxId) (f : Ctx → Ctx) : (s.modCtx c f).fus = s.fus := rfl
@[simp] theorem State.modCtx_loader (c : CtxId) (f : Ctx → Ctx) : (s.modCtx c f).loader = s.loader := rfl
@[simp] theorem State.modCtx_vfy (c : CtxId) (f : Ctx → Ctx) : (s.modCtx c f).vfy = s.vfy := rfl
@[simp] theorem State.modCtx_saf (c : CtxId) (f : Ctx → Ctx) : (s.modCtx c f).saf = s.saf := rfl
@[simp] theorem State.modCtx_faults (c : CtxId) (f : Ctx → Ctx) : (s.modCtx c f).faults = s.faults := rfl
@[simp] theorem State.modCtx_dump (c : CtxId) (f : Ctx → Ctx) : (s.modCtx c f).dump = s.dump := rfl
@[simp] theorem State.modCtx_wear (c : CtxId) (f : Ctx → Ctx) : (s.modCtx c f).wear = s.wear := rfl
@[simp] theorem State.modCtx_flashWear (c : CtxId) (f : Ctx → Ctx) : (s.modCtx c f).flashWear = s.flashWear := rfl
@[simp] theorem State.modCtx_scrub (c : CtxId) (f : Ctx → Ctx) : (s.modCtx c f).scrub = s.scrub := rfl
@[simp] theorem State.modCtx_links (c : CtxId) (f : Ctx → Ctx) : (s.modCtx c f).links = s.links := rfl
@[simp] theorem State.modCtx_hedge (c : CtxId) (f : Ctx → Ctx) : (s.modCtx c f).hedge = s.hedge := rfl
@[simp] theorem State.modCtx_boot (c : CtxId) (f : Ctx → Ctx) : (s.modCtx c f).boot = s.boot := rfl
@[simp] theorem State.modCtx_images (c : CtxId) (f : Ctx → Ctx) : (s.modCtx c f).images = s.images := rfl
@[simp] theorem State.modCtx_modules (c : CtxId) (f : Ctx → Ctx) : (s.modCtx c f).modules = s.modules := rfl
@[simp] theorem State.modCtx_power (c : CtxId) (f : Ctx → Ctx) : (s.modCtx c f).power = s.power := rfl
@[simp] theorem State.modCtx_recorder (c : CtxId) (f : Ctx → Ctx) : (s.modCtx c f).recorder = s.recorder := rfl
@[simp] theorem State.modCtx_syncOut (c : CtxId) (f : Ctx → Ctx) : (s.modCtx c f).syncOut = s.syncOut := rfl
@[simp] theorem State.modCtx_syncOutEnd (c : CtxId) (f : Ctx → Ctx) : (s.modCtx c f).syncOutEnd = s.syncOutEnd := rfl
@[simp] theorem State.modCtx_store (c : CtxId) (f : Ctx → Ctx) : (s.modCtx c f).store = s.store := rfl
@[simp] theorem State.modCtx_psram (c : CtxId) (f : Ctx → Ctx) : (s.modCtx c f).psram = s.psram := rfl
@[simp] theorem State.modCtx_flash (c : CtxId) (f : Ctx → Ctx) : (s.modCtx c f).flash = s.flash := rfl

/-! ### The counters of a context changed -/

@[simp] theorem State.modCnt_pending (c : CtxId) (f : Counters → Counters) : (s.modCnt c f).pending = s.pending := rfl
@[simp] theorem State.modCnt_freeCount (c : CtxId) (f : Counters → Counters) : (s.modCnt c f).freeCount = s.freeCount := rfl
@[simp] theorem State.modCnt_clk (c : CtxId) (f : Counters → Counters) : (s.modCnt c f).clk = s.clk := rfl
@[simp] theorem State.modCnt_bus (c : CtxId) (f : Counters → Counters) : (s.modCnt c f).bus = s.bus := rfl
@[simp] theorem State.modCnt_engines (c : CtxId) (f : Counters → Counters) : (s.modCnt c f).engines = s.engines := rfl
@[simp] theorem State.modCnt_roles (c : CtxId) (f : Counters → Counters) : (s.modCnt c f).roles = s.roles := rfl
@[simp] theorem State.modCnt_tds (c : CtxId) (f : Counters → Counters) : (s.modCnt c f).tds = s.tds := rfl
@[simp] theorem State.modCnt_arb (c : CtxId) (f : Counters → Counters) : (s.modCnt c f).arb = s.arb := rfl
@[simp] theorem State.modCnt_mbx (c : CtxId) (f : Counters → Counters) : (s.modCnt c f).mbx = s.mbx := rfl
@[simp] theorem State.modCnt_sem (c : CtxId) (f : Counters → Counters) : (s.modCnt c f).sem = s.sem := rfl
@[simp] theorem State.modCnt_portA (c : CtxId) (f : Counters → Counters) : (s.modCnt c f).portA = s.portA := rfl
@[simp] theorem State.modCnt_portB (c : CtxId) (f : Counters → Counters) : (s.modCnt c f).portB = s.portB := rfl
@[simp] theorem State.modCnt_sda (c : CtxId) (f : Counters → Counters) : (s.modCnt c f).sda = s.sda := rfl
@[simp] theorem State.modCnt_sdb (c : CtxId) (f : Counters → Counters) : (s.modCnt c f).sdb = s.sdb := rfl
@[simp] theorem State.modCnt_cn0 (c : CtxId) (f : Counters → Counters) : (s.modCnt c f).cn0 = s.cn0 := rfl
@[simp] theorem State.modCnt_cn1 (c : CtxId) (f : Counters → Counters) : (s.modCnt c f).cn1 = s.cn1 := rfl
@[simp] theorem State.modCnt_errField (c : CtxId) (f : Counters → Counters) : (s.modCnt c f).errField = s.errField := rfl
@[simp] theorem State.modCnt_shadow (c : CtxId) (f : Counters → Counters) : (s.modCnt c f).shadow = s.shadow := rfl
@[simp] theorem State.modCnt_force (c : CtxId) (f : Counters → Counters) : (s.modCnt c f).force = s.force := rfl
@[simp] theorem State.modCnt_edgeAt (c : CtxId) (f : Counters → Counters) : (s.modCnt c f).edgeAt = s.edgeAt := rfl
@[simp] theorem State.modCnt_edgeShadow (c : CtxId) (f : Counters → Counters) : (s.modCnt c f).edgeShadow = s.edgeShadow := rfl
@[simp] theorem State.modCnt_world (c : CtxId) (f : Counters → Counters) : (s.modCnt c f).world = s.world := rfl
@[simp] theorem State.modCnt_fus (c : CtxId) (f : Counters → Counters) : (s.modCnt c f).fus = s.fus := rfl
@[simp] theorem State.modCnt_loader (c : CtxId) (f : Counters → Counters) : (s.modCnt c f).loader = s.loader := rfl
@[simp] theorem State.modCnt_vfy (c : CtxId) (f : Counters → Counters) : (s.modCnt c f).vfy = s.vfy := rfl
@[simp] theorem State.modCnt_saf (c : CtxId) (f : Counters → Counters) : (s.modCnt c f).saf = s.saf := rfl
@[simp] theorem State.modCnt_faults (c : CtxId) (f : Counters → Counters) : (s.modCnt c f).faults = s.faults := rfl
@[simp] theorem State.modCnt_dump (c : CtxId) (f : Counters → Counters) : (s.modCnt c f).dump = s.dump := rfl
@[simp] theorem State.modCnt_wear (c : CtxId) (f : Counters → Counters) : (s.modCnt c f).wear = s.wear := rfl
@[simp] theorem State.modCnt_flashWear (c : CtxId) (f : Counters → Counters) : (s.modCnt c f).flashWear = s.flashWear := rfl
@[simp] theorem State.modCnt_scrub (c : CtxId) (f : Counters → Counters) : (s.modCnt c f).scrub = s.scrub := rfl
@[simp] theorem State.modCnt_links (c : CtxId) (f : Counters → Counters) : (s.modCnt c f).links = s.links := rfl
@[simp] theorem State.modCnt_hedge (c : CtxId) (f : Counters → Counters) : (s.modCnt c f).hedge = s.hedge := rfl
@[simp] theorem State.modCnt_boot (c : CtxId) (f : Counters → Counters) : (s.modCnt c f).boot = s.boot := rfl
@[simp] theorem State.modCnt_images (c : CtxId) (f : Counters → Counters) : (s.modCnt c f).images = s.images := rfl
@[simp] theorem State.modCnt_modules (c : CtxId) (f : Counters → Counters) : (s.modCnt c f).modules = s.modules := rfl
@[simp] theorem State.modCnt_power (c : CtxId) (f : Counters → Counters) : (s.modCnt c f).power = s.power := rfl
@[simp] theorem State.modCnt_recorder (c : CtxId) (f : Counters → Counters) : (s.modCnt c f).recorder = s.recorder := rfl
@[simp] theorem State.modCnt_syncOut (c : CtxId) (f : Counters → Counters) : (s.modCnt c f).syncOut = s.syncOut := rfl
@[simp] theorem State.modCnt_syncOutEnd (c : CtxId) (f : Counters → Counters) : (s.modCnt c f).syncOutEnd = s.syncOutEnd := rfl
@[simp] theorem State.modCnt_store (c : CtxId) (f : Counters → Counters) : (s.modCnt c f).store = s.store := rfl
@[simp] theorem State.modCnt_psram (c : CtxId) (f : Counters → Counters) : (s.modCnt c f).psram = s.psram := rfl
@[simp] theorem State.modCnt_flash (c : CtxId) (f : Counters → Counters) : (s.modCnt c f).flash = s.flash := rfl

/-! ### The roadmap of a context changed -/

@[simp] theorem State.modRm_pending (c : CtxId) (f : Roadmap → Roadmap) : (s.modRm c f).pending = s.pending := rfl
@[simp] theorem State.modRm_freeCount (c : CtxId) (f : Roadmap → Roadmap) : (s.modRm c f).freeCount = s.freeCount := rfl
@[simp] theorem State.modRm_clk (c : CtxId) (f : Roadmap → Roadmap) : (s.modRm c f).clk = s.clk := rfl
@[simp] theorem State.modRm_bus (c : CtxId) (f : Roadmap → Roadmap) : (s.modRm c f).bus = s.bus := rfl
@[simp] theorem State.modRm_engines (c : CtxId) (f : Roadmap → Roadmap) : (s.modRm c f).engines = s.engines := rfl
@[simp] theorem State.modRm_roles (c : CtxId) (f : Roadmap → Roadmap) : (s.modRm c f).roles = s.roles := rfl
@[simp] theorem State.modRm_tds (c : CtxId) (f : Roadmap → Roadmap) : (s.modRm c f).tds = s.tds := rfl
@[simp] theorem State.modRm_arb (c : CtxId) (f : Roadmap → Roadmap) : (s.modRm c f).arb = s.arb := rfl
@[simp] theorem State.modRm_mbx (c : CtxId) (f : Roadmap → Roadmap) : (s.modRm c f).mbx = s.mbx := rfl
@[simp] theorem State.modRm_sem (c : CtxId) (f : Roadmap → Roadmap) : (s.modRm c f).sem = s.sem := rfl
@[simp] theorem State.modRm_portA (c : CtxId) (f : Roadmap → Roadmap) : (s.modRm c f).portA = s.portA := rfl
@[simp] theorem State.modRm_portB (c : CtxId) (f : Roadmap → Roadmap) : (s.modRm c f).portB = s.portB := rfl
@[simp] theorem State.modRm_sda (c : CtxId) (f : Roadmap → Roadmap) : (s.modRm c f).sda = s.sda := rfl
@[simp] theorem State.modRm_sdb (c : CtxId) (f : Roadmap → Roadmap) : (s.modRm c f).sdb = s.sdb := rfl
@[simp] theorem State.modRm_cn0 (c : CtxId) (f : Roadmap → Roadmap) : (s.modRm c f).cn0 = s.cn0 := rfl
@[simp] theorem State.modRm_cn1 (c : CtxId) (f : Roadmap → Roadmap) : (s.modRm c f).cn1 = s.cn1 := rfl
@[simp] theorem State.modRm_errField (c : CtxId) (f : Roadmap → Roadmap) : (s.modRm c f).errField = s.errField := rfl
@[simp] theorem State.modRm_shadow (c : CtxId) (f : Roadmap → Roadmap) : (s.modRm c f).shadow = s.shadow := rfl
@[simp] theorem State.modRm_force (c : CtxId) (f : Roadmap → Roadmap) : (s.modRm c f).force = s.force := rfl
@[simp] theorem State.modRm_edgeAt (c : CtxId) (f : Roadmap → Roadmap) : (s.modRm c f).edgeAt = s.edgeAt := rfl
@[simp] theorem State.modRm_edgeShadow (c : CtxId) (f : Roadmap → Roadmap) : (s.modRm c f).edgeShadow = s.edgeShadow := rfl
@[simp] theorem State.modRm_world (c : CtxId) (f : Roadmap → Roadmap) : (s.modRm c f).world = s.world := rfl
@[simp] theorem State.modRm_fus (c : CtxId) (f : Roadmap → Roadmap) : (s.modRm c f).fus = s.fus := rfl
@[simp] theorem State.modRm_loader (c : CtxId) (f : Roadmap → Roadmap) : (s.modRm c f).loader = s.loader := rfl
@[simp] theorem State.modRm_vfy (c : CtxId) (f : Roadmap → Roadmap) : (s.modRm c f).vfy = s.vfy := rfl
@[simp] theorem State.modRm_saf (c : CtxId) (f : Roadmap → Roadmap) : (s.modRm c f).saf = s.saf := rfl
@[simp] theorem State.modRm_faults (c : CtxId) (f : Roadmap → Roadmap) : (s.modRm c f).faults = s.faults := rfl
@[simp] theorem State.modRm_dump (c : CtxId) (f : Roadmap → Roadmap) : (s.modRm c f).dump = s.dump := rfl
@[simp] theorem State.modRm_wear (c : CtxId) (f : Roadmap → Roadmap) : (s.modRm c f).wear = s.wear := rfl
@[simp] theorem State.modRm_flashWear (c : CtxId) (f : Roadmap → Roadmap) : (s.modRm c f).flashWear = s.flashWear := rfl
@[simp] theorem State.modRm_scrub (c : CtxId) (f : Roadmap → Roadmap) : (s.modRm c f).scrub = s.scrub := rfl
@[simp] theorem State.modRm_links (c : CtxId) (f : Roadmap → Roadmap) : (s.modRm c f).links = s.links := rfl
@[simp] theorem State.modRm_hedge (c : CtxId) (f : Roadmap → Roadmap) : (s.modRm c f).hedge = s.hedge := rfl
@[simp] theorem State.modRm_boot (c : CtxId) (f : Roadmap → Roadmap) : (s.modRm c f).boot = s.boot := rfl
@[simp] theorem State.modRm_images (c : CtxId) (f : Roadmap → Roadmap) : (s.modRm c f).images = s.images := rfl
@[simp] theorem State.modRm_modules (c : CtxId) (f : Roadmap → Roadmap) : (s.modRm c f).modules = s.modules := rfl
@[simp] theorem State.modRm_power (c : CtxId) (f : Roadmap → Roadmap) : (s.modRm c f).power = s.power := rfl
@[simp] theorem State.modRm_recorder (c : CtxId) (f : Roadmap → Roadmap) : (s.modRm c f).recorder = s.recorder := rfl
@[simp] theorem State.modRm_syncOut (c : CtxId) (f : Roadmap → Roadmap) : (s.modRm c f).syncOut = s.syncOut := rfl
@[simp] theorem State.modRm_syncOutEnd (c : CtxId) (f : Roadmap → Roadmap) : (s.modRm c f).syncOutEnd = s.syncOutEnd := rfl
@[simp] theorem State.modRm_store (c : CtxId) (f : Roadmap → Roadmap) : (s.modRm c f).store = s.store := rfl
@[simp] theorem State.modRm_psram (c : CtxId) (f : Roadmap → Roadmap) : (s.modRm c f).psram = s.psram := rfl
@[simp] theorem State.modRm_flash (c : CtxId) (f : Roadmap → Roadmap) : (s.modRm c f).flash = s.flash := rfl

/-! ### The frame in progress of a context changed -/

@[simp] theorem State.modRun_pending (c : CtxId) (f : FrameRun → FrameRun) : (s.modRun c f).pending = s.pending := rfl
@[simp] theorem State.modRun_freeCount (c : CtxId) (f : FrameRun → FrameRun) : (s.modRun c f).freeCount = s.freeCount := rfl
@[simp] theorem State.modRun_clk (c : CtxId) (f : FrameRun → FrameRun) : (s.modRun c f).clk = s.clk := rfl
@[simp] theorem State.modRun_bus (c : CtxId) (f : FrameRun → FrameRun) : (s.modRun c f).bus = s.bus := rfl
@[simp] theorem State.modRun_engines (c : CtxId) (f : FrameRun → FrameRun) : (s.modRun c f).engines = s.engines := rfl
@[simp] theorem State.modRun_roles (c : CtxId) (f : FrameRun → FrameRun) : (s.modRun c f).roles = s.roles := rfl
@[simp] theorem State.modRun_tds (c : CtxId) (f : FrameRun → FrameRun) : (s.modRun c f).tds = s.tds := rfl
@[simp] theorem State.modRun_arb (c : CtxId) (f : FrameRun → FrameRun) : (s.modRun c f).arb = s.arb := rfl
@[simp] theorem State.modRun_mbx (c : CtxId) (f : FrameRun → FrameRun) : (s.modRun c f).mbx = s.mbx := rfl
@[simp] theorem State.modRun_sem (c : CtxId) (f : FrameRun → FrameRun) : (s.modRun c f).sem = s.sem := rfl
@[simp] theorem State.modRun_portA (c : CtxId) (f : FrameRun → FrameRun) : (s.modRun c f).portA = s.portA := rfl
@[simp] theorem State.modRun_portB (c : CtxId) (f : FrameRun → FrameRun) : (s.modRun c f).portB = s.portB := rfl
@[simp] theorem State.modRun_sda (c : CtxId) (f : FrameRun → FrameRun) : (s.modRun c f).sda = s.sda := rfl
@[simp] theorem State.modRun_sdb (c : CtxId) (f : FrameRun → FrameRun) : (s.modRun c f).sdb = s.sdb := rfl
@[simp] theorem State.modRun_cn0 (c : CtxId) (f : FrameRun → FrameRun) : (s.modRun c f).cn0 = s.cn0 := rfl
@[simp] theorem State.modRun_cn1 (c : CtxId) (f : FrameRun → FrameRun) : (s.modRun c f).cn1 = s.cn1 := rfl
@[simp] theorem State.modRun_errField (c : CtxId) (f : FrameRun → FrameRun) : (s.modRun c f).errField = s.errField := rfl
@[simp] theorem State.modRun_shadow (c : CtxId) (f : FrameRun → FrameRun) : (s.modRun c f).shadow = s.shadow := rfl
@[simp] theorem State.modRun_force (c : CtxId) (f : FrameRun → FrameRun) : (s.modRun c f).force = s.force := rfl
@[simp] theorem State.modRun_edgeAt (c : CtxId) (f : FrameRun → FrameRun) : (s.modRun c f).edgeAt = s.edgeAt := rfl
@[simp] theorem State.modRun_edgeShadow (c : CtxId) (f : FrameRun → FrameRun) : (s.modRun c f).edgeShadow = s.edgeShadow := rfl
@[simp] theorem State.modRun_world (c : CtxId) (f : FrameRun → FrameRun) : (s.modRun c f).world = s.world := rfl
@[simp] theorem State.modRun_fus (c : CtxId) (f : FrameRun → FrameRun) : (s.modRun c f).fus = s.fus := rfl
@[simp] theorem State.modRun_loader (c : CtxId) (f : FrameRun → FrameRun) : (s.modRun c f).loader = s.loader := rfl
@[simp] theorem State.modRun_vfy (c : CtxId) (f : FrameRun → FrameRun) : (s.modRun c f).vfy = s.vfy := rfl
@[simp] theorem State.modRun_saf (c : CtxId) (f : FrameRun → FrameRun) : (s.modRun c f).saf = s.saf := rfl
@[simp] theorem State.modRun_faults (c : CtxId) (f : FrameRun → FrameRun) : (s.modRun c f).faults = s.faults := rfl
@[simp] theorem State.modRun_dump (c : CtxId) (f : FrameRun → FrameRun) : (s.modRun c f).dump = s.dump := rfl
@[simp] theorem State.modRun_wear (c : CtxId) (f : FrameRun → FrameRun) : (s.modRun c f).wear = s.wear := rfl
@[simp] theorem State.modRun_flashWear (c : CtxId) (f : FrameRun → FrameRun) : (s.modRun c f).flashWear = s.flashWear := rfl
@[simp] theorem State.modRun_scrub (c : CtxId) (f : FrameRun → FrameRun) : (s.modRun c f).scrub = s.scrub := rfl
@[simp] theorem State.modRun_links (c : CtxId) (f : FrameRun → FrameRun) : (s.modRun c f).links = s.links := rfl
@[simp] theorem State.modRun_hedge (c : CtxId) (f : FrameRun → FrameRun) : (s.modRun c f).hedge = s.hedge := rfl
@[simp] theorem State.modRun_boot (c : CtxId) (f : FrameRun → FrameRun) : (s.modRun c f).boot = s.boot := rfl
@[simp] theorem State.modRun_images (c : CtxId) (f : FrameRun → FrameRun) : (s.modRun c f).images = s.images := rfl
@[simp] theorem State.modRun_modules (c : CtxId) (f : FrameRun → FrameRun) : (s.modRun c f).modules = s.modules := rfl
@[simp] theorem State.modRun_power (c : CtxId) (f : FrameRun → FrameRun) : (s.modRun c f).power = s.power := rfl
@[simp] theorem State.modRun_recorder (c : CtxId) (f : FrameRun → FrameRun) : (s.modRun c f).recorder = s.recorder := rfl
@[simp] theorem State.modRun_syncOut (c : CtxId) (f : FrameRun → FrameRun) : (s.modRun c f).syncOut = s.syncOut := rfl
@[simp] theorem State.modRun_syncOutEnd (c : CtxId) (f : FrameRun → FrameRun) : (s.modRun c f).syncOutEnd = s.syncOutEnd := rfl
@[simp] theorem State.modRun_store (c : CtxId) (f : FrameRun → FrameRun) : (s.modRun c f).store = s.store := rfl
@[simp] theorem State.modRun_psram (c : CtxId) (f : FrameRun → FrameRun) : (s.modRun c f).psram = s.psram := rfl
@[simp] theorem State.modRun_flash (c : CtxId) (f : FrameRun → FrameRun) : (s.modRun c f).flash = s.flash := rfl

/-! ### An engine changed -/

@[simp] theorem State.modEng_pending (n : EngId) (f : Engine → Engine) : (s.modEng n f).pending = s.pending := rfl
@[simp] theorem State.modEng_freeCount (n : EngId) (f : Engine → Engine) : (s.modEng n f).freeCount = s.freeCount := rfl
@[simp] theorem State.modEng_clk (n : EngId) (f : Engine → Engine) : (s.modEng n f).clk = s.clk := rfl
@[simp] theorem State.modEng_bus (n : EngId) (f : Engine → Engine) : (s.modEng n f).bus = s.bus := rfl
@[simp] theorem State.modEng_roles (n : EngId) (f : Engine → Engine) : (s.modEng n f).roles = s.roles := rfl
@[simp] theorem State.modEng_tds (n : EngId) (f : Engine → Engine) : (s.modEng n f).tds = s.tds := rfl
@[simp] theorem State.modEng_arb (n : EngId) (f : Engine → Engine) : (s.modEng n f).arb = s.arb := rfl
@[simp] theorem State.modEng_mbx (n : EngId) (f : Engine → Engine) : (s.modEng n f).mbx = s.mbx := rfl
@[simp] theorem State.modEng_sem (n : EngId) (f : Engine → Engine) : (s.modEng n f).sem = s.sem := rfl
@[simp] theorem State.modEng_portA (n : EngId) (f : Engine → Engine) : (s.modEng n f).portA = s.portA := rfl
@[simp] theorem State.modEng_portB (n : EngId) (f : Engine → Engine) : (s.modEng n f).portB = s.portB := rfl
@[simp] theorem State.modEng_sda (n : EngId) (f : Engine → Engine) : (s.modEng n f).sda = s.sda := rfl
@[simp] theorem State.modEng_sdb (n : EngId) (f : Engine → Engine) : (s.modEng n f).sdb = s.sdb := rfl
@[simp] theorem State.modEng_cn0 (n : EngId) (f : Engine → Engine) : (s.modEng n f).cn0 = s.cn0 := rfl
@[simp] theorem State.modEng_cn1 (n : EngId) (f : Engine → Engine) : (s.modEng n f).cn1 = s.cn1 := rfl
@[simp] theorem State.modEng_errField (n : EngId) (f : Engine → Engine) : (s.modEng n f).errField = s.errField := rfl
@[simp] theorem State.modEng_shadow (n : EngId) (f : Engine → Engine) : (s.modEng n f).shadow = s.shadow := rfl
@[simp] theorem State.modEng_force (n : EngId) (f : Engine → Engine) : (s.modEng n f).force = s.force := rfl
@[simp] theorem State.modEng_edgeAt (n : EngId) (f : Engine → Engine) : (s.modEng n f).edgeAt = s.edgeAt := rfl
@[simp] theorem State.modEng_edgeShadow (n : EngId) (f : Engine → Engine) : (s.modEng n f).edgeShadow = s.edgeShadow := rfl
@[simp] theorem State.modEng_world (n : EngId) (f : Engine → Engine) : (s.modEng n f).world = s.world := rfl
@[simp] theorem State.modEng_fus (n : EngId) (f : Engine → Engine) : (s.modEng n f).fus = s.fus := rfl
@[simp] theorem State.modEng_loader (n : EngId) (f : Engine → Engine) : (s.modEng n f).loader = s.loader := rfl
@[simp] theorem State.modEng_ctxs (n : EngId) (f : Engine → Engine) : (s.modEng n f).ctxs = s.ctxs := rfl
@[simp] theorem State.modEng_vfy (n : EngId) (f : Engine → Engine) : (s.modEng n f).vfy = s.vfy := rfl
@[simp] theorem State.modEng_saf (n : EngId) (f : Engine → Engine) : (s.modEng n f).saf = s.saf := rfl
@[simp] theorem State.modEng_faults (n : EngId) (f : Engine → Engine) : (s.modEng n f).faults = s.faults := rfl
@[simp] theorem State.modEng_dump (n : EngId) (f : Engine → Engine) : (s.modEng n f).dump = s.dump := rfl
@[simp] theorem State.modEng_wear (n : EngId) (f : Engine → Engine) : (s.modEng n f).wear = s.wear := rfl
@[simp] theorem State.modEng_flashWear (n : EngId) (f : Engine → Engine) : (s.modEng n f).flashWear = s.flashWear := rfl
@[simp] theorem State.modEng_scrub (n : EngId) (f : Engine → Engine) : (s.modEng n f).scrub = s.scrub := rfl
@[simp] theorem State.modEng_links (n : EngId) (f : Engine → Engine) : (s.modEng n f).links = s.links := rfl
@[simp] theorem State.modEng_hedge (n : EngId) (f : Engine → Engine) : (s.modEng n f).hedge = s.hedge := rfl
@[simp] theorem State.modEng_boot (n : EngId) (f : Engine → Engine) : (s.modEng n f).boot = s.boot := rfl
@[simp] theorem State.modEng_images (n : EngId) (f : Engine → Engine) : (s.modEng n f).images = s.images := rfl
@[simp] theorem State.modEng_modules (n : EngId) (f : Engine → Engine) : (s.modEng n f).modules = s.modules := rfl
@[simp] theorem State.modEng_power (n : EngId) (f : Engine → Engine) : (s.modEng n f).power = s.power := rfl
@[simp] theorem State.modEng_recorder (n : EngId) (f : Engine → Engine) : (s.modEng n f).recorder = s.recorder := rfl
@[simp] theorem State.modEng_syncOut (n : EngId) (f : Engine → Engine) : (s.modEng n f).syncOut = s.syncOut := rfl
@[simp] theorem State.modEng_syncOutEnd (n : EngId) (f : Engine → Engine) : (s.modEng n f).syncOutEnd = s.syncOutEnd := rfl
@[simp] theorem State.modEng_store (n : EngId) (f : Engine → Engine) : (s.modEng n f).store = s.store := rfl
@[simp] theorem State.modEng_psram (n : EngId) (f : Engine → Engine) : (s.modEng n f).psram = s.psram := rfl
@[simp] theorem State.modEng_flash (n : EngId) (f : Engine → Engine) : (s.modEng n f).flash = s.flash := rfl

/-! ### A link port changed -/

@[simp] theorem State.modLink_pending (l : LinkId) (f : LinkPort → LinkPort) : (s.modLink l f).pending = s.pending := rfl
@[simp] theorem State.modLink_freeCount (l : LinkId) (f : LinkPort → LinkPort) : (s.modLink l f).freeCount = s.freeCount := rfl
@[simp] theorem State.modLink_clk (l : LinkId) (f : LinkPort → LinkPort) : (s.modLink l f).clk = s.clk := rfl
@[simp] theorem State.modLink_bus (l : LinkId) (f : LinkPort → LinkPort) : (s.modLink l f).bus = s.bus := rfl
@[simp] theorem State.modLink_engines (l : LinkId) (f : LinkPort → LinkPort) : (s.modLink l f).engines = s.engines := rfl
@[simp] theorem State.modLink_roles (l : LinkId) (f : LinkPort → LinkPort) : (s.modLink l f).roles = s.roles := rfl
@[simp] theorem State.modLink_tds (l : LinkId) (f : LinkPort → LinkPort) : (s.modLink l f).tds = s.tds := rfl
@[simp] theorem State.modLink_arb (l : LinkId) (f : LinkPort → LinkPort) : (s.modLink l f).arb = s.arb := rfl
@[simp] theorem State.modLink_mbx (l : LinkId) (f : LinkPort → LinkPort) : (s.modLink l f).mbx = s.mbx := rfl
@[simp] theorem State.modLink_sem (l : LinkId) (f : LinkPort → LinkPort) : (s.modLink l f).sem = s.sem := rfl
@[simp] theorem State.modLink_portA (l : LinkId) (f : LinkPort → LinkPort) : (s.modLink l f).portA = s.portA := rfl
@[simp] theorem State.modLink_portB (l : LinkId) (f : LinkPort → LinkPort) : (s.modLink l f).portB = s.portB := rfl
@[simp] theorem State.modLink_sda (l : LinkId) (f : LinkPort → LinkPort) : (s.modLink l f).sda = s.sda := rfl
@[simp] theorem State.modLink_sdb (l : LinkId) (f : LinkPort → LinkPort) : (s.modLink l f).sdb = s.sdb := rfl
@[simp] theorem State.modLink_cn0 (l : LinkId) (f : LinkPort → LinkPort) : (s.modLink l f).cn0 = s.cn0 := rfl
@[simp] theorem State.modLink_cn1 (l : LinkId) (f : LinkPort → LinkPort) : (s.modLink l f).cn1 = s.cn1 := rfl
@[simp] theorem State.modLink_errField (l : LinkId) (f : LinkPort → LinkPort) : (s.modLink l f).errField = s.errField := rfl
@[simp] theorem State.modLink_shadow (l : LinkId) (f : LinkPort → LinkPort) : (s.modLink l f).shadow = s.shadow := rfl
@[simp] theorem State.modLink_force (l : LinkId) (f : LinkPort → LinkPort) : (s.modLink l f).force = s.force := rfl
@[simp] theorem State.modLink_edgeAt (l : LinkId) (f : LinkPort → LinkPort) : (s.modLink l f).edgeAt = s.edgeAt := rfl
@[simp] theorem State.modLink_edgeShadow (l : LinkId) (f : LinkPort → LinkPort) : (s.modLink l f).edgeShadow = s.edgeShadow := rfl
@[simp] theorem State.modLink_world (l : LinkId) (f : LinkPort → LinkPort) : (s.modLink l f).world = s.world := rfl
@[simp] theorem State.modLink_fus (l : LinkId) (f : LinkPort → LinkPort) : (s.modLink l f).fus = s.fus := rfl
@[simp] theorem State.modLink_loader (l : LinkId) (f : LinkPort → LinkPort) : (s.modLink l f).loader = s.loader := rfl
@[simp] theorem State.modLink_ctxs (l : LinkId) (f : LinkPort → LinkPort) : (s.modLink l f).ctxs = s.ctxs := rfl
@[simp] theorem State.modLink_vfy (l : LinkId) (f : LinkPort → LinkPort) : (s.modLink l f).vfy = s.vfy := rfl
@[simp] theorem State.modLink_saf (l : LinkId) (f : LinkPort → LinkPort) : (s.modLink l f).saf = s.saf := rfl
@[simp] theorem State.modLink_faults (l : LinkId) (f : LinkPort → LinkPort) : (s.modLink l f).faults = s.faults := rfl
@[simp] theorem State.modLink_dump (l : LinkId) (f : LinkPort → LinkPort) : (s.modLink l f).dump = s.dump := rfl
@[simp] theorem State.modLink_wear (l : LinkId) (f : LinkPort → LinkPort) : (s.modLink l f).wear = s.wear := rfl
@[simp] theorem State.modLink_flashWear (l : LinkId) (f : LinkPort → LinkPort) : (s.modLink l f).flashWear = s.flashWear := rfl
@[simp] theorem State.modLink_scrub (l : LinkId) (f : LinkPort → LinkPort) : (s.modLink l f).scrub = s.scrub := rfl
@[simp] theorem State.modLink_hedge (l : LinkId) (f : LinkPort → LinkPort) : (s.modLink l f).hedge = s.hedge := rfl
@[simp] theorem State.modLink_boot (l : LinkId) (f : LinkPort → LinkPort) : (s.modLink l f).boot = s.boot := rfl
@[simp] theorem State.modLink_images (l : LinkId) (f : LinkPort → LinkPort) : (s.modLink l f).images = s.images := rfl
@[simp] theorem State.modLink_modules (l : LinkId) (f : LinkPort → LinkPort) : (s.modLink l f).modules = s.modules := rfl
@[simp] theorem State.modLink_power (l : LinkId) (f : LinkPort → LinkPort) : (s.modLink l f).power = s.power := rfl
@[simp] theorem State.modLink_recorder (l : LinkId) (f : LinkPort → LinkPort) : (s.modLink l f).recorder = s.recorder := rfl
@[simp] theorem State.modLink_syncOut (l : LinkId) (f : LinkPort → LinkPort) : (s.modLink l f).syncOut = s.syncOut := rfl
@[simp] theorem State.modLink_syncOutEnd (l : LinkId) (f : LinkPort → LinkPort) : (s.modLink l f).syncOutEnd = s.syncOutEnd := rfl
@[simp] theorem State.modLink_store (l : LinkId) (f : LinkPort → LinkPort) : (s.modLink l f).store = s.store := rfl
@[simp] theorem State.modLink_psram (l : LinkId) (f : LinkPort → LinkPort) : (s.modLink l f).psram = s.psram := rfl
@[simp] theorem State.modLink_flash (l : LinkId) (f : LinkPort → LinkPort) : (s.modLink l f).flash = s.flash := rfl

/-! ### A port changed -/

@[simp] theorem State.modPort_pending (p : Port) (f : PortSt → PortSt) : (s.modPort p f).pending = s.pending := by cases p <;> rfl
@[simp] theorem State.modPort_freeCount (p : Port) (f : PortSt → PortSt) : (s.modPort p f).freeCount = s.freeCount := by cases p <;> rfl
@[simp] theorem State.modPort_clk (p : Port) (f : PortSt → PortSt) : (s.modPort p f).clk = s.clk := by cases p <;> rfl
@[simp] theorem State.modPort_bus (p : Port) (f : PortSt → PortSt) : (s.modPort p f).bus = s.bus := by cases p <;> rfl
@[simp] theorem State.modPort_engines (p : Port) (f : PortSt → PortSt) : (s.modPort p f).engines = s.engines := by cases p <;> rfl
@[simp] theorem State.modPort_roles (p : Port) (f : PortSt → PortSt) : (s.modPort p f).roles = s.roles := by cases p <;> rfl
@[simp] theorem State.modPort_tds (p : Port) (f : PortSt → PortSt) : (s.modPort p f).tds = s.tds := by cases p <;> rfl
@[simp] theorem State.modPort_arb (p : Port) (f : PortSt → PortSt) : (s.modPort p f).arb = s.arb := by cases p <;> rfl
@[simp] theorem State.modPort_mbx (p : Port) (f : PortSt → PortSt) : (s.modPort p f).mbx = s.mbx := by cases p <;> rfl
@[simp] theorem State.modPort_sem (p : Port) (f : PortSt → PortSt) : (s.modPort p f).sem = s.sem := by cases p <;> rfl
@[simp] theorem State.modPort_sda (p : Port) (f : PortSt → PortSt) : (s.modPort p f).sda = s.sda := by cases p <;> rfl
@[simp] theorem State.modPort_sdb (p : Port) (f : PortSt → PortSt) : (s.modPort p f).sdb = s.sdb := by cases p <;> rfl
@[simp] theorem State.modPort_cn0 (p : Port) (f : PortSt → PortSt) : (s.modPort p f).cn0 = s.cn0 := by cases p <;> rfl
@[simp] theorem State.modPort_cn1 (p : Port) (f : PortSt → PortSt) : (s.modPort p f).cn1 = s.cn1 := by cases p <;> rfl
@[simp] theorem State.modPort_errField (p : Port) (f : PortSt → PortSt) : (s.modPort p f).errField = s.errField := by cases p <;> rfl
@[simp] theorem State.modPort_shadow (p : Port) (f : PortSt → PortSt) : (s.modPort p f).shadow = s.shadow := by cases p <;> rfl
@[simp] theorem State.modPort_force (p : Port) (f : PortSt → PortSt) : (s.modPort p f).force = s.force := by cases p <;> rfl
@[simp] theorem State.modPort_edgeAt (p : Port) (f : PortSt → PortSt) : (s.modPort p f).edgeAt = s.edgeAt := by cases p <;> rfl
@[simp] theorem State.modPort_edgeShadow (p : Port) (f : PortSt → PortSt) : (s.modPort p f).edgeShadow = s.edgeShadow := by cases p <;> rfl
@[simp] theorem State.modPort_world (p : Port) (f : PortSt → PortSt) : (s.modPort p f).world = s.world := by cases p <;> rfl
@[simp] theorem State.modPort_fus (p : Port) (f : PortSt → PortSt) : (s.modPort p f).fus = s.fus := by cases p <;> rfl
@[simp] theorem State.modPort_loader (p : Port) (f : PortSt → PortSt) : (s.modPort p f).loader = s.loader := by cases p <;> rfl
@[simp] theorem State.modPort_ctxs (p : Port) (f : PortSt → PortSt) : (s.modPort p f).ctxs = s.ctxs := by cases p <;> rfl
@[simp] theorem State.modPort_vfy (p : Port) (f : PortSt → PortSt) : (s.modPort p f).vfy = s.vfy := by cases p <;> rfl
@[simp] theorem State.modPort_saf (p : Port) (f : PortSt → PortSt) : (s.modPort p f).saf = s.saf := by cases p <;> rfl
@[simp] theorem State.modPort_faults (p : Port) (f : PortSt → PortSt) : (s.modPort p f).faults = s.faults := by cases p <;> rfl
@[simp] theorem State.modPort_dump (p : Port) (f : PortSt → PortSt) : (s.modPort p f).dump = s.dump := by cases p <;> rfl
@[simp] theorem State.modPort_wear (p : Port) (f : PortSt → PortSt) : (s.modPort p f).wear = s.wear := by cases p <;> rfl
@[simp] theorem State.modPort_flashWear (p : Port) (f : PortSt → PortSt) : (s.modPort p f).flashWear = s.flashWear := by cases p <;> rfl
@[simp] theorem State.modPort_scrub (p : Port) (f : PortSt → PortSt) : (s.modPort p f).scrub = s.scrub := by cases p <;> rfl
@[simp] theorem State.modPort_links (p : Port) (f : PortSt → PortSt) : (s.modPort p f).links = s.links := by cases p <;> rfl
@[simp] theorem State.modPort_hedge (p : Port) (f : PortSt → PortSt) : (s.modPort p f).hedge = s.hedge := by cases p <;> rfl
@[simp] theorem State.modPort_boot (p : Port) (f : PortSt → PortSt) : (s.modPort p f).boot = s.boot := by cases p <;> rfl
@[simp] theorem State.modPort_images (p : Port) (f : PortSt → PortSt) : (s.modPort p f).images = s.images := by cases p <;> rfl
@[simp] theorem State.modPort_modules (p : Port) (f : PortSt → PortSt) : (s.modPort p f).modules = s.modules := by cases p <;> rfl
@[simp] theorem State.modPort_power (p : Port) (f : PortSt → PortSt) : (s.modPort p f).power = s.power := by cases p <;> rfl
@[simp] theorem State.modPort_recorder (p : Port) (f : PortSt → PortSt) : (s.modPort p f).recorder = s.recorder := by cases p <;> rfl
@[simp] theorem State.modPort_syncOut (p : Port) (f : PortSt → PortSt) : (s.modPort p f).syncOut = s.syncOut := by cases p <;> rfl
@[simp] theorem State.modPort_syncOutEnd (p : Port) (f : PortSt → PortSt) : (s.modPort p f).syncOutEnd = s.syncOutEnd := by cases p <;> rfl
@[simp] theorem State.modPort_store (p : Port) (f : PortSt → PortSt) : (s.modPort p f).store = s.store := by cases p <;> rfl
@[simp] theorem State.modPort_psram (p : Port) (f : PortSt → PortSt) : (s.modPort p f).psram = s.psram := by cases p <;> rfl
@[simp] theorem State.modPort_flash (p : Port) (f : PortSt → PortSt) : (s.modPort p f).flash = s.flash := by cases p <;> rfl

/-! ### An SDIO interface changed -/

@[simp] theorem State.modSd_pending (i : SdIf) (f : Sd → Sd) : (s.modSd i f).pending = s.pending := by cases i <;> rfl
@[simp] theorem State.modSd_freeCount (i : SdIf) (f : Sd → Sd) : (s.modSd i f).freeCount = s.freeCount := by cases i <;> rfl
@[simp] theorem State.modSd_clk (i : SdIf) (f : Sd → Sd) : (s.modSd i f).clk = s.clk := by cases i <;> rfl
@[simp] theorem State.modSd_bus (i : SdIf) (f : Sd → Sd) : (s.modSd i f).bus = s.bus := by cases i <;> rfl
@[simp] theorem State.modSd_engines (i : SdIf) (f : Sd → Sd) : (s.modSd i f).engines = s.engines := by cases i <;> rfl
@[simp] theorem State.modSd_roles (i : SdIf) (f : Sd → Sd) : (s.modSd i f).roles = s.roles := by cases i <;> rfl
@[simp] theorem State.modSd_tds (i : SdIf) (f : Sd → Sd) : (s.modSd i f).tds = s.tds := by cases i <;> rfl
@[simp] theorem State.modSd_arb (i : SdIf) (f : Sd → Sd) : (s.modSd i f).arb = s.arb := by cases i <;> rfl
@[simp] theorem State.modSd_mbx (i : SdIf) (f : Sd → Sd) : (s.modSd i f).mbx = s.mbx := by cases i <;> rfl
@[simp] theorem State.modSd_sem (i : SdIf) (f : Sd → Sd) : (s.modSd i f).sem = s.sem := by cases i <;> rfl
@[simp] theorem State.modSd_portA (i : SdIf) (f : Sd → Sd) : (s.modSd i f).portA = s.portA := by cases i <;> rfl
@[simp] theorem State.modSd_portB (i : SdIf) (f : Sd → Sd) : (s.modSd i f).portB = s.portB := by cases i <;> rfl
@[simp] theorem State.modSd_cn0 (i : SdIf) (f : Sd → Sd) : (s.modSd i f).cn0 = s.cn0 := by cases i <;> rfl
@[simp] theorem State.modSd_cn1 (i : SdIf) (f : Sd → Sd) : (s.modSd i f).cn1 = s.cn1 := by cases i <;> rfl
@[simp] theorem State.modSd_errField (i : SdIf) (f : Sd → Sd) : (s.modSd i f).errField = s.errField := by cases i <;> rfl
@[simp] theorem State.modSd_shadow (i : SdIf) (f : Sd → Sd) : (s.modSd i f).shadow = s.shadow := by cases i <;> rfl
@[simp] theorem State.modSd_force (i : SdIf) (f : Sd → Sd) : (s.modSd i f).force = s.force := by cases i <;> rfl
@[simp] theorem State.modSd_edgeAt (i : SdIf) (f : Sd → Sd) : (s.modSd i f).edgeAt = s.edgeAt := by cases i <;> rfl
@[simp] theorem State.modSd_edgeShadow (i : SdIf) (f : Sd → Sd) : (s.modSd i f).edgeShadow = s.edgeShadow := by cases i <;> rfl
@[simp] theorem State.modSd_world (i : SdIf) (f : Sd → Sd) : (s.modSd i f).world = s.world := by cases i <;> rfl
@[simp] theorem State.modSd_fus (i : SdIf) (f : Sd → Sd) : (s.modSd i f).fus = s.fus := by cases i <;> rfl
@[simp] theorem State.modSd_loader (i : SdIf) (f : Sd → Sd) : (s.modSd i f).loader = s.loader := by cases i <;> rfl
@[simp] theorem State.modSd_ctxs (i : SdIf) (f : Sd → Sd) : (s.modSd i f).ctxs = s.ctxs := by cases i <;> rfl
@[simp] theorem State.modSd_vfy (i : SdIf) (f : Sd → Sd) : (s.modSd i f).vfy = s.vfy := by cases i <;> rfl
@[simp] theorem State.modSd_saf (i : SdIf) (f : Sd → Sd) : (s.modSd i f).saf = s.saf := by cases i <;> rfl
@[simp] theorem State.modSd_faults (i : SdIf) (f : Sd → Sd) : (s.modSd i f).faults = s.faults := by cases i <;> rfl
@[simp] theorem State.modSd_dump (i : SdIf) (f : Sd → Sd) : (s.modSd i f).dump = s.dump := by cases i <;> rfl
@[simp] theorem State.modSd_wear (i : SdIf) (f : Sd → Sd) : (s.modSd i f).wear = s.wear := by cases i <;> rfl
@[simp] theorem State.modSd_flashWear (i : SdIf) (f : Sd → Sd) : (s.modSd i f).flashWear = s.flashWear := by cases i <;> rfl
@[simp] theorem State.modSd_scrub (i : SdIf) (f : Sd → Sd) : (s.modSd i f).scrub = s.scrub := by cases i <;> rfl
@[simp] theorem State.modSd_links (i : SdIf) (f : Sd → Sd) : (s.modSd i f).links = s.links := by cases i <;> rfl
@[simp] theorem State.modSd_hedge (i : SdIf) (f : Sd → Sd) : (s.modSd i f).hedge = s.hedge := by cases i <;> rfl
@[simp] theorem State.modSd_boot (i : SdIf) (f : Sd → Sd) : (s.modSd i f).boot = s.boot := by cases i <;> rfl
@[simp] theorem State.modSd_images (i : SdIf) (f : Sd → Sd) : (s.modSd i f).images = s.images := by cases i <;> rfl
@[simp] theorem State.modSd_modules (i : SdIf) (f : Sd → Sd) : (s.modSd i f).modules = s.modules := by cases i <;> rfl
@[simp] theorem State.modSd_power (i : SdIf) (f : Sd → Sd) : (s.modSd i f).power = s.power := by cases i <;> rfl
@[simp] theorem State.modSd_recorder (i : SdIf) (f : Sd → Sd) : (s.modSd i f).recorder = s.recorder := by cases i <;> rfl
@[simp] theorem State.modSd_syncOut (i : SdIf) (f : Sd → Sd) : (s.modSd i f).syncOut = s.syncOut := by cases i <;> rfl
@[simp] theorem State.modSd_syncOutEnd (i : SdIf) (f : Sd → Sd) : (s.modSd i f).syncOutEnd = s.syncOutEnd := by cases i <;> rfl
@[simp] theorem State.modSd_store (i : SdIf) (f : Sd → Sd) : (s.modSd i f).store = s.store := by cases i <;> rfl
@[simp] theorem State.modSd_psram (i : SdIf) (f : Sd → Sd) : (s.modSd i f).psram = s.psram := by cases i <;> rfl
@[simp] theorem State.modSd_flash (i : SdIf) (f : Sd → Sd) : (s.modSd i f).flash = s.flash := by cases i <;> rfl

/-! ### A CAN controller changed -/

@[simp] theorem State.modCan_pending (n : CanIf) (f : Can → Can) : (s.modCan n f).pending = s.pending := by cases n <;> rfl
@[simp] theorem State.modCan_freeCount (n : CanIf) (f : Can → Can) : (s.modCan n f).freeCount = s.freeCount := by cases n <;> rfl
@[simp] theorem State.modCan_clk (n : CanIf) (f : Can → Can) : (s.modCan n f).clk = s.clk := by cases n <;> rfl
@[simp] theorem State.modCan_bus (n : CanIf) (f : Can → Can) : (s.modCan n f).bus = s.bus := by cases n <;> rfl
@[simp] theorem State.modCan_engines (n : CanIf) (f : Can → Can) : (s.modCan n f).engines = s.engines := by cases n <;> rfl
@[simp] theorem State.modCan_roles (n : CanIf) (f : Can → Can) : (s.modCan n f).roles = s.roles := by cases n <;> rfl
@[simp] theorem State.modCan_tds (n : CanIf) (f : Can → Can) : (s.modCan n f).tds = s.tds := by cases n <;> rfl
@[simp] theorem State.modCan_arb (n : CanIf) (f : Can → Can) : (s.modCan n f).arb = s.arb := by cases n <;> rfl
@[simp] theorem State.modCan_mbx (n : CanIf) (f : Can → Can) : (s.modCan n f).mbx = s.mbx := by cases n <;> rfl
@[simp] theorem State.modCan_sem (n : CanIf) (f : Can → Can) : (s.modCan n f).sem = s.sem := by cases n <;> rfl
@[simp] theorem State.modCan_portA (n : CanIf) (f : Can → Can) : (s.modCan n f).portA = s.portA := by cases n <;> rfl
@[simp] theorem State.modCan_portB (n : CanIf) (f : Can → Can) : (s.modCan n f).portB = s.portB := by cases n <;> rfl
@[simp] theorem State.modCan_sda (n : CanIf) (f : Can → Can) : (s.modCan n f).sda = s.sda := by cases n <;> rfl
@[simp] theorem State.modCan_sdb (n : CanIf) (f : Can → Can) : (s.modCan n f).sdb = s.sdb := by cases n <;> rfl
@[simp] theorem State.modCan_errField (n : CanIf) (f : Can → Can) : (s.modCan n f).errField = s.errField := by cases n <;> rfl
@[simp] theorem State.modCan_shadow (n : CanIf) (f : Can → Can) : (s.modCan n f).shadow = s.shadow := by cases n <;> rfl
@[simp] theorem State.modCan_force (n : CanIf) (f : Can → Can) : (s.modCan n f).force = s.force := by cases n <;> rfl
@[simp] theorem State.modCan_edgeAt (n : CanIf) (f : Can → Can) : (s.modCan n f).edgeAt = s.edgeAt := by cases n <;> rfl
@[simp] theorem State.modCan_edgeShadow (n : CanIf) (f : Can → Can) : (s.modCan n f).edgeShadow = s.edgeShadow := by cases n <;> rfl
@[simp] theorem State.modCan_world (n : CanIf) (f : Can → Can) : (s.modCan n f).world = s.world := by cases n <;> rfl
@[simp] theorem State.modCan_fus (n : CanIf) (f : Can → Can) : (s.modCan n f).fus = s.fus := by cases n <;> rfl
@[simp] theorem State.modCan_loader (n : CanIf) (f : Can → Can) : (s.modCan n f).loader = s.loader := by cases n <;> rfl
@[simp] theorem State.modCan_ctxs (n : CanIf) (f : Can → Can) : (s.modCan n f).ctxs = s.ctxs := by cases n <;> rfl
@[simp] theorem State.modCan_vfy (n : CanIf) (f : Can → Can) : (s.modCan n f).vfy = s.vfy := by cases n <;> rfl
@[simp] theorem State.modCan_saf (n : CanIf) (f : Can → Can) : (s.modCan n f).saf = s.saf := by cases n <;> rfl
@[simp] theorem State.modCan_faults (n : CanIf) (f : Can → Can) : (s.modCan n f).faults = s.faults := by cases n <;> rfl
@[simp] theorem State.modCan_dump (n : CanIf) (f : Can → Can) : (s.modCan n f).dump = s.dump := by cases n <;> rfl
@[simp] theorem State.modCan_wear (n : CanIf) (f : Can → Can) : (s.modCan n f).wear = s.wear := by cases n <;> rfl
@[simp] theorem State.modCan_flashWear (n : CanIf) (f : Can → Can) : (s.modCan n f).flashWear = s.flashWear := by cases n <;> rfl
@[simp] theorem State.modCan_scrub (n : CanIf) (f : Can → Can) : (s.modCan n f).scrub = s.scrub := by cases n <;> rfl
@[simp] theorem State.modCan_links (n : CanIf) (f : Can → Can) : (s.modCan n f).links = s.links := by cases n <;> rfl
@[simp] theorem State.modCan_hedge (n : CanIf) (f : Can → Can) : (s.modCan n f).hedge = s.hedge := by cases n <;> rfl
@[simp] theorem State.modCan_boot (n : CanIf) (f : Can → Can) : (s.modCan n f).boot = s.boot := by cases n <;> rfl
@[simp] theorem State.modCan_images (n : CanIf) (f : Can → Can) : (s.modCan n f).images = s.images := by cases n <;> rfl
@[simp] theorem State.modCan_modules (n : CanIf) (f : Can → Can) : (s.modCan n f).modules = s.modules := by cases n <;> rfl
@[simp] theorem State.modCan_power (n : CanIf) (f : Can → Can) : (s.modCan n f).power = s.power := by cases n <;> rfl
@[simp] theorem State.modCan_recorder (n : CanIf) (f : Can → Can) : (s.modCan n f).recorder = s.recorder := by cases n <;> rfl
@[simp] theorem State.modCan_syncOut (n : CanIf) (f : Can → Can) : (s.modCan n f).syncOut = s.syncOut := by cases n <;> rfl
@[simp] theorem State.modCan_syncOutEnd (n : CanIf) (f : Can → Can) : (s.modCan n f).syncOutEnd = s.syncOutEnd := by cases n <;> rfl
@[simp] theorem State.modCan_store (n : CanIf) (f : Can → Can) : (s.modCan n f).store = s.store := by cases n <;> rfl
@[simp] theorem State.modCan_psram (n : CanIf) (f : Can → Can) : (s.modCan n f).psram = s.psram := by cases n <;> rfl
@[simp] theorem State.modCan_flash (n : CanIf) (f : Can → Can) : (s.modCan n f).flash = s.flash := by cases n <;> rfl

/-! ### A mailbox changed -/

@[simp] theorem State.modBox_pending (n : MbxId) (f : Mbox → Mbox) : (s.modBox n f).pending = s.pending := rfl
@[simp] theorem State.modBox_freeCount (n : MbxId) (f : Mbox → Mbox) : (s.modBox n f).freeCount = s.freeCount := rfl
@[simp] theorem State.modBox_clk (n : MbxId) (f : Mbox → Mbox) : (s.modBox n f).clk = s.clk := rfl
@[simp] theorem State.modBox_bus (n : MbxId) (f : Mbox → Mbox) : (s.modBox n f).bus = s.bus := rfl
@[simp] theorem State.modBox_engines (n : MbxId) (f : Mbox → Mbox) : (s.modBox n f).engines = s.engines := rfl
@[simp] theorem State.modBox_roles (n : MbxId) (f : Mbox → Mbox) : (s.modBox n f).roles = s.roles := rfl
@[simp] theorem State.modBox_tds (n : MbxId) (f : Mbox → Mbox) : (s.modBox n f).tds = s.tds := rfl
@[simp] theorem State.modBox_arb (n : MbxId) (f : Mbox → Mbox) : (s.modBox n f).arb = s.arb := rfl
@[simp] theorem State.modBox_sem (n : MbxId) (f : Mbox → Mbox) : (s.modBox n f).sem = s.sem := rfl
@[simp] theorem State.modBox_portA (n : MbxId) (f : Mbox → Mbox) : (s.modBox n f).portA = s.portA := rfl
@[simp] theorem State.modBox_portB (n : MbxId) (f : Mbox → Mbox) : (s.modBox n f).portB = s.portB := rfl
@[simp] theorem State.modBox_sda (n : MbxId) (f : Mbox → Mbox) : (s.modBox n f).sda = s.sda := rfl
@[simp] theorem State.modBox_sdb (n : MbxId) (f : Mbox → Mbox) : (s.modBox n f).sdb = s.sdb := rfl
@[simp] theorem State.modBox_cn0 (n : MbxId) (f : Mbox → Mbox) : (s.modBox n f).cn0 = s.cn0 := rfl
@[simp] theorem State.modBox_cn1 (n : MbxId) (f : Mbox → Mbox) : (s.modBox n f).cn1 = s.cn1 := rfl
@[simp] theorem State.modBox_errField (n : MbxId) (f : Mbox → Mbox) : (s.modBox n f).errField = s.errField := rfl
@[simp] theorem State.modBox_shadow (n : MbxId) (f : Mbox → Mbox) : (s.modBox n f).shadow = s.shadow := rfl
@[simp] theorem State.modBox_force (n : MbxId) (f : Mbox → Mbox) : (s.modBox n f).force = s.force := rfl
@[simp] theorem State.modBox_edgeAt (n : MbxId) (f : Mbox → Mbox) : (s.modBox n f).edgeAt = s.edgeAt := rfl
@[simp] theorem State.modBox_edgeShadow (n : MbxId) (f : Mbox → Mbox) : (s.modBox n f).edgeShadow = s.edgeShadow := rfl
@[simp] theorem State.modBox_world (n : MbxId) (f : Mbox → Mbox) : (s.modBox n f).world = s.world := rfl
@[simp] theorem State.modBox_fus (n : MbxId) (f : Mbox → Mbox) : (s.modBox n f).fus = s.fus := rfl
@[simp] theorem State.modBox_loader (n : MbxId) (f : Mbox → Mbox) : (s.modBox n f).loader = s.loader := rfl
@[simp] theorem State.modBox_ctxs (n : MbxId) (f : Mbox → Mbox) : (s.modBox n f).ctxs = s.ctxs := rfl
@[simp] theorem State.modBox_vfy (n : MbxId) (f : Mbox → Mbox) : (s.modBox n f).vfy = s.vfy := rfl
@[simp] theorem State.modBox_saf (n : MbxId) (f : Mbox → Mbox) : (s.modBox n f).saf = s.saf := rfl
@[simp] theorem State.modBox_faults (n : MbxId) (f : Mbox → Mbox) : (s.modBox n f).faults = s.faults := rfl
@[simp] theorem State.modBox_dump (n : MbxId) (f : Mbox → Mbox) : (s.modBox n f).dump = s.dump := rfl
@[simp] theorem State.modBox_wear (n : MbxId) (f : Mbox → Mbox) : (s.modBox n f).wear = s.wear := rfl
@[simp] theorem State.modBox_flashWear (n : MbxId) (f : Mbox → Mbox) : (s.modBox n f).flashWear = s.flashWear := rfl
@[simp] theorem State.modBox_scrub (n : MbxId) (f : Mbox → Mbox) : (s.modBox n f).scrub = s.scrub := rfl
@[simp] theorem State.modBox_links (n : MbxId) (f : Mbox → Mbox) : (s.modBox n f).links = s.links := rfl
@[simp] theorem State.modBox_hedge (n : MbxId) (f : Mbox → Mbox) : (s.modBox n f).hedge = s.hedge := rfl
@[simp] theorem State.modBox_boot (n : MbxId) (f : Mbox → Mbox) : (s.modBox n f).boot = s.boot := rfl
@[simp] theorem State.modBox_images (n : MbxId) (f : Mbox → Mbox) : (s.modBox n f).images = s.images := rfl
@[simp] theorem State.modBox_modules (n : MbxId) (f : Mbox → Mbox) : (s.modBox n f).modules = s.modules := rfl
@[simp] theorem State.modBox_power (n : MbxId) (f : Mbox → Mbox) : (s.modBox n f).power = s.power := rfl
@[simp] theorem State.modBox_recorder (n : MbxId) (f : Mbox → Mbox) : (s.modBox n f).recorder = s.recorder := rfl
@[simp] theorem State.modBox_syncOut (n : MbxId) (f : Mbox → Mbox) : (s.modBox n f).syncOut = s.syncOut := rfl
@[simp] theorem State.modBox_syncOutEnd (n : MbxId) (f : Mbox → Mbox) : (s.modBox n f).syncOutEnd = s.syncOutEnd := rfl
@[simp] theorem State.modBox_store (n : MbxId) (f : Mbox → Mbox) : (s.modBox n f).store = s.store := rfl
@[simp] theorem State.modBox_psram (n : MbxId) (f : Mbox → Mbox) : (s.modBox n f).psram = s.psram := rfl
@[simp] theorem State.modBox_flash (n : MbxId) (f : Mbox → Mbox) : (s.modBox n f).flash = s.flash := rfl

/-! ### An event of the dispatcher -/

@[simp] theorem State.tdsEvent_pending (e : Nat) : (s.tdsEvent e).pending = s.pending := rfl
@[simp] theorem State.tdsEvent_freeCount (e : Nat) : (s.tdsEvent e).freeCount = s.freeCount := rfl
@[simp] theorem State.tdsEvent_clk (e : Nat) : (s.tdsEvent e).clk = s.clk := rfl
@[simp] theorem State.tdsEvent_bus (e : Nat) : (s.tdsEvent e).bus = s.bus := rfl
@[simp] theorem State.tdsEvent_engines (e : Nat) : (s.tdsEvent e).engines = s.engines := rfl
@[simp] theorem State.tdsEvent_roles (e : Nat) : (s.tdsEvent e).roles = s.roles := rfl
@[simp] theorem State.tdsEvent_arb (e : Nat) : (s.tdsEvent e).arb = s.arb := rfl
@[simp] theorem State.tdsEvent_mbx (e : Nat) : (s.tdsEvent e).mbx = s.mbx := rfl
@[simp] theorem State.tdsEvent_sem (e : Nat) : (s.tdsEvent e).sem = s.sem := rfl
@[simp] theorem State.tdsEvent_portA (e : Nat) : (s.tdsEvent e).portA = s.portA := rfl
@[simp] theorem State.tdsEvent_portB (e : Nat) : (s.tdsEvent e).portB = s.portB := rfl
@[simp] theorem State.tdsEvent_sda (e : Nat) : (s.tdsEvent e).sda = s.sda := rfl
@[simp] theorem State.tdsEvent_sdb (e : Nat) : (s.tdsEvent e).sdb = s.sdb := rfl
@[simp] theorem State.tdsEvent_cn0 (e : Nat) : (s.tdsEvent e).cn0 = s.cn0 := rfl
@[simp] theorem State.tdsEvent_cn1 (e : Nat) : (s.tdsEvent e).cn1 = s.cn1 := rfl
@[simp] theorem State.tdsEvent_errField (e : Nat) : (s.tdsEvent e).errField = s.errField := rfl
@[simp] theorem State.tdsEvent_shadow (e : Nat) : (s.tdsEvent e).shadow = s.shadow := rfl
@[simp] theorem State.tdsEvent_force (e : Nat) : (s.tdsEvent e).force = s.force := rfl
@[simp] theorem State.tdsEvent_edgeAt (e : Nat) : (s.tdsEvent e).edgeAt = s.edgeAt := rfl
@[simp] theorem State.tdsEvent_edgeShadow (e : Nat) : (s.tdsEvent e).edgeShadow = s.edgeShadow := rfl
@[simp] theorem State.tdsEvent_world (e : Nat) : (s.tdsEvent e).world = s.world := rfl
@[simp] theorem State.tdsEvent_fus (e : Nat) : (s.tdsEvent e).fus = s.fus := rfl
@[simp] theorem State.tdsEvent_loader (e : Nat) : (s.tdsEvent e).loader = s.loader := rfl
@[simp] theorem State.tdsEvent_ctxs (e : Nat) : (s.tdsEvent e).ctxs = s.ctxs := rfl
@[simp] theorem State.tdsEvent_vfy (e : Nat) : (s.tdsEvent e).vfy = s.vfy := rfl
@[simp] theorem State.tdsEvent_saf (e : Nat) : (s.tdsEvent e).saf = s.saf := rfl
@[simp] theorem State.tdsEvent_faults (e : Nat) : (s.tdsEvent e).faults = s.faults := rfl
@[simp] theorem State.tdsEvent_dump (e : Nat) : (s.tdsEvent e).dump = s.dump := rfl
@[simp] theorem State.tdsEvent_wear (e : Nat) : (s.tdsEvent e).wear = s.wear := rfl
@[simp] theorem State.tdsEvent_flashWear (e : Nat) : (s.tdsEvent e).flashWear = s.flashWear := rfl
@[simp] theorem State.tdsEvent_scrub (e : Nat) : (s.tdsEvent e).scrub = s.scrub := rfl
@[simp] theorem State.tdsEvent_links (e : Nat) : (s.tdsEvent e).links = s.links := rfl
@[simp] theorem State.tdsEvent_hedge (e : Nat) : (s.tdsEvent e).hedge = s.hedge := rfl
@[simp] theorem State.tdsEvent_boot (e : Nat) : (s.tdsEvent e).boot = s.boot := rfl
@[simp] theorem State.tdsEvent_images (e : Nat) : (s.tdsEvent e).images = s.images := rfl
@[simp] theorem State.tdsEvent_modules (e : Nat) : (s.tdsEvent e).modules = s.modules := rfl
@[simp] theorem State.tdsEvent_power (e : Nat) : (s.tdsEvent e).power = s.power := rfl
@[simp] theorem State.tdsEvent_recorder (e : Nat) : (s.tdsEvent e).recorder = s.recorder := rfl
@[simp] theorem State.tdsEvent_syncOut (e : Nat) : (s.tdsEvent e).syncOut = s.syncOut := rfl
@[simp] theorem State.tdsEvent_syncOutEnd (e : Nat) : (s.tdsEvent e).syncOutEnd = s.syncOutEnd := rfl
@[simp] theorem State.tdsEvent_store (e : Nat) : (s.tdsEvent e).store = s.store := rfl
@[simp] theorem State.tdsEvent_psram (e : Nat) : (s.tdsEvent e).psram = s.psram := rfl
@[simp] theorem State.tdsEvent_flash (e : Nat) : (s.tdsEvent e).flash = s.flash := rfl

/-! ### A camera stream changed -/

@[simp] theorem State.modStream_pending (k : StreamId) (f : Stream → Stream) : (s.modStream k f).pending = s.pending := rfl
@[simp] theorem State.modStream_freeCount (k : StreamId) (f : Stream → Stream) : (s.modStream k f).freeCount = s.freeCount := rfl
@[simp] theorem State.modStream_clk (k : StreamId) (f : Stream → Stream) : (s.modStream k f).clk = s.clk := rfl
@[simp] theorem State.modStream_bus (k : StreamId) (f : Stream → Stream) : (s.modStream k f).bus = s.bus := rfl
@[simp] theorem State.modStream_engines (k : StreamId) (f : Stream → Stream) : (s.modStream k f).engines = s.engines := rfl
@[simp] theorem State.modStream_roles (k : StreamId) (f : Stream → Stream) : (s.modStream k f).roles = s.roles := rfl
@[simp] theorem State.modStream_tds (k : StreamId) (f : Stream → Stream) : (s.modStream k f).tds = s.tds := rfl
@[simp] theorem State.modStream_arb (k : StreamId) (f : Stream → Stream) : (s.modStream k f).arb = s.arb := rfl
@[simp] theorem State.modStream_mbx (k : StreamId) (f : Stream → Stream) : (s.modStream k f).mbx = s.mbx := rfl
@[simp] theorem State.modStream_sem (k : StreamId) (f : Stream → Stream) : (s.modStream k f).sem = s.sem := rfl
@[simp] theorem State.modStream_portA (k : StreamId) (f : Stream → Stream) : (s.modStream k f).portA = s.portA := rfl
@[simp] theorem State.modStream_portB (k : StreamId) (f : Stream → Stream) : (s.modStream k f).portB = s.portB := rfl
@[simp] theorem State.modStream_sda (k : StreamId) (f : Stream → Stream) : (s.modStream k f).sda = s.sda := rfl
@[simp] theorem State.modStream_sdb (k : StreamId) (f : Stream → Stream) : (s.modStream k f).sdb = s.sdb := rfl
@[simp] theorem State.modStream_cn0 (k : StreamId) (f : Stream → Stream) : (s.modStream k f).cn0 = s.cn0 := rfl
@[simp] theorem State.modStream_cn1 (k : StreamId) (f : Stream → Stream) : (s.modStream k f).cn1 = s.cn1 := rfl
@[simp] theorem State.modStream_errField (k : StreamId) (f : Stream → Stream) : (s.modStream k f).errField = s.errField := rfl
@[simp] theorem State.modStream_shadow (k : StreamId) (f : Stream → Stream) : (s.modStream k f).shadow = s.shadow := rfl
@[simp] theorem State.modStream_force (k : StreamId) (f : Stream → Stream) : (s.modStream k f).force = s.force := rfl
@[simp] theorem State.modStream_edgeAt (k : StreamId) (f : Stream → Stream) : (s.modStream k f).edgeAt = s.edgeAt := rfl
@[simp] theorem State.modStream_edgeShadow (k : StreamId) (f : Stream → Stream) : (s.modStream k f).edgeShadow = s.edgeShadow := rfl
@[simp] theorem State.modStream_world (k : StreamId) (f : Stream → Stream) : (s.modStream k f).world = s.world := rfl
@[simp] theorem State.modStream_loader (k : StreamId) (f : Stream → Stream) : (s.modStream k f).loader = s.loader := rfl
@[simp] theorem State.modStream_ctxs (k : StreamId) (f : Stream → Stream) : (s.modStream k f).ctxs = s.ctxs := rfl
@[simp] theorem State.modStream_vfy (k : StreamId) (f : Stream → Stream) : (s.modStream k f).vfy = s.vfy := rfl
@[simp] theorem State.modStream_saf (k : StreamId) (f : Stream → Stream) : (s.modStream k f).saf = s.saf := rfl
@[simp] theorem State.modStream_faults (k : StreamId) (f : Stream → Stream) : (s.modStream k f).faults = s.faults := rfl
@[simp] theorem State.modStream_dump (k : StreamId) (f : Stream → Stream) : (s.modStream k f).dump = s.dump := rfl
@[simp] theorem State.modStream_wear (k : StreamId) (f : Stream → Stream) : (s.modStream k f).wear = s.wear := rfl
@[simp] theorem State.modStream_flashWear (k : StreamId) (f : Stream → Stream) : (s.modStream k f).flashWear = s.flashWear := rfl
@[simp] theorem State.modStream_scrub (k : StreamId) (f : Stream → Stream) : (s.modStream k f).scrub = s.scrub := rfl
@[simp] theorem State.modStream_links (k : StreamId) (f : Stream → Stream) : (s.modStream k f).links = s.links := rfl
@[simp] theorem State.modStream_hedge (k : StreamId) (f : Stream → Stream) : (s.modStream k f).hedge = s.hedge := rfl
@[simp] theorem State.modStream_boot (k : StreamId) (f : Stream → Stream) : (s.modStream k f).boot = s.boot := rfl
@[simp] theorem State.modStream_images (k : StreamId) (f : Stream → Stream) : (s.modStream k f).images = s.images := rfl
@[simp] theorem State.modStream_modules (k : StreamId) (f : Stream → Stream) : (s.modStream k f).modules = s.modules := rfl
@[simp] theorem State.modStream_power (k : StreamId) (f : Stream → Stream) : (s.modStream k f).power = s.power := rfl
@[simp] theorem State.modStream_recorder (k : StreamId) (f : Stream → Stream) : (s.modStream k f).recorder = s.recorder := rfl
@[simp] theorem State.modStream_syncOut (k : StreamId) (f : Stream → Stream) : (s.modStream k f).syncOut = s.syncOut := rfl
@[simp] theorem State.modStream_syncOutEnd (k : StreamId) (f : Stream → Stream) : (s.modStream k f).syncOutEnd = s.syncOutEnd := rfl
@[simp] theorem State.modStream_store (k : StreamId) (f : Stream → Stream) : (s.modStream k f).store = s.store := rfl
@[simp] theorem State.modStream_psram (k : StreamId) (f : Stream → Stream) : (s.modStream k f).psram = s.psram := rfl
@[simp] theorem State.modStream_flash (k : StreamId) (f : Stream → Stream) : (s.modStream k f).flash = s.flash := rfl

/-! ### A receiver changed -/

@[simp] theorem State.modRx_pending (n : RxId) (f : Rx → Rx) : (s.modRx n f).pending = s.pending := rfl
@[simp] theorem State.modRx_freeCount (n : RxId) (f : Rx → Rx) : (s.modRx n f).freeCount = s.freeCount := rfl
@[simp] theorem State.modRx_clk (n : RxId) (f : Rx → Rx) : (s.modRx n f).clk = s.clk := rfl
@[simp] theorem State.modRx_bus (n : RxId) (f : Rx → Rx) : (s.modRx n f).bus = s.bus := rfl
@[simp] theorem State.modRx_engines (n : RxId) (f : Rx → Rx) : (s.modRx n f).engines = s.engines := rfl
@[simp] theorem State.modRx_roles (n : RxId) (f : Rx → Rx) : (s.modRx n f).roles = s.roles := rfl
@[simp] theorem State.modRx_tds (n : RxId) (f : Rx → Rx) : (s.modRx n f).tds = s.tds := rfl
@[simp] theorem State.modRx_arb (n : RxId) (f : Rx → Rx) : (s.modRx n f).arb = s.arb := rfl
@[simp] theorem State.modRx_mbx (n : RxId) (f : Rx → Rx) : (s.modRx n f).mbx = s.mbx := rfl
@[simp] theorem State.modRx_sem (n : RxId) (f : Rx → Rx) : (s.modRx n f).sem = s.sem := rfl
@[simp] theorem State.modRx_portA (n : RxId) (f : Rx → Rx) : (s.modRx n f).portA = s.portA := rfl
@[simp] theorem State.modRx_portB (n : RxId) (f : Rx → Rx) : (s.modRx n f).portB = s.portB := rfl
@[simp] theorem State.modRx_sda (n : RxId) (f : Rx → Rx) : (s.modRx n f).sda = s.sda := rfl
@[simp] theorem State.modRx_sdb (n : RxId) (f : Rx → Rx) : (s.modRx n f).sdb = s.sdb := rfl
@[simp] theorem State.modRx_cn0 (n : RxId) (f : Rx → Rx) : (s.modRx n f).cn0 = s.cn0 := rfl
@[simp] theorem State.modRx_cn1 (n : RxId) (f : Rx → Rx) : (s.modRx n f).cn1 = s.cn1 := rfl
@[simp] theorem State.modRx_errField (n : RxId) (f : Rx → Rx) : (s.modRx n f).errField = s.errField := rfl
@[simp] theorem State.modRx_shadow (n : RxId) (f : Rx → Rx) : (s.modRx n f).shadow = s.shadow := rfl
@[simp] theorem State.modRx_force (n : RxId) (f : Rx → Rx) : (s.modRx n f).force = s.force := rfl
@[simp] theorem State.modRx_edgeAt (n : RxId) (f : Rx → Rx) : (s.modRx n f).edgeAt = s.edgeAt := rfl
@[simp] theorem State.modRx_edgeShadow (n : RxId) (f : Rx → Rx) : (s.modRx n f).edgeShadow = s.edgeShadow := rfl
@[simp] theorem State.modRx_world (n : RxId) (f : Rx → Rx) : (s.modRx n f).world = s.world := rfl
@[simp] theorem State.modRx_loader (n : RxId) (f : Rx → Rx) : (s.modRx n f).loader = s.loader := rfl
@[simp] theorem State.modRx_ctxs (n : RxId) (f : Rx → Rx) : (s.modRx n f).ctxs = s.ctxs := rfl
@[simp] theorem State.modRx_vfy (n : RxId) (f : Rx → Rx) : (s.modRx n f).vfy = s.vfy := rfl
@[simp] theorem State.modRx_saf (n : RxId) (f : Rx → Rx) : (s.modRx n f).saf = s.saf := rfl
@[simp] theorem State.modRx_faults (n : RxId) (f : Rx → Rx) : (s.modRx n f).faults = s.faults := rfl
@[simp] theorem State.modRx_dump (n : RxId) (f : Rx → Rx) : (s.modRx n f).dump = s.dump := rfl
@[simp] theorem State.modRx_wear (n : RxId) (f : Rx → Rx) : (s.modRx n f).wear = s.wear := rfl
@[simp] theorem State.modRx_flashWear (n : RxId) (f : Rx → Rx) : (s.modRx n f).flashWear = s.flashWear := rfl
@[simp] theorem State.modRx_scrub (n : RxId) (f : Rx → Rx) : (s.modRx n f).scrub = s.scrub := rfl
@[simp] theorem State.modRx_links (n : RxId) (f : Rx → Rx) : (s.modRx n f).links = s.links := rfl
@[simp] theorem State.modRx_hedge (n : RxId) (f : Rx → Rx) : (s.modRx n f).hedge = s.hedge := rfl
@[simp] theorem State.modRx_boot (n : RxId) (f : Rx → Rx) : (s.modRx n f).boot = s.boot := rfl
@[simp] theorem State.modRx_images (n : RxId) (f : Rx → Rx) : (s.modRx n f).images = s.images := rfl
@[simp] theorem State.modRx_modules (n : RxId) (f : Rx → Rx) : (s.modRx n f).modules = s.modules := rfl
@[simp] theorem State.modRx_power (n : RxId) (f : Rx → Rx) : (s.modRx n f).power = s.power := rfl
@[simp] theorem State.modRx_recorder (n : RxId) (f : Rx → Rx) : (s.modRx n f).recorder = s.recorder := rfl
@[simp] theorem State.modRx_syncOut (n : RxId) (f : Rx → Rx) : (s.modRx n f).syncOut = s.syncOut := rfl
@[simp] theorem State.modRx_syncOutEnd (n : RxId) (f : Rx → Rx) : (s.modRx n f).syncOutEnd = s.syncOutEnd := rfl
@[simp] theorem State.modRx_store (n : RxId) (f : Rx → Rx) : (s.modRx n f).store = s.store := rfl
@[simp] theorem State.modRx_psram (n : RxId) (f : Rx → Rx) : (s.modRx n f).psram = s.psram := rfl
@[simp] theorem State.modRx_flash (n : RxId) (f : Rx → Rx) : (s.modRx n f).flash = s.flash := rfl

/-! ### A frame put in progress -/

@[simp] theorem State.setRun_pending (c : CtxId) (r : FrameRun) : (s.setRun c r).pending = s.pending := rfl
@[simp] theorem State.setRun_freeCount (c : CtxId) (r : FrameRun) : (s.setRun c r).freeCount = s.freeCount := rfl
@[simp] theorem State.setRun_clk (c : CtxId) (r : FrameRun) : (s.setRun c r).clk = s.clk := rfl
@[simp] theorem State.setRun_bus (c : CtxId) (r : FrameRun) : (s.setRun c r).bus = s.bus := rfl
@[simp] theorem State.setRun_engines (c : CtxId) (r : FrameRun) : (s.setRun c r).engines = s.engines := rfl
@[simp] theorem State.setRun_roles (c : CtxId) (r : FrameRun) : (s.setRun c r).roles = s.roles := rfl
@[simp] theorem State.setRun_tds (c : CtxId) (r : FrameRun) : (s.setRun c r).tds = s.tds := rfl
@[simp] theorem State.setRun_arb (c : CtxId) (r : FrameRun) : (s.setRun c r).arb = s.arb := rfl
@[simp] theorem State.setRun_mbx (c : CtxId) (r : FrameRun) : (s.setRun c r).mbx = s.mbx := rfl
@[simp] theorem State.setRun_sem (c : CtxId) (r : FrameRun) : (s.setRun c r).sem = s.sem := rfl
@[simp] theorem State.setRun_portA (c : CtxId) (r : FrameRun) : (s.setRun c r).portA = s.portA := rfl
@[simp] theorem State.setRun_portB (c : CtxId) (r : FrameRun) : (s.setRun c r).portB = s.portB := rfl
@[simp] theorem State.setRun_sda (c : CtxId) (r : FrameRun) : (s.setRun c r).sda = s.sda := rfl
@[simp] theorem State.setRun_sdb (c : CtxId) (r : FrameRun) : (s.setRun c r).sdb = s.sdb := rfl
@[simp] theorem State.setRun_cn0 (c : CtxId) (r : FrameRun) : (s.setRun c r).cn0 = s.cn0 := rfl
@[simp] theorem State.setRun_cn1 (c : CtxId) (r : FrameRun) : (s.setRun c r).cn1 = s.cn1 := rfl
@[simp] theorem State.setRun_errField (c : CtxId) (r : FrameRun) : (s.setRun c r).errField = s.errField := rfl
@[simp] theorem State.setRun_shadow (c : CtxId) (r : FrameRun) : (s.setRun c r).shadow = s.shadow := rfl
@[simp] theorem State.setRun_force (c : CtxId) (r : FrameRun) : (s.setRun c r).force = s.force := rfl
@[simp] theorem State.setRun_edgeAt (c : CtxId) (r : FrameRun) : (s.setRun c r).edgeAt = s.edgeAt := rfl
@[simp] theorem State.setRun_edgeShadow (c : CtxId) (r : FrameRun) : (s.setRun c r).edgeShadow = s.edgeShadow := rfl
@[simp] theorem State.setRun_world (c : CtxId) (r : FrameRun) : (s.setRun c r).world = s.world := rfl
@[simp] theorem State.setRun_fus (c : CtxId) (r : FrameRun) : (s.setRun c r).fus = s.fus := rfl
@[simp] theorem State.setRun_loader (c : CtxId) (r : FrameRun) : (s.setRun c r).loader = s.loader := rfl
@[simp] theorem State.setRun_vfy (c : CtxId) (r : FrameRun) : (s.setRun c r).vfy = s.vfy := rfl
@[simp] theorem State.setRun_saf (c : CtxId) (r : FrameRun) : (s.setRun c r).saf = s.saf := rfl
@[simp] theorem State.setRun_faults (c : CtxId) (r : FrameRun) : (s.setRun c r).faults = s.faults := rfl
@[simp] theorem State.setRun_dump (c : CtxId) (r : FrameRun) : (s.setRun c r).dump = s.dump := rfl
@[simp] theorem State.setRun_wear (c : CtxId) (r : FrameRun) : (s.setRun c r).wear = s.wear := rfl
@[simp] theorem State.setRun_flashWear (c : CtxId) (r : FrameRun) : (s.setRun c r).flashWear = s.flashWear := rfl
@[simp] theorem State.setRun_scrub (c : CtxId) (r : FrameRun) : (s.setRun c r).scrub = s.scrub := rfl
@[simp] theorem State.setRun_links (c : CtxId) (r : FrameRun) : (s.setRun c r).links = s.links := rfl
@[simp] theorem State.setRun_hedge (c : CtxId) (r : FrameRun) : (s.setRun c r).hedge = s.hedge := rfl
@[simp] theorem State.setRun_boot (c : CtxId) (r : FrameRun) : (s.setRun c r).boot = s.boot := rfl
@[simp] theorem State.setRun_images (c : CtxId) (r : FrameRun) : (s.setRun c r).images = s.images := rfl
@[simp] theorem State.setRun_modules (c : CtxId) (r : FrameRun) : (s.setRun c r).modules = s.modules := rfl
@[simp] theorem State.setRun_power (c : CtxId) (r : FrameRun) : (s.setRun c r).power = s.power := rfl
@[simp] theorem State.setRun_recorder (c : CtxId) (r : FrameRun) : (s.setRun c r).recorder = s.recorder := rfl
@[simp] theorem State.setRun_syncOut (c : CtxId) (r : FrameRun) : (s.setRun c r).syncOut = s.syncOut := rfl
@[simp] theorem State.setRun_syncOutEnd (c : CtxId) (r : FrameRun) : (s.setRun c r).syncOutEnd = s.syncOutEnd := rfl
@[simp] theorem State.setRun_store (c : CtxId) (r : FrameRun) : (s.setRun c r).store = s.store := rfl
@[simp] theorem State.setRun_psram (c : CtxId) (r : FrameRun) : (s.setRun c r).psram = s.psram := rfl
@[simp] theorem State.setRun_flash (c : CtxId) (r : FrameRun) : (s.setRun c r).flash = s.flash := rfl

/-! ### A tile changed -/

@[simp] theorem State.modTile_pending (h : Nat) (f : Tile → Tile) : (s.modTile h f).pending = s.pending := rfl
@[simp] theorem State.modTile_freeCount (h : Nat) (f : Tile → Tile) : (s.modTile h f).freeCount = s.freeCount := rfl
@[simp] theorem State.modTile_clk (h : Nat) (f : Tile → Tile) : (s.modTile h f).clk = s.clk := rfl
@[simp] theorem State.modTile_bus (h : Nat) (f : Tile → Tile) : (s.modTile h f).bus = s.bus := rfl
@[simp] theorem State.modTile_engines (h : Nat) (f : Tile → Tile) : (s.modTile h f).engines = s.engines := rfl
@[simp] theorem State.modTile_roles (h : Nat) (f : Tile → Tile) : (s.modTile h f).roles = s.roles := rfl
@[simp] theorem State.modTile_arb (h : Nat) (f : Tile → Tile) : (s.modTile h f).arb = s.arb := rfl
@[simp] theorem State.modTile_mbx (h : Nat) (f : Tile → Tile) : (s.modTile h f).mbx = s.mbx := rfl
@[simp] theorem State.modTile_sem (h : Nat) (f : Tile → Tile) : (s.modTile h f).sem = s.sem := rfl
@[simp] theorem State.modTile_portA (h : Nat) (f : Tile → Tile) : (s.modTile h f).portA = s.portA := rfl
@[simp] theorem State.modTile_portB (h : Nat) (f : Tile → Tile) : (s.modTile h f).portB = s.portB := rfl
@[simp] theorem State.modTile_sda (h : Nat) (f : Tile → Tile) : (s.modTile h f).sda = s.sda := rfl
@[simp] theorem State.modTile_sdb (h : Nat) (f : Tile → Tile) : (s.modTile h f).sdb = s.sdb := rfl
@[simp] theorem State.modTile_cn0 (h : Nat) (f : Tile → Tile) : (s.modTile h f).cn0 = s.cn0 := rfl
@[simp] theorem State.modTile_cn1 (h : Nat) (f : Tile → Tile) : (s.modTile h f).cn1 = s.cn1 := rfl
@[simp] theorem State.modTile_errField (h : Nat) (f : Tile → Tile) : (s.modTile h f).errField = s.errField := rfl
@[simp] theorem State.modTile_shadow (h : Nat) (f : Tile → Tile) : (s.modTile h f).shadow = s.shadow := rfl
@[simp] theorem State.modTile_force (h : Nat) (f : Tile → Tile) : (s.modTile h f).force = s.force := rfl
@[simp] theorem State.modTile_edgeAt (h : Nat) (f : Tile → Tile) : (s.modTile h f).edgeAt = s.edgeAt := rfl
@[simp] theorem State.modTile_edgeShadow (h : Nat) (f : Tile → Tile) : (s.modTile h f).edgeShadow = s.edgeShadow := rfl
@[simp] theorem State.modTile_world (h : Nat) (f : Tile → Tile) : (s.modTile h f).world = s.world := rfl
@[simp] theorem State.modTile_fus (h : Nat) (f : Tile → Tile) : (s.modTile h f).fus = s.fus := rfl
@[simp] theorem State.modTile_loader (h : Nat) (f : Tile → Tile) : (s.modTile h f).loader = s.loader := rfl
@[simp] theorem State.modTile_ctxs (h : Nat) (f : Tile → Tile) : (s.modTile h f).ctxs = s.ctxs := rfl
@[simp] theorem State.modTile_vfy (h : Nat) (f : Tile → Tile) : (s.modTile h f).vfy = s.vfy := rfl
@[simp] theorem State.modTile_saf (h : Nat) (f : Tile → Tile) : (s.modTile h f).saf = s.saf := rfl
@[simp] theorem State.modTile_faults (h : Nat) (f : Tile → Tile) : (s.modTile h f).faults = s.faults := rfl
@[simp] theorem State.modTile_dump (h : Nat) (f : Tile → Tile) : (s.modTile h f).dump = s.dump := rfl
@[simp] theorem State.modTile_wear (h : Nat) (f : Tile → Tile) : (s.modTile h f).wear = s.wear := rfl
@[simp] theorem State.modTile_flashWear (h : Nat) (f : Tile → Tile) : (s.modTile h f).flashWear = s.flashWear := rfl
@[simp] theorem State.modTile_scrub (h : Nat) (f : Tile → Tile) : (s.modTile h f).scrub = s.scrub := rfl
@[simp] theorem State.modTile_links (h : Nat) (f : Tile → Tile) : (s.modTile h f).links = s.links := rfl
@[simp] theorem State.modTile_hedge (h : Nat) (f : Tile → Tile) : (s.modTile h f).hedge = s.hedge := rfl
@[simp] theorem State.modTile_boot (h : Nat) (f : Tile → Tile) : (s.modTile h f).boot = s.boot := rfl
@[simp] theorem State.modTile_images (h : Nat) (f : Tile → Tile) : (s.modTile h f).images = s.images := rfl
@[simp] theorem State.modTile_modules (h : Nat) (f : Tile → Tile) : (s.modTile h f).modules = s.modules := rfl
@[simp] theorem State.modTile_power (h : Nat) (f : Tile → Tile) : (s.modTile h f).power = s.power := rfl
@[simp] theorem State.modTile_recorder (h : Nat) (f : Tile → Tile) : (s.modTile h f).recorder = s.recorder := rfl
@[simp] theorem State.modTile_syncOut (h : Nat) (f : Tile → Tile) : (s.modTile h f).syncOut = s.syncOut := rfl
@[simp] theorem State.modTile_syncOutEnd (h : Nat) (f : Tile → Tile) : (s.modTile h f).syncOutEnd = s.syncOutEnd := rfl
@[simp] theorem State.modTile_store (h : Nat) (f : Tile → Tile) : (s.modTile h f).store = s.store := rfl
@[simp] theorem State.modTile_psram (h : Nat) (f : Tile → Tile) : (s.modTile h f).psram = s.psram := rfl
@[simp] theorem State.modTile_flash (h : Nat) (f : Tile → Tile) : (s.modTile h f).flash = s.flash := rfl

/-! ### A tile dropped -/

@[simp] theorem State.dropTile_pending (h : Nat) : (s.dropTile h).pending = s.pending := rfl
@[simp] theorem State.dropTile_freeCount (h : Nat) : (s.dropTile h).freeCount = s.freeCount := rfl
@[simp] theorem State.dropTile_clk (h : Nat) : (s.dropTile h).clk = s.clk := rfl
@[simp] theorem State.dropTile_bus (h : Nat) : (s.dropTile h).bus = s.bus := rfl
@[simp] theorem State.dropTile_engines (h : Nat) : (s.dropTile h).engines = s.engines := rfl
@[simp] theorem State.dropTile_roles (h : Nat) : (s.dropTile h).roles = s.roles := rfl
@[simp] theorem State.dropTile_arb (h : Nat) : (s.dropTile h).arb = s.arb := rfl
@[simp] theorem State.dropTile_mbx (h : Nat) : (s.dropTile h).mbx = s.mbx := rfl
@[simp] theorem State.dropTile_sem (h : Nat) : (s.dropTile h).sem = s.sem := rfl
@[simp] theorem State.dropTile_portA (h : Nat) : (s.dropTile h).portA = s.portA := rfl
@[simp] theorem State.dropTile_portB (h : Nat) : (s.dropTile h).portB = s.portB := rfl
@[simp] theorem State.dropTile_sda (h : Nat) : (s.dropTile h).sda = s.sda := rfl
@[simp] theorem State.dropTile_sdb (h : Nat) : (s.dropTile h).sdb = s.sdb := rfl
@[simp] theorem State.dropTile_cn0 (h : Nat) : (s.dropTile h).cn0 = s.cn0 := rfl
@[simp] theorem State.dropTile_cn1 (h : Nat) : (s.dropTile h).cn1 = s.cn1 := rfl
@[simp] theorem State.dropTile_errField (h : Nat) : (s.dropTile h).errField = s.errField := rfl
@[simp] theorem State.dropTile_shadow (h : Nat) : (s.dropTile h).shadow = s.shadow := rfl
@[simp] theorem State.dropTile_force (h : Nat) : (s.dropTile h).force = s.force := rfl
@[simp] theorem State.dropTile_edgeAt (h : Nat) : (s.dropTile h).edgeAt = s.edgeAt := rfl
@[simp] theorem State.dropTile_edgeShadow (h : Nat) : (s.dropTile h).edgeShadow = s.edgeShadow := rfl
@[simp] theorem State.dropTile_world (h : Nat) : (s.dropTile h).world = s.world := rfl
@[simp] theorem State.dropTile_fus (h : Nat) : (s.dropTile h).fus = s.fus := rfl
@[simp] theorem State.dropTile_loader (h : Nat) : (s.dropTile h).loader = s.loader := rfl
@[simp] theorem State.dropTile_ctxs (h : Nat) : (s.dropTile h).ctxs = s.ctxs := rfl
@[simp] theorem State.dropTile_vfy (h : Nat) : (s.dropTile h).vfy = s.vfy := rfl
@[simp] theorem State.dropTile_saf (h : Nat) : (s.dropTile h).saf = s.saf := rfl
@[simp] theorem State.dropTile_faults (h : Nat) : (s.dropTile h).faults = s.faults := rfl
@[simp] theorem State.dropTile_dump (h : Nat) : (s.dropTile h).dump = s.dump := rfl
@[simp] theorem State.dropTile_wear (h : Nat) : (s.dropTile h).wear = s.wear := rfl
@[simp] theorem State.dropTile_flashWear (h : Nat) : (s.dropTile h).flashWear = s.flashWear := rfl
@[simp] theorem State.dropTile_scrub (h : Nat) : (s.dropTile h).scrub = s.scrub := rfl
@[simp] theorem State.dropTile_links (h : Nat) : (s.dropTile h).links = s.links := rfl
@[simp] theorem State.dropTile_hedge (h : Nat) : (s.dropTile h).hedge = s.hedge := rfl
@[simp] theorem State.dropTile_boot (h : Nat) : (s.dropTile h).boot = s.boot := rfl
@[simp] theorem State.dropTile_images (h : Nat) : (s.dropTile h).images = s.images := rfl
@[simp] theorem State.dropTile_modules (h : Nat) : (s.dropTile h).modules = s.modules := rfl
@[simp] theorem State.dropTile_power (h : Nat) : (s.dropTile h).power = s.power := rfl
@[simp] theorem State.dropTile_recorder (h : Nat) : (s.dropTile h).recorder = s.recorder := rfl
@[simp] theorem State.dropTile_syncOut (h : Nat) : (s.dropTile h).syncOut = s.syncOut := rfl
@[simp] theorem State.dropTile_syncOutEnd (h : Nat) : (s.dropTile h).syncOutEnd = s.syncOutEnd := rfl
@[simp] theorem State.dropTile_store (h : Nat) : (s.dropTile h).store = s.store := rfl
@[simp] theorem State.dropTile_psram (h : Nat) : (s.dropTile h).psram = s.psram := rfl
@[simp] theorem State.dropTile_flash (h : Nat) : (s.dropTile h).flash = s.flash := rfl

/-! ### A member changed -/

@[simp] theorem State.modMember_pending (a : Nat) (f : Member → Member) : (s.modMember a f).pending = s.pending := rfl
@[simp] theorem State.modMember_freeCount (a : Nat) (f : Member → Member) : (s.modMember a f).freeCount = s.freeCount := rfl
@[simp] theorem State.modMember_clk (a : Nat) (f : Member → Member) : (s.modMember a f).clk = s.clk := rfl
@[simp] theorem State.modMember_bus (a : Nat) (f : Member → Member) : (s.modMember a f).bus = s.bus := rfl
@[simp] theorem State.modMember_engines (a : Nat) (f : Member → Member) : (s.modMember a f).engines = s.engines := rfl
@[simp] theorem State.modMember_roles (a : Nat) (f : Member → Member) : (s.modMember a f).roles = s.roles := rfl
@[simp] theorem State.modMember_tds (a : Nat) (f : Member → Member) : (s.modMember a f).tds = s.tds := rfl
@[simp] theorem State.modMember_arb (a : Nat) (f : Member → Member) : (s.modMember a f).arb = s.arb := rfl
@[simp] theorem State.modMember_mbx (a : Nat) (f : Member → Member) : (s.modMember a f).mbx = s.mbx := rfl
@[simp] theorem State.modMember_sem (a : Nat) (f : Member → Member) : (s.modMember a f).sem = s.sem := rfl
@[simp] theorem State.modMember_portA (a : Nat) (f : Member → Member) : (s.modMember a f).portA = s.portA := rfl
@[simp] theorem State.modMember_portB (a : Nat) (f : Member → Member) : (s.modMember a f).portB = s.portB := rfl
@[simp] theorem State.modMember_sda (a : Nat) (f : Member → Member) : (s.modMember a f).sda = s.sda := rfl
@[simp] theorem State.modMember_sdb (a : Nat) (f : Member → Member) : (s.modMember a f).sdb = s.sdb := rfl
@[simp] theorem State.modMember_cn0 (a : Nat) (f : Member → Member) : (s.modMember a f).cn0 = s.cn0 := rfl
@[simp] theorem State.modMember_cn1 (a : Nat) (f : Member → Member) : (s.modMember a f).cn1 = s.cn1 := rfl
@[simp] theorem State.modMember_errField (a : Nat) (f : Member → Member) : (s.modMember a f).errField = s.errField := rfl
@[simp] theorem State.modMember_shadow (a : Nat) (f : Member → Member) : (s.modMember a f).shadow = s.shadow := rfl
@[simp] theorem State.modMember_force (a : Nat) (f : Member → Member) : (s.modMember a f).force = s.force := rfl
@[simp] theorem State.modMember_edgeAt (a : Nat) (f : Member → Member) : (s.modMember a f).edgeAt = s.edgeAt := rfl
@[simp] theorem State.modMember_edgeShadow (a : Nat) (f : Member → Member) : (s.modMember a f).edgeShadow = s.edgeShadow := rfl
@[simp] theorem State.modMember_world (a : Nat) (f : Member → Member) : (s.modMember a f).world = s.world := rfl
@[simp] theorem State.modMember_fus (a : Nat) (f : Member → Member) : (s.modMember a f).fus = s.fus := rfl
@[simp] theorem State.modMember_loader (a : Nat) (f : Member → Member) : (s.modMember a f).loader = s.loader := rfl
@[simp] theorem State.modMember_ctxs (a : Nat) (f : Member → Member) : (s.modMember a f).ctxs = s.ctxs := rfl
@[simp] theorem State.modMember_vfy (a : Nat) (f : Member → Member) : (s.modMember a f).vfy = s.vfy := rfl
@[simp] theorem State.modMember_saf (a : Nat) (f : Member → Member) : (s.modMember a f).saf = s.saf := rfl
@[simp] theorem State.modMember_faults (a : Nat) (f : Member → Member) : (s.modMember a f).faults = s.faults := rfl
@[simp] theorem State.modMember_dump (a : Nat) (f : Member → Member) : (s.modMember a f).dump = s.dump := rfl
@[simp] theorem State.modMember_wear (a : Nat) (f : Member → Member) : (s.modMember a f).wear = s.wear := rfl
@[simp] theorem State.modMember_flashWear (a : Nat) (f : Member → Member) : (s.modMember a f).flashWear = s.flashWear := rfl
@[simp] theorem State.modMember_scrub (a : Nat) (f : Member → Member) : (s.modMember a f).scrub = s.scrub := rfl
@[simp] theorem State.modMember_links (a : Nat) (f : Member → Member) : (s.modMember a f).links = s.links := rfl
@[simp] theorem State.modMember_boot (a : Nat) (f : Member → Member) : (s.modMember a f).boot = s.boot := rfl
@[simp] theorem State.modMember_images (a : Nat) (f : Member → Member) : (s.modMember a f).images = s.images := rfl
@[simp] theorem State.modMember_modules (a : Nat) (f : Member → Member) : (s.modMember a f).modules = s.modules := rfl
@[simp] theorem State.modMember_power (a : Nat) (f : Member → Member) : (s.modMember a f).power = s.power := rfl
@[simp] theorem State.modMember_recorder (a : Nat) (f : Member → Member) : (s.modMember a f).recorder = s.recorder := rfl
@[simp] theorem State.modMember_syncOut (a : Nat) (f : Member → Member) : (s.modMember a f).syncOut = s.syncOut := rfl
@[simp] theorem State.modMember_syncOutEnd (a : Nat) (f : Member → Member) : (s.modMember a f).syncOutEnd = s.syncOutEnd := rfl
@[simp] theorem State.modMember_store (a : Nat) (f : Member → Member) : (s.modMember a f).store = s.store := rfl
@[simp] theorem State.modMember_psram (a : Nat) (f : Member → Member) : (s.modMember a f).psram = s.psram := rfl
@[simp] theorem State.modMember_flash (a : Nat) (f : Member → Member) : (s.modMember a f).flash = s.flash := rfl

/-! ### A slot changed -/

@[simp] theorem State.modSlot_pending (k : Fin 32) (f : Slot → Slot) : (s.modSlot k f).pending = s.pending := rfl
@[simp] theorem State.modSlot_freeCount (k : Fin 32) (f : Slot → Slot) : (s.modSlot k f).freeCount = s.freeCount := rfl
@[simp] theorem State.modSlot_clk (k : Fin 32) (f : Slot → Slot) : (s.modSlot k f).clk = s.clk := rfl
@[simp] theorem State.modSlot_bus (k : Fin 32) (f : Slot → Slot) : (s.modSlot k f).bus = s.bus := rfl
@[simp] theorem State.modSlot_engines (k : Fin 32) (f : Slot → Slot) : (s.modSlot k f).engines = s.engines := rfl
@[simp] theorem State.modSlot_roles (k : Fin 32) (f : Slot → Slot) : (s.modSlot k f).roles = s.roles := rfl
@[simp] theorem State.modSlot_tds (k : Fin 32) (f : Slot → Slot) : (s.modSlot k f).tds = s.tds := rfl
@[simp] theorem State.modSlot_arb (k : Fin 32) (f : Slot → Slot) : (s.modSlot k f).arb = s.arb := rfl
@[simp] theorem State.modSlot_mbx (k : Fin 32) (f : Slot → Slot) : (s.modSlot k f).mbx = s.mbx := rfl
@[simp] theorem State.modSlot_sem (k : Fin 32) (f : Slot → Slot) : (s.modSlot k f).sem = s.sem := rfl
@[simp] theorem State.modSlot_portA (k : Fin 32) (f : Slot → Slot) : (s.modSlot k f).portA = s.portA := rfl
@[simp] theorem State.modSlot_portB (k : Fin 32) (f : Slot → Slot) : (s.modSlot k f).portB = s.portB := rfl
@[simp] theorem State.modSlot_sda (k : Fin 32) (f : Slot → Slot) : (s.modSlot k f).sda = s.sda := rfl
@[simp] theorem State.modSlot_sdb (k : Fin 32) (f : Slot → Slot) : (s.modSlot k f).sdb = s.sdb := rfl
@[simp] theorem State.modSlot_cn0 (k : Fin 32) (f : Slot → Slot) : (s.modSlot k f).cn0 = s.cn0 := rfl
@[simp] theorem State.modSlot_cn1 (k : Fin 32) (f : Slot → Slot) : (s.modSlot k f).cn1 = s.cn1 := rfl
@[simp] theorem State.modSlot_errField (k : Fin 32) (f : Slot → Slot) : (s.modSlot k f).errField = s.errField := rfl
@[simp] theorem State.modSlot_shadow (k : Fin 32) (f : Slot → Slot) : (s.modSlot k f).shadow = s.shadow := rfl
@[simp] theorem State.modSlot_force (k : Fin 32) (f : Slot → Slot) : (s.modSlot k f).force = s.force := rfl
@[simp] theorem State.modSlot_edgeAt (k : Fin 32) (f : Slot → Slot) : (s.modSlot k f).edgeAt = s.edgeAt := rfl
@[simp] theorem State.modSlot_edgeShadow (k : Fin 32) (f : Slot → Slot) : (s.modSlot k f).edgeShadow = s.edgeShadow := rfl
@[simp] theorem State.modSlot_world (k : Fin 32) (f : Slot → Slot) : (s.modSlot k f).world = s.world := rfl
@[simp] theorem State.modSlot_fus (k : Fin 32) (f : Slot → Slot) : (s.modSlot k f).fus = s.fus := rfl
@[simp] theorem State.modSlot_loader (k : Fin 32) (f : Slot → Slot) : (s.modSlot k f).loader = s.loader := rfl
@[simp] theorem State.modSlot_ctxs (k : Fin 32) (f : Slot → Slot) : (s.modSlot k f).ctxs = s.ctxs := rfl
@[simp] theorem State.modSlot_vfy (k : Fin 32) (f : Slot → Slot) : (s.modSlot k f).vfy = s.vfy := rfl
@[simp] theorem State.modSlot_saf (k : Fin 32) (f : Slot → Slot) : (s.modSlot k f).saf = s.saf := rfl
@[simp] theorem State.modSlot_faults (k : Fin 32) (f : Slot → Slot) : (s.modSlot k f).faults = s.faults := rfl
@[simp] theorem State.modSlot_dump (k : Fin 32) (f : Slot → Slot) : (s.modSlot k f).dump = s.dump := rfl
@[simp] theorem State.modSlot_wear (k : Fin 32) (f : Slot → Slot) : (s.modSlot k f).wear = s.wear := rfl
@[simp] theorem State.modSlot_flashWear (k : Fin 32) (f : Slot → Slot) : (s.modSlot k f).flashWear = s.flashWear := rfl
@[simp] theorem State.modSlot_scrub (k : Fin 32) (f : Slot → Slot) : (s.modSlot k f).scrub = s.scrub := rfl
@[simp] theorem State.modSlot_links (k : Fin 32) (f : Slot → Slot) : (s.modSlot k f).links = s.links := rfl
@[simp] theorem State.modSlot_hedge (k : Fin 32) (f : Slot → Slot) : (s.modSlot k f).hedge = s.hedge := rfl
@[simp] theorem State.modSlot_boot (k : Fin 32) (f : Slot → Slot) : (s.modSlot k f).boot = s.boot := rfl
@[simp] theorem State.modSlot_images (k : Fin 32) (f : Slot → Slot) : (s.modSlot k f).images = s.images := rfl
@[simp] theorem State.modSlot_power (k : Fin 32) (f : Slot → Slot) : (s.modSlot k f).power = s.power := rfl
@[simp] theorem State.modSlot_recorder (k : Fin 32) (f : Slot → Slot) : (s.modSlot k f).recorder = s.recorder := rfl
@[simp] theorem State.modSlot_syncOut (k : Fin 32) (f : Slot → Slot) : (s.modSlot k f).syncOut = s.syncOut := rfl
@[simp] theorem State.modSlot_syncOutEnd (k : Fin 32) (f : Slot → Slot) : (s.modSlot k f).syncOutEnd = s.syncOutEnd := rfl
@[simp] theorem State.modSlot_store (k : Fin 32) (f : Slot → Slot) : (s.modSlot k f).store = s.store := rfl
@[simp] theorem State.modSlot_psram (k : Fin 32) (f : Slot → Slot) : (s.modSlot k f).psram = s.psram := rfl
@[simp] theorem State.modSlot_flash (k : Fin 32) (f : Slot → Slot) : (s.modSlot k f).flash = s.flash := rfl

/-! ## What an update makes of its unit -/

@[simp] theorem State.reply_bus (r : BusReply) : (s.reply r).bus = r := rfl
@[simp] theorem State.okBus_bus : s.okBus.bus = .ok 0 := rfl
@[simp] theorem State.busErr_bus : s.busErr.bus = .error := rfl
@[simp] theorem State.free_freeCount (w : Nat) : (s.free w).2.freeCount = s.freeCount + 1 := rfl
@[simp] theorem State.free_value (w : Nat) : (s.free w).1 = Config.freeBits w s.freeCount := rfl

@[simp] theorem State.modCtx_ctx_same (c : CtxId) (f : Ctx → Ctx) : (s.modCtx c f).ctx c = f (s.ctx c) :=
  vupd_same s.ctxs c f
theorem State.modCtx_ctx_other {c d : CtxId} (f : Ctx → Ctx) (h : c ≠ d) : (s.modCtx c f).ctx d = s.ctx d :=
  vupd_other s.ctxs f h
@[simp] theorem State.modEng_eng_same (n : EngId) (f : Engine → Engine) : (s.modEng n f).eng n = f (s.eng n) :=
  vupd_same s.engines n f
theorem State.modEng_eng_other {n k : EngId} (f : Engine → Engine) (h : n ≠ k) : (s.modEng n f).eng k = s.eng k :=
  vupd_other s.engines f h
@[simp] theorem State.modLink_link_same (l : LinkId) (f : LinkPort → LinkPort) : (s.modLink l f).link l = f (s.link l) :=
  vupd_same s.links l f
theorem State.modLink_link_other {l k : LinkId} (f : LinkPort → LinkPort) (h : l ≠ k) : (s.modLink l f).link k = s.link k :=
  vupd_other s.links f h
@[simp] theorem State.modSlot_slot_same (k : Fin 32) (f : Slot → Slot) : (s.modSlot k f).slot k = f (s.slot k) :=
  vupd_same s.modules.slots k f
theorem State.modSlot_slot_other {k j : Fin 32} (f : Slot → Slot) (h : k ≠ j) : (s.modSlot k f).slot j = s.slot j :=
  vupd_other s.modules.slots f h

@[simp] theorem State.modPort_port_same (p : Port) (f : PortSt → PortSt) : (s.modPort p f).port p = f (s.port p) := by
  cases p <;> rfl
theorem State.modPort_port_other {p q : Port} (f : PortSt → PortSt) (h : p ≠ q) : (s.modPort p f).port q = s.port q := by
  cases p <;> cases q <;> first | rfl | exact absurd rfl h
@[simp] theorem State.modSd_sd_same (i : SdIf) (f : Sd → Sd) : (s.modSd i f).sd i = f (s.sd i) := by cases i <;> rfl
theorem State.modSd_sd_other {i j : SdIf} (f : Sd → Sd) (h : i ≠ j) : (s.modSd i f).sd j = s.sd j := by
  cases i <;> cases j <;> first | rfl | exact absurd rfl h
@[simp] theorem State.modCan_can_same (n : CanIf) (f : Can → Can) : (s.modCan n f).can n = f (s.can n) := by cases n <;> rfl
theorem State.modCan_can_other {n k : CanIf} (f : Can → Can) (h : n ≠ k) : (s.modCan n f).can k = s.can k := by
  cases n <;> cases k <;> first | rfl | exact absurd rfl h

@[simp] theorem State.modCnt_cnt_same (c : CtxId) (f : Counters → Counters) :
    ((s.modCnt c f).ctx c).cnt = f (s.ctx c).cnt := by simp [State.modCnt]
@[simp] theorem State.modRm_rm_same (c : CtxId) (f : Roadmap → Roadmap) : ((s.modRm c f).ctx c).rm = f (s.ctx c).rm := by
  simp [State.modRm]
@[simp] theorem State.modRun_run_same (c : CtxId) (f : FrameRun → FrameRun) :
    ((s.modRun c f).ctx c).run = (s.ctx c).run.map f := by simp [State.modRun]
@[simp] theorem State.setRun_run_same (c : CtxId) (r : FrameRun) : ((s.setRun c r).ctx c).run = some r := by
  simp [State.setRun]

/-! ## Reset -/

@[simp] theorem State.reset_pending : State.reset.pending = [] := rfl
@[simp] theorem State.reset_store : State.reset.store = [] := rfl
@[simp] theorem State.reset_psram : State.reset.psram = [] := rfl
@[simp] theorem State.reset_flash : State.reset.flash = [] := rfl

end Sys2Proof.Machine
end

