-- ==== Sys2Proof/Laws/Ops.lean ====
section
/-! SUPPORT. Everything that each shared operation can do, said once: what it moves, and that it moves nothing else. -/

namespace Sys2Proof.Machine

/-- A relation that every step of a fold keeps, from a reflexive and transitive one. -/
theorem foldl_rel {α β : Type} {R : α → α → Prop} (refl : ∀ a, R a a) (trans : ∀ a b c, R a b → R b c → R a c)
    {f : α → β → α} (h : ∀ a x, R a (f a x)) (l : List β) (a : α) : R a (l.foldl f a) := by
  induction l generalizing a with
  | nil => exact refl a
  | cons x l ih => exact trans _ _ _ (h a x) (ih _)

/-! ## Sending: the link ports and the hedge move -/

/-- What sending on the links moves. -/
def LinkFrame (s t : State) : Prop := t = { s with links := t.links, hedge := t.hedge }

theorem LinkFrame.refl (s : State) : LinkFrame s s := rfl
theorem LinkFrame.trans (a b c : State) (h : LinkFrame a b) (k : LinkFrame b c) : LinkFrame a c := by
  unfold LinkFrame at *
  rw [k, h]

theorem sendOn_frame (s : State) (l : LinkId) (f : Flit) : LinkFrame s (sendOn s l f) := rfl

theorem routeFlit_frame (s : State) (f : Flit) : LinkFrame s (routeFlit s f) := by
  unfold routeFlit
  split <;> rfl

theorem sendFlit_frame (s : State) (f : Flit) : LinkFrame s (sendFlit s f) :=
  LinkFrame.trans _ _ _ (by rfl) (routeFlit_frame { s with hedge := { s.hedge with lastTx := s.clk.now } } f)

theorem sendTo_frame (s : State) (dest ty ctx : Nat) (bs : Bytes) : LinkFrame s (sendTo s dest ty ctx bs) :=
  foldl_rel LinkFrame.refl LinkFrame.trans (fun _ _ => sendFlit_frame _ _) _ _

theorem sendMask_frame (s : State) (f : Flit) : LinkFrame s (sendMask s f) :=
  foldl_rel LinkFrame.refl LinkFrame.trans (fun _ _ => sendOn_frame _ _ _) _ _

theorem broadcast_frame (s : State) (ty ctx : Nat) (bs : Bytes) : LinkFrame s (broadcast s ty ctx bs) :=
  foldl_rel LinkFrame.refl LinkFrame.trans (fun _ _ => sendMask_frame _ _) _ _

theorem broadcastEntry_frame (s : State) (src : Nat) (e : Bytes) : LinkFrame s (broadcastEntry s src e) := by
  unfold broadcastEntry
  split
  · refine LinkFrame.trans s { s with hedge := { s.hedge with heads := s.hedge.heads ++ e.take 16 } } _ rfl ?_
    exact broadcast_frame _ _ _ _
  · exact LinkFrame.refl s

/-- A chip that leads no hedge broadcasts nothing. -/
theorem broadcastEntry_alone {s : State} (h : leads s = false) (src : Nat) (e : Bytes) : broadcastEntry s src e = s := by
  simp [broadcastEntry, h]

/-! ## The record ring (R426-R430, R433) -/

/-- What an entry of the ring moves. -/
def RingFrame (s t : State) : Prop := t = { s with recorder := t.recorder, psram := t.psram }

theorem RingFrame.trans (a b c : State) (h : RingFrame a b) (k : RingFrame b c) : RingFrame a c := by
  unfold RingFrame at *
  rw [k, h]

theorem ringPut_frame (s : State) (e : RingEnt) (bs : Bytes) : RingFrame s (ringPut s e bs).1 := by
  simp only [ringPut]
  repeat' split
  all_goals rfl

theorem ringPut_psram_wf {s : State} (h : Memory.wf s.psram = true) (e : RingEnt) (bs : Bytes) :
    Memory.wf (ringPut s e bs).1.psram = true := by
  have hw := Memory.wf_ringWrite h (recBase s) (recSize s) s.recorder.head bs
  simp only [ringPut]
  repeat' split
  all_goals first | exact h | exact hw

/-- A refused entry is not written. -/
theorem ringPut_refused {s : State} {e : RingEnt} {bs : Bytes} (h : (ringPut s e bs).2 = false) :
    (ringPut s e bs).1.psram = s.psram := by
  revert h
  simp only [ringPut]
  repeat' split
  all_goals simp

/-- Entries put one after another move what one moves, and keep the memory's form. -/
theorem ringPuts_frame (l : List (RingEnt × Bytes)) : ∀ s : State, RingFrame s (ringPuts s l).1 := by
  induction l with
  | nil => intro s; rfl
  | cons x t ih =>
    intro s
    have h := ringPut_frame s x.1 x.2
    simp only [ringPuts]
    split
    · exact RingFrame.trans _ _ _ h (ih _)
    · exact h

theorem ringPuts_psram_wf (l : List (RingEnt × Bytes)) :
    ∀ s : State, Memory.wf s.psram = true → Memory.wf (ringPuts s l).1.psram = true := by
  induction l with
  | nil => intro s h; exact h
  | cons x t ih =>
    intro s h
    have k := ringPut_psram_wf h x.1 x.2
    simp only [ringPuts]
    split
    · exact ih _ k
    · exact k

theorem ringInsert_frame (s : State) (e : RingEnt) (bs : Bytes) : RingFrame s (ringInsert s e bs).1 := by
  simp only [ringInsert]
  split
  · exact ringPut_frame s e bs
  · split
    · exact RingFrame.trans s _ _ (by rfl) (ringPuts_frame _ _)
    · rfl

theorem ringInsert_psram_wf {s : State} (h : Memory.wf s.psram = true) (e : RingEnt) (bs : Bytes) :
    Memory.wf (ringInsert s e bs).1.psram = true := by
  simp only [ringInsert]
  split
  · exact ringPut_psram_wf h e bs
  · split
    · exact ringPuts_psram_wf _ _ h
    · exact h

/-- An entry that no entry of the ring has to follow is put at the head. -/
theorem ringInsert_last {s : State} {e : RingEnt} (h : (ringSplit e.tick e.key s.recorder.ents).2 = []) (bs : Bytes) :
    ringInsert s e bs = ringPut s e bs := by
  unfold ringInsert
  generalize hp : ringSplit e.tick e.key s.recorder.ents = p at h
  obtain ⟨a, b⟩ := p
  subst h
  rfl

/-- Entries of no later tick let an entry that is no world input go to the end. -/
theorem ringSplit_last (tick : Nat) (l : List RingEnt) (h : ∀ e ∈ l, e.tick ≤ tick) : (ringSplit tick none l).2 = [] := by
  induction l with
  | nil => rfl
  | cons e t ih =>
    have h1 := h e (by simp)
    have h2 := ih fun x hx => h x (by simp [hx])
    simp [ringSplit, Nat.not_lt.mpr h1, h2]

theorem recordRing_off {s : State} (h : s.recorder.st ≠ 1) (tick ty src : Nat) (p : Bytes) :
    recordRing s tick ty src p = s := by
  simp [recordRing, tryRecord, h]

theorem recordRing_frame (s : State) (tick ty src : Nat) (p : Bytes) : RingFrame s (recordRing s tick ty src p) := by
  have key : ∀ (s0 : State) (t : RingEnt) (b : Bytes), RingFrame s s0 → RingFrame s (ringInsert s0 t b).1 :=
    fun s0 t b h => RingFrame.trans _ _ _ h (ringInsert_frame s0 t b)
  have ext : ∀ (s0 : State) (r : Recorder), RingFrame s s0 → RingFrame s { s0 with recorder := r } :=
    fun s0 r h => RingFrame.trans _ _ _ h rfl
  unfold recordRing tryRecord
  split
  · rfl
  · split
    · rfl
    · dsimp only
      repeat' split
      all_goals
        first
        | exact key _ _ _ rfl
        | exact ext _ _ (key _ _ _ rfl)
        | exact key _ _ _ (ext _ _ (key _ _ _ rfl))
        | exact ext _ _ (key _ _ _ (ext _ _ (key _ _ _ rfl)))

theorem recordRing_psram_wf {s : State} (h : Memory.wf s.psram = true) (tick ty src : Nat) (p : Bytes) :
    Memory.wf (recordRing s tick ty src p).psram = true := by
  have key : ∀ (s0 : State) (t : RingEnt) (b : Bytes), Memory.wf s0.psram = true →
      Memory.wf (ringInsert s0 t b).1.psram = true := fun s0 t b k => ringInsert_psram_wf k t b
  unfold recordRing tryRecord
  split
  · exact h
  · split
    · exact h
    · dsimp only
      repeat' split
      all_goals
        first
        | exact key _ _ _ h
        | exact key _ _ _ (key _ _ _ h)

/-- A CAN frame or an SDIO command noted moves the ring. -/
theorem noteCan_frame (s : State) (src id : Nat) (d : Bytes) : RingFrame s (noteCan s src id d) := recordRing_frame s _ _ _ _

theorem noteSdio_frame (s : State) (src cmd arg : Nat) : RingFrame s (noteSdio s src cmd arg) := recordRing_frame s _ _ _ _

/-- An entry recorded moves the ring, and on a leading chip the links. -/
theorem record_frame (s : State) (tick ty src : Nat) (p : Bytes) : RecordFrame s (record s tick ty src p) := by
  have h := recordRing_frame s tick ty src p
  have k := broadcastEntry_frame (recordRing s tick ty src p) src (entryBytes tick ty src p)
  unfold LinkFrame at k
  unfold RingFrame at h
  unfold RecordFrame record
  rw [k, h]

theorem record_psram_wf {s : State} (h : Memory.wf s.psram = true) (tick ty src : Nat) (p : Bytes) :
    Memory.wf (record s tick ty src p).psram = true := by
  have k := broadcastEntry_frame (recordRing s tick ty src p) src (entryBytes tick ty src p)
  unfold LinkFrame at k
  unfold record
  rw [k]
  exact recordRing_psram_wf h tick ty src p

/-- A Recorder that is off, on a chip that leads no hedge, records nothing. -/
theorem record_off {s : State} (h : s.recorder.st ≠ 1) (hl : leads s = false) (tick ty src : Nat) (p : Bytes) :
    record s tick ty src p = s := by
  unfold record
  rw [recordRing_off h, broadcastEntry_alone hl]

/-! ## Fault records (R515-R518) -/

/-- What a fault record moves. -/
def FaultFrame (s t : State) : Prop := t = { s with faults := t.faults, ctxs := t.ctxs, links := t.links, hedge := t.hedge }

theorem FaultFrame.trans (a b c : State) (h : FaultFrame a b) (k : FaultFrame b c) : FaultFrame a c := by
  unfold FaultFrame at *
  rw [k, h]

theorem sendTo_faultFrame (s : State) (dest ty ctx : Nat) (bs : Bytes) : FaultFrame s (sendTo s dest ty ctx bs) := by
  have k := sendTo_frame s dest ty ctx bs
  unfold LinkFrame at k
  unfold FaultFrame
  rw [k]

theorem modRun_faultFrame (s : State) (c : CtxId) (f : FrameRun → FrameRun) : FaultFrame s (s.modRun c f) := rfl

theorem putRecord_frame (s : State) (r : FaultRec) : FaultFrame s (putRecord s r) := by
  have marked : ∀ s0, FaultFrame s s0 →
      FaultFrame s (allCtx.foldl (fun t c => t.modRun c fun x => { x with faulted := true }) s0) := fun s0 h =>
    FaultFrame.trans _ _ _ h
      (foldl_rel (R := FaultFrame) (fun _ => rfl) FaultFrame.trans (fun a x => modRun_faultFrame a x _) _ _)
  dsimp only [putRecord]
  split
  · exact marked _ rfl
  · split <;> rfl

theorem faultAt_frame (s : State) (chip ctx dom fcode engA engB action detail : Nat) :
    FaultFrame { s with freeCount := (faultAt s chip ctx dom fcode engA engB action detail).freeCount }
      (faultAt s chip ctx dom fcode engA engB action detail) := by
  have sent : ∀ (s0 : State) (r : FaultRec), FaultFrame s0
      (if isMember (putRecord s0 r) then sendTo (putRecord s0 r) 0 tyFault 0xFF r.bytes else putRecord s0 r) := by
    intro s0 r
    split
    · exact FaultFrame.trans _ _ _ (putRecord_frame s0 r) (sendTo_faultFrame _ _ _ _ _)
    · exact putRecord_frame s0 r
  have k : ∀ n r, FaultFrame
      { s with freeCount := (if isMember (putRecord { s with freeCount := n } r) then
        sendTo (putRecord { s with freeCount := n } r) 0 tyFault 0xFF r.bytes else putRecord { s with freeCount := n } r).freeCount }
      (if isMember (putRecord { s with freeCount := n } r) then
        sendTo (putRecord { s with freeCount := n } r) 0 tyFault 0xFF r.bytes else putRecord { s with freeCount := n } r) := by
    intro n r
    have h := sent { s with freeCount := n } r
    unfold FaultFrame at h ⊢
    rw [h]
  exact k _ _

/-- A finding of the chip itself draws no free value. -/
theorem fault_frame (s : State) (ctx dom fcode engA engB action detail : Nat) :
    FaultFrame s (fault s ctx dom fcode engA engB action detail) := by
  have h := faultAt_frame s s.chip ctx dom fcode engA engB action detail
  have k : (faultAt s s.chip ctx dom fcode engA engB action detail).freeCount = s.freeCount := by
    have sent : ∀ (s0 : State) (r : FaultRec),
        (if isMember (putRecord s0 r) then sendTo (putRecord s0 r) 0 tyFault 0xFF r.bytes else putRecord s0 r).freeCount =
          s0.freeCount := by
      intro s0 r
      have h1 := putRecord_frame s0 r
      have h2 := sendTo_faultFrame (putRecord s0 r) 0 tyFault 0xFF r.bytes
      unfold FaultFrame at h1 h2
      split
      · rw [h2, h1]
      · rw [h1]
    have e := sent { s with freeCount := s.freeCount + bit (s.chip != s.chip && decide (dom < 18)) }
    have z : bit (s.chip != s.chip && decide (dom < 18)) = 0 := by simp [bit]
    rw [z] at e
    unfold faultAt
    simp only [z]
    exact e _
  rw [k] at h
  exact h

/-! ## EMCY, events and pins -/

/-- An EMCY moves the CAN controllers and the pre-defined error field. -/
theorem emcy_frame (s : State) (c b3 data : Nat) :
    emcy s c b3 data =
      { s with cn0 := (emcy s c b3 data).cn0, cn1 := (emcy s c b3 data).cn1, errField := (emcy s c b3 data).errField } := by
  unfold emcy
  split <;> rfl

/-- A member of a hedge sends no EMCY (R610). -/
theorem emcy_member {s : State} (h : isMember s = true) (c b3 data : Nat) : emcy s c b3 data = s := by
  simp [emcy, h]

/-- An EMCY is silent in replay. -/
theorem emcy_replay {s : State} (h : s.replaying = true) (c b3 data : Nat) : emcy s c b3 data = s := by
  simp [emcy, h]

/-- The pins driven move the safety island alone. -/
theorem drivePins_frame (s : State) : drivePins s = { s with saf := (drivePins s).saf } := by
  unfold drivePins
  split <;> rfl

/-- What PERMIT and the safe levels ask for is what is driven (R447, R449). -/
theorem drivePins_levels {s : State} (h : s.saf.outEn = true) :
    (drivePins s).saf.driveA = s.permit ∧ (drivePins s).saf.driveB = !s.permit := by
  simp [drivePins, h]

/-- Giving a thread to a core moves no event flag and no queue. -/
theorem Tds.give_frame (d : Tds) (c : CoreId) (t : ThreadId) :
    d.give c t = { d with threads := (d.give c t).threads, cores := (d.give c t).cores } := rfl

/-- A thread that becomes READY moves the threads, the core windows, the ready queue, the preemption requests
and the edge's record. -/
theorem Tds.makeReady_frame (d : Tds) (k : Fin 258) (t : ThreadId) :
    d.makeReady k t =
      { d with
        threads := (d.makeReady k t).threads, cores := (d.makeReady k t).cores, readyQ := (d.makeReady k t).readyQ
        preempt := (d.makeReady k t).preempt, edge := (d.makeReady k t).edge } := by
  simp only [Tds.makeReady, Tds.append]
  repeat' split
  all_goals rfl

/-! ## Objects and store regions (R16, R556) -/

/-- A value applied reads back, and every other object keeps its value. -/
theorem setObj_shadow (s : State) (index sub : Nat) (v : Bytes) :
    amGet (setObj s index sub v).shadow (objKey index sub) = some v ∧
      ∀ k, k ≠ objKey index sub → amGet (setObj s index sub v).shadow k = amGet s.shadow k :=
  ⟨amGet_amPut_same _ _ _, fun _ h => amGet_amPut_other _ _ h⟩

/-- An object applied moves the shadow values alone. -/
theorem setObj_frame (s : State) (index sub : Nat) (v : Bytes) :
    setObj s index sub v = { s with shadow := (setObj s index sub v).shadow } := rfl

/-- A write of a port moves the shadow values, and keeps those before it for a boundary at this edge (R14). -/
theorem writeObj_frame (s : State) (index sub : Nat) (v : Bytes) :
    writeObj s index sub v =
      { s with
        shadow := (writeObj s index sub v).shadow, edgeAt := some s.clk.now, edgeShadow := boundaryShadow s } := rfl

/-- A frame boundary that meets a write completing at its own edge takes the values from before it (R14). -/
theorem writeObj_boundary (s : State) (index sub : Nat) (v : Bytes) :
    boundaryShadow (writeObj s index sub v) = boundaryShadow s := by
  simp [boundaryShadow, writeObj]

/-- Live values taken into force move nothing but the values in force (R16). -/
theorem applyLive_frame (s : State) (index : Nat) :
    applyLive s index = { s with force := (applyLive s index).force } := rfl

/-- Bytes written to a store region move the store alone. -/
theorem storePut_frame (s : State) (kind : Nat) (c : CtxId) (off : Nat) (bs : Bytes) :
    storePut s kind c off bs = { s with store := (storePut s kind c off bs).store } := by
  unfold storePut
  split <;> rfl

theorem storePut_wf {s : State} (h : Memory.wf s.store = true) (kind : Nat) (c : CtxId) (off : Nat) (bs : Bytes) :
    Memory.wf (storePut s kind c off bs).store = true := by
  unfold storePut
  split
  · exact Memory.wf_memWrite h _ _
  · exact h

/-! ## Corollaries that every meaning over these operations uses -/

@[simp] theorem record_pending (s : State) (tick ty src : Nat) (p : Bytes) : (record s tick ty src p).pending = s.pending :=
  (record_frame s tick ty src p).symm ▸ rfl
@[simp] theorem record_store (s : State) (tick ty src : Nat) (p : Bytes) : (record s tick ty src p).store = s.store :=
  (record_frame s tick ty src p).symm ▸ rfl
@[simp] theorem record_flash (s : State) (tick ty src : Nat) (p : Bytes) : (record s tick ty src p).flash = s.flash :=
  (record_frame s tick ty src p).symm ▸ rfl
@[simp] theorem sendTo_pending (s : State) (d ty c : Nat) (b : Bytes) : (sendTo s d ty c b).pending = s.pending :=
  (sendTo_frame s d ty c b).symm ▸ rfl
@[simp] theorem sendTo_store (s : State) (d ty c : Nat) (b : Bytes) : (sendTo s d ty c b).store = s.store :=
  (sendTo_frame s d ty c b).symm ▸ rfl
@[simp] theorem sendTo_psram (s : State) (d ty c : Nat) (b : Bytes) : (sendTo s d ty c b).psram = s.psram :=
  (sendTo_frame s d ty c b).symm ▸ rfl
@[simp] theorem sendTo_flash (s : State) (d ty c : Nat) (b : Bytes) : (sendTo s d ty c b).flash = s.flash :=
  (sendTo_frame s d ty c b).symm ▸ rfl
@[simp] theorem broadcast_pending (s : State) (ty c : Nat) (b : Bytes) : (broadcast s ty c b).pending = s.pending :=
  (broadcast_frame s ty c b).symm ▸ rfl
@[simp] theorem broadcast_store (s : State) (ty c : Nat) (b : Bytes) : (broadcast s ty c b).store = s.store :=
  (broadcast_frame s ty c b).symm ▸ rfl
@[simp] theorem broadcast_psram (s : State) (ty c : Nat) (b : Bytes) : (broadcast s ty c b).psram = s.psram :=
  (broadcast_frame s ty c b).symm ▸ rfl
@[simp] theorem broadcast_flash (s : State) (ty c : Nat) (b : Bytes) : (broadcast s ty c b).flash = s.flash :=
  (broadcast_frame s ty c b).symm ▸ rfl
@[simp] theorem fault_pending (s : State) (a b c d e f g : Nat) : (fault s a b c d e f g).pending = s.pending :=
  (fault_frame s a b c d e f g).symm ▸ rfl
@[simp] theorem fault_store (s : State) (a b c d e f g : Nat) : (fault s a b c d e f g).store = s.store :=
  (fault_frame s a b c d e f g).symm ▸ rfl
@[simp] theorem fault_psram (s : State) (a b c d e f g : Nat) : (fault s a b c d e f g).psram = s.psram :=
  (fault_frame s a b c d e f g).symm ▸ rfl
@[simp] theorem fault_flash (s : State) (a b c d e f g : Nat) : (fault s a b c d e f g).flash = s.flash :=
  (fault_frame s a b c d e f g).symm ▸ rfl
@[simp] theorem emcy_pending (s : State) (c b d : Nat) : (emcy s c b d).pending = s.pending :=
  (emcy_frame s c b d).symm ▸ rfl
@[simp] theorem emcy_store (s : State) (c b d : Nat) : (emcy s c b d).store = s.store := (emcy_frame s c b d).symm ▸ rfl
@[simp] theorem emcy_psram (s : State) (c b d : Nat) : (emcy s c b d).psram = s.psram := (emcy_frame s c b d).symm ▸ rfl
@[simp] theorem emcy_flash (s : State) (c b d : Nat) : (emcy s c b d).flash = s.flash := (emcy_frame s c b d).symm ▸ rfl
@[simp] theorem drivePins_pending (s : State) : (drivePins s).pending = s.pending := (drivePins_frame s).symm ▸ rfl
@[simp] theorem drivePins_store (s : State) : (drivePins s).store = s.store := (drivePins_frame s).symm ▸ rfl
@[simp] theorem drivePins_psram (s : State) : (drivePins s).psram = s.psram := (drivePins_frame s).symm ▸ rfl
@[simp] theorem drivePins_flash (s : State) : (drivePins s).flash = s.flash := (drivePins_frame s).symm ▸ rfl

end Sys2Proof.Machine
end

