-- ==== Sys2Proof/Tests/Slice0.lean ====
section
/-! SUPPORT. Small tests: ill-formed commands that the check refuses, a state that meets the hypotheses of each statement,
and single steps whose results the spec gives. -/

namespace Sys2Proof.Machine

-- one theorem after another: many at once would each hold a stack of the thread that waits for the kernel
set_option Elab.async false

/-! ### States that the tests start from -/

/-- A part in service, nothing running: READY, engines idle. -/
def up : State := { State.reset with
  boot := { State.reset.boot with phase := .on, pwrgd := true, st := 5 }
  engines := Vector.replicate 18 { Engine.reset with st := .idle } }

/-- The part in service at an ACLK count. -/
def upAt (now : Nat) : State := { up with clk := { up.clk with now := now } }

/-- What a command leaves; a stop leaves nothing new. -/
def after (c : Instr) (s : State) : State := match exec c s with
  | .next t => t
  | .fault _ => s
  | .refused _ => s

/-- A tile of context 0. -/
def tile0 (handle station : Nat) (st : TileStatus) : Tile :=
  { (default : Tile) with handle := handle, station := station, status := st }

/-- Tiles put into the list. -/
def State.tiled (s : State) (l : List Tile) : State := { s with tds := { s.tds with tiles := l, nextHandle := 100 } }

/-- A context in a state. -/
def State.ctxSt (s : State) (c : CtxId) (st : CtxState) : State := s.modCtx c fun x => { x with st := st }

/-- A thread in a state, its core and its affinity. -/
def State.thr (s : State) (t : ThreadId) (st : ThState) : State :=
  { s with tds := { s.tds with threads := vupd s.tds.threads t fun x => { x with st := st, aff := 0x1F } } }

/-- What a core runs, and its argument. -/
def State.core (s : State) (c : CoreId) (run : Option ThreadId) (arg : BitVec 24) : State :=
  { s with tds := { s.tds with cores := vupd s.tds.cores c fun w => { w with run := run, arg := arg } } }

/-- A flow that holds slots. -/
def State.flow (s : State) (f : FlowId) (l : List FlowSlot) : State :=
  { s with tds := { s.tds with flows := vupd s.tds.flows f fun x => { x with slots := l } } }

/-- A chip that has been admitted to a hedge as member 2. -/
def State.joined (s : State) : State :=
  { s with
    hedge := { s.hedge with admitted := true, applies := true }
    boot := { s.boot with cfg := { s.boot.cfg with hedge := { s.boot.cfg.hedge with addr := 2, levels := 1 } } } }

/-! ### Queue, threads, flows, Arbiter, mailboxes, engines, tiles: the hypotheses are met -/

theorem test_meets_StepRunsFront : ({ up with pending := [.syncInEdge, .gridTick] } : State).pending = .syncInEdge :: [.gridTick] := by
  decide +kernel

theorem test_meets_IdleStepIsOneTick : up.pending = [] ∧ (up.eng 0).st ≠ .run ∧ up.boot.phase ≠ .coreOff ∧
    ((up.modEng 0 fun e => { e with st := .run }).eng 0).st = .run := by decide +kernel

/-- StepUsesOneCommand and MemoriesStayCanonical: a step from a state in canonical form. -/
theorem test_meets_MemoriesStayCanonical : MemInv up ∧ ∃ t, step up = .next t := by
  exact ⟨⟨rfl, rfl, rfl⟩, _, rfl⟩

theorem test_meets_ThreadCommandsRun :
    let s := ((((up.thr 255 .running).thr 1 .blocked).thr 2 .ready).core 4 (some 255) 0x20)
    s.tds.cores[(4 : CoreId)].stalled = false ∧ OwnTurn 4 s ∧ s.tds.threads[(0 : ThreadId)].st = .dormant ∧ s.arg 4 / 32 % 32 ≠ 0 ∧
      s.tds.threads[(1 : ThreadId)].st = .blocked ∧
      (s.tds.cores[(4 : CoreId)].run = some 255 ∧ s.tds.threads[(255 : ThreadId)].st = .running) ∧ s.arg 4 ≠ 0 ∧
      s.tds.threads[(2 : ThreadId)].st ≠ .dormant := by
  unfold OwnTurn
  decide +kernel

theorem test_meets_ThreadCommandsRefused :
    let s := (up.thr 255 .running).core 4 (some 255) 0
    let two := { ((up.thr 255 .blocked).thr 1 .blocked) with pending := [.ready 3 3 1] }
    let ahead := { up with tds := { up.tds with edge := { at_ := 0, fresh := [], early := [4] } } }
    (OwnTurn 4 s ∧ OwnTurn 3 two) ∧
      ((3 : CoreId) < 4 ∧ (4 : CoreId) ∉ two.edgeTds.edge.early ∧
        (∀ j : CoreId, j < 4 → j ≠ 3 → (two.pending.find? fun i => issuer i == some j).bind asCoreCmd = none) ∧
        two.pending.find? (fun i => issuer i == some 3) = some (.ready 3 3 1) ∧ (∀ j : CoreId, two.tds.cores[j].stalled = false) ∧
        two.tds.threads[(255 : ThreadId)].st = .blocked ∧ two.tds.threads[(1 : ThreadId)].st = .blocked) ∧
      (4 : CoreId) ∈ ahead.edgeTds.edge.early ∧
    (3 : CoreId) ≠ 4 ∧ s.tds.cores[(4 : CoreId)].stalled = false ∧ s.tds.threads[(255 : ThreadId)].st ≠ .dormant ∧
      (s.tds.threads[(0 : ThreadId)].st = .dormant ∧ s.arg 4 / 32 % 32 = 0) ∧ s.tds.threads[(0 : ThreadId)].st ≠ .blocked ∧
      ¬(s.tds.cores[(4 : CoreId)].run = some 0 ∧ s.tds.threads[(0 : ThreadId)].st = .running) ∧
      (s.tds.cores[(4 : CoreId)].run = some 255 ∧ s.tds.threads[(255 : ThreadId)].st = .running) ∧ s.arg 4 = 0 := by
  unfold OwnTurn
  refine ⟨⟨⟨?_, ?_⟩, ?_, ?_⟩, ⟨?_, ?_, ?_, ?_, ?_, ?_, ?_⟩, ?_, ?_, ?_, ?_, ?_, ?_, ?_, ?_⟩ <;> decide +kernel

theorem test_meets_CoreTakeReturnsTheBest :
    let s := { (up.thr 3 .ready) with tds := { (up.thr 3 .ready).tds with readyQ := [3] } }
    (∀ k : CoreId, s.tds.cores[k].stalled = false) ∧
      ((3 : ThreadId) ∈ s.tds.readyQ ++ s.tds.cores[(0 : CoreId)].run.toList ∧
        s.tds.threads[(3 : ThreadId)].aff.toNat.testBit 0 = true) ∧
      up.tds.readyQ ++ up.tds.cores[(0 : CoreId)].run.toList = [] := by decide +kernel

/-- Tick 1 falls at AOCLK edge 31 (R393). -/
theorem test_meets_TdsTickWakes : 125 * ((upAt (31 * 128)).tds.tick + 1) / 4 ≤ (upAt (31 * 128)).aoclk ∧
    (upAt (31 * 128 - 1)).aoclk < 125 * ((upAt (31 * 128 - 1)).tds.tick + 1) / 4 := by decide +kernel

theorem test_meets_FlowsKeepOrder :
    let pushed : FlowSlot := ⟨127, 5, .pushed⟩
    let taken : FlowSlot := ⟨127, 5, .taken⟩
    let full := up.flow 15 (List.replicate 128 pushed)
    let waits := up.flow 15 [⟨126, 4, .taken⟩, pushed]
    let out := up.flow 15 [taken]
    let ends := up.flow 15 [⟨127, 5, .done 9⟩]
    up.tds.flows[(15 : FlowId)].slots.length < 128 ∧ 128 ≤ full.tds.flows[(15 : FlowId)].slots.length ∧
      (waits.tds.flows[(15 : FlowId)].slots = [⟨126, 4, .taken⟩] ++ pushed :: [] ∧
        (∀ y ∈ [(⟨126, 4, .taken⟩ : FlowSlot)], y.st ≠ .pushed) ∧ pushed.st = .pushed ∧
        ∀ y ∈ [(⟨126, 4, .taken⟩ : FlowSlot)] ++ [], y.slot ≠ pushed.slot) ∧
      (∀ y ∈ up.tds.flows[(15 : FlowId)].slots, y.st ≠ .pushed) ∧
      (out.tds.flows[(15 : FlowId)].slots = [] ++ taken :: [] ∧ taken.slot = (0x7F000000 : Word).toNat / 2 ^ 24 % 2 ^ 7) ∧
      (∀ y ∈ out.tds.flows[(15 : FlowId)].slots, ¬(y.slot = (0 : Word).toNat / 2 ^ 24 % 2 ^ 7 ∧ y.st = .taken)) ∧
      ends.tds.flows[(15 : FlowId)].slots = ⟨127, 5, .done 9⟩ :: [] ∧ up.tds.flows[(15 : FlowId)].slots.head? = none ∧
      NoWaiter 63 ends := by
  refine ⟨by decide +kernel, by decide +kernel, by decide +kernel, by decide +kernel, by decide +kernel, by decide +kernel,
    by decide +kernel, by decide +kernel, ?_⟩
  unfold NoWaiter
  decide +kernel

theorem test_meets_ArbiterCreditsAndStats :
    let b := { up with arb := { up.arb with cells := [(0, { (default : ArbCell) with backUntil := some 512 })] } }
    (upAt 512).sclk % 1024 = 0 ∧ (upAt 1).sclk % 1024 ≠ 0 ∧ up.arb.holder[(45 : ResId)] = none ∧
      (b.arb.cell 0 0).backUntil = some 512 ∧ 512 ≤ (upAt 256).sclk := by decide +kernel

theorem test_meets_ArbiterGrants :
    let q : ArbReq := ⟨31, 64, false, 0, false, none, 0⟩
    let old : ArbReq := ⟨0, 64, false, 0, false, none, 1⟩
    up.arb.busyUntil[(45 : ResId)] ≤ up.sclk ∧ up.arb.copyDue[(45 : ResId)] = 0 ∧ ([q, old].map (·.req)).Nodup ∧
      [q, old].filter (ofPresent up) = [q] ∧ up.faults.stale ≤ 65535 ∧ [q, old].filter (fun q => !ofPresent up q) = [] ++ [old] ∧
      ((((dropStale 45 [q, old] up).arb.charge 45 up.sclk).bid 45 up.sclk) q).eligible = true := by decide +kernel

theorem test_meets_MailboxHandshake :
    let full := up.modBox 31 fun x => { x with full := true }
    let port := ({ up with boot := { up.boot with cfg := { up.boot.cfg with portA := 0, portB := 1 } } }).modBox 31 fun x => { x with sender := 2, receiver := 3 }
    let asks := full.modPort .b fun p => { p with cust := some ⟨0x3000, 0, none, 0, false, false⟩ }
    (mbxWho up (.host 0) = some up.mbx.box[(31 : MbxId)].sender ∧ up.mbx.box[(31 : MbxId)].full = false ∧ NoWaiter 31 up) ∧
      mbxWho up .aon ≠ some up.mbx.box[(31 : MbxId)].sender ∧
      (mbxWho full .aon = some full.mbx.box[(31 : MbxId)].receiver ∧ full.mbx.box[(31 : MbxId)].full = true ∧ customDue full = none) ∧
      (mbxWho asks .aon = some asks.mbx.box[(31 : MbxId)].receiver ∧ asks.mbx.box[(31 : MbxId)].full = true ∧
        customDue asks = some .b) ∧
      (mbxWho full (.host 0) ≠ some full.mbx.box[(31 : MbxId)].receiver ∧ (0xFFFFFFFE : Word).toNat.testBit 0 = false ∧
        mbxParty .aon = some full.mbx.box[(31 : MbxId)].receiver ∧ up.mbx.box[(31 : MbxId)].full = false) ∧
      (port.ifOf .a = 0 ∧ mbxWho port (.io .a) = some port.mbx.box[(31 : MbxId)].sender ∧ port.mbx.box[(31 : MbxId)].receiver = 3) := by
  refine ⟨⟨by decide +kernel, by decide +kernel, ?_⟩, by decide +kernel, by decide +kernel, by decide +kernel, by decide +kernel,
    by decide +kernel⟩
  unfold NoWaiter
  decide +kernel

theorem test_meets_EngineCountersAndBanks :
    let last := up.modEng 17 fun e => { e with clipRegion := 16383 }
    let busy := up.ctxSt 0 .running
    let due := up.modEng 0 fun e => { e with banks := vupd e.banks 15 fun b => { b with pending := [1] } }
    let moves := up.modEng 0 fun e => { e with dma := [⟨false, false, false, 3932160, 0, 64⟩] }
    (up.retired 17 = false ∧ up.boot.phase = .on) ∧ clipRuns up 17 = true ∧ (last.eng 17).clipRegion = 16383 ∧
      (up.retired 0 = false ∧ up.inReset (engDomain 0) = false ∧ up.anyRuns = false) ∧
      ((Master.verifier ≠ .aon) ∧ ∀ n, Master.verifier ≠ .engine n) ∧
      (busy.anyRuns = true ∧ busy.working 0 = true ∧ (1 : Word).setWidth 2 ≠ ((busy.eng 0).banks[(15 : BankId)]).owner) ∧
      ((due.eng 0).banks[(15 : BankId)].pending = [1] ∧ dmaFor (due.eng 0) 15 = false ∧ dmaFor (moves.eng 0) 15 = true) ∧ (upAt 40000).now % 40000 = 0 ∧ (upAt 1).now % 40000 ≠ 0 := by
  decide +kernel

theorem test_meets_EngineStopIsFound :
    let s := (up.tiled [tile0 1 3 (.held 17)]).modEng 17 fun e => { e with holding := some 1, st := .run }
    let step := { s with
      pending := [.aonFrameTimer []], tds := { s.tds with run := true }, clk := { s.clk with now := 400000 } }
    (stepWaits s = false ∧ stepWaits step = true) ∧ engineLive s 17 = true ∧ (s.heldTile 17).map (·.station) = some 3 ∧ retireReason s 17 false = none ∧
      (s.tds.tiles.map (·.handle)).Nodup ∧ clipRuns s 17 = true ∧ s.lostWith 17 (tile0 1 3 (.held 17)) = true := by decide +kernel

theorem test_meets_TakeAndCommit :
    let hold := fun (x : Tile) (l : List Tile) => (up.tiled (x :: l)).modEng 0 fun e => { e with holding := some 1, st := .run }
    let copy := { (tile0 1 3 (.held 0)) with xchk := true }
    let other := { copy with handle := 2, copyB := true, status := .ready }
    let run : FrameRun := { (default : FrameRun) with tileSlots := [(1, [2 ^ 24])] }
    let grow := (hold { (tile0 1 2 (.held 0)) with seq := 1 } []).modCtx 0 fun x => { x with run := some run }
    (grow.tile 1 = some { (tile0 1 2 (.held 0)) with seq := 1 } ∧ engineLive grow 0 = true ∧ (grow.eng 0).holding = some 1 ∧
        stopWaits grow 0 = false ∧ grow.run 0 = some run ∧ run.ready = none ∧
        ((after (.tileCommit (.engine 0) 0 1 default) grow).tds.tiles.map fun y => (y.station, y.seq)) = [(3, 1)]) ∧
      (engineLive up 0 = true ∧ (up.eng 0).holding = none ∧ isMember up = false) ∧
      (stopWaits { (hold copy []) with pending := [.engineStop 0 0 0 0] } 0 = true ∧ stopWaits (hold copy []) 0 = false ∧
        up.hedge.dealtHere = []) ∧
      (engineLive (hold (tile0 1 14 (.held 0)) []) 0 = true ∧
        (hold (tile0 1 14 (.held 0)) []).tile 1 = some (tile0 1 14 (.held 0))) ∧
      (hold (tile0 1 15 (.held 0)) []).tile 1 = some (tile0 1 15 (.held 0)) ∧
      ((hold copy [other]).tile 1 = some copy ∧ otherCopy (hold copy [other]) copy = some other ∧ other.status = .ready) := by
  decide +kernel

theorem test_meets_DispatchTakesTheFirst :
    let s := ((up.tiled [tile0 1 3 .ready]).modEng 15 fun e => { e with waiting := true, st := .takeWait })
    let t := { s with tds := { s.tds with run := true } }
    s.tds.run = false ∧ t.tds.run = true ∧ t.boot.phase = .on ∧ t.hedge.takes = [] ∧ takes t 15 = true ∧
      goldenDue t 15 = false ∧ inSlot t 15 = false ∧ loadDue t 15 = none ∧ dealtFor t 15 = none ∧ (∀ k : EngId, k < 15 → takes t k = false) ∧
      (t.tds.tiles.map (·.handle)).Nodup ∧ allowed t 15 (tile0 1 3 .ready) = true := by decide +kernel

/-! ### Frames, ticks, releases: the hypotheses are met -/

/-- The frame in progress of a context. -/
def State.inFrame (s : State) (c : CtxId) (r : FrameRun) : State := s.modCtx c fun x => { x with run := some r }

/-- An object written and in force. -/
def State.obj (s : State) (index sub : Nat) (v : Bytes) : State :=
  { s with shadow := amPut s.shadow (objKey index sub) v, force := amPut s.force (objKey index sub) v }

/-- A publication of tick 0. -/
def pub0 : Pub := { (default : Pub) with geom := Geom.reset }

/-- The world's publications. -/
def State.pubbed (s : State) (l : List Pub) : State := { s with world := { s.world with pubs := l } }

/-- A run of frame 7 in context 15. -/
def run7 : FrameRun := { (default : FrameRun) with frame := 7 }

theorem test_meets_FrameStartBegins :
    let s := ((upAt 800000).ctxSt 0 .running).ctxSt 15 .running
    s.replaying = false ∧ liveF up 0 = false ∧ liveF s 15 = true ∧ liveF s 0 = true ∧
      ((boundaryShadow (s.obj 0x200F 0x22 [2])).map (·.1)).Nodup ∧ (objDef 0x200F 0x22).map (·.acc) = some .rwf ∧
      (∀ d : CtxId, d < 0 → (s.ctx d).st ≠ .running) ∧ ¬∀ d : CtxId, d < 15 → (s.ctx d).st ≠ .running := by decide +kernel

theorem test_meets_TimerTicks :
    let due := fun s : State => s.serves = true ∧ (∀ c, (s.ctx c).st ≠ .running) ∧ isMember s = false ∧ s.now % 400000 = 0
    let s := upAt 400000
    let f := { s with fus := { s.fus with run := true } }
    s.replaying = false ∧ ¬due (upAt 399999) ∧ ¬due (s.ctxSt 3 .running) ∧ due s ∧ s.fus.run = false ∧ due f ∧
      f.fus.run = true ∧ ((s.obj 0x2700 0x07 [1]).loader = [] ∧ (after (.aonFrameTimer []) (s.obj 0x2700 0x07 [1])).recorder.due = none ∧
        (after (.aonFrameTimer []) { (s.obj 0x2700 0x07 [1]) with recorder := { s.recorder with st := 1 } }).recorder.due.isSome = true) := by
  decide +kernel

theorem test_meets_RotationMovesTheRole :
    let s := { (upAt 400000) with tds := { up.tds with run := true } }
    let u := { s with roles := { s.roles with steer := [3] } }
    (s.replaying = false ∧ s.serves = true ∧ (∀ c, (s.ctx c).st ≠ .running) ∧ isMember s = false ∧ s.now % 400000 = 0 ∧
      s.roles.lastStepAt ≠ some s.now ∧ s.tds.run = true ∧ s.service ≠ 3 ∧ s.roles.bringIn = none ∧ s.roles.coppice = some 16 ∧ s.working 16 = false) ∧
      (∀ e ∈ s.roles.steer, s.retired e = false ∧ s.roles.reserve ≠ some e) ∧
      (∀ e ∈ u.roles.steer, u.retired e = false ∧ u.roles.reserve ≠ some e) ∧ u.roles.steer = 3 :: [] ∧
      ((0 : EngId) ≠ 16 ∧ s.retired 0 = false ∧ s.roles.reserve ≠ some 0) := by decide +kernel

theorem test_meets_GridsAndForecast :
    let due := fun s : State => s.world.started = true ∧ s.world.tick % wNat s 0x19 = 0 ∧ s.world.lastGrid ≠ some s.world.tick ∧
      s.fus.run = true ∧ s.fuseReset = false
    let s := { up with world := { up.world with started := true, tick := 0 }, fus := { up.fus with run := true } }
    let n := wNat up 0x19
    let g := fun k => ({ tick := k * n, cells := [] } : Grid)
    let l := { s with world := { s.world with tick := 3 * n, lastGrid := some (2 * n), grids := [g 0, g 1, g 2, g 3] } }
    ¬due up ∧ due s ∧ launchGrids s 0 = none ∧ due l ∧ (launchGrids l (3 * n)).isSome = true ∧
      isMember l = false ∧ isMember l.joined = true ∧ due l.joined := by decide +kernel

theorem test_meets_SyncEdges :
    let s := (up.ctxSt 0 .running).obj 0x2000 0x05 [1]
    let e := syncE s 0
    let t := syncTol s 0
    let at_ := fun n => { (s.modCtx 0 fun x => { x with lastEdge := some 1000 }) with clk := { s.clk with now := n } }
    isMember s = false ∧ isMember s.joined = true ∧ countsEdges s 1 = false ∧ countsEdges s 0 = true ∧ (s.ctx 0).lastEdge = none ∧
      ((at_ (1000 + e - t)).ctx 0).lastEdge = some 1000 ∧ ¬(at_ (1000 + e - t)).now < 1000 + e - t ∧
      (at_ (1000 + e - t - 1)).now < 1000 + e - t ∧ countsEdges (at_ (1000 + e + t)) 0 = true ∧
      (at_ (1000 + e + t)).now = 1000 + e + t ∧ (s.ctx 0).edgeCount + 1 ≤ cNat s 0 0x07 := by decide +kernel

theorem test_meets_SnapshotIsTaken :
    let s := (up.inFrame 15 run7).pubbed [pub0]
    let d := (s.modCtx 15 fun x => { x with rm := { x.rm with nextDelta := some ([], 6) } })
    let k := s.modCtx 15 fun x => { x with rm := { x.rm with rmState := 1 } }
    ((s.ctx 15).run = some run7 ∧ framePub s run7 = some pub0 ∧ run7.inSafe = false ∧ run7.snapped = false ∧
      run7.ready = none ∧ pub0.wait = none ∧ (s.ctx 15).rm.nextDelta = none) ∧
      (up.ctx 15).run = none ∧ ((d.ctx 15).rm.nextDelta = some ([], 6) ∧ (6 : Nat) ≠ run7.frame) ∧
      noSearch s 15 = some 0x0203 ∧ ((k.ctx 15).run = some run7 ∧ framePub k run7 = some pub0) := by decide +kernel

/-- A frame whose only block is NONE: the Verifier tests a HOLD from the stop pose. -/
def runNone : FrameRun :=
  { run7 with block := some { (default : TrajBlock) with kind := 2 }, selected := some ⟨[(0, 0)], 0⟩ }

theorem test_meets_VerifierAttempts :
    let s := (up.inFrame 15 runNone).pubbed [pub0]
    let v := { s with vfy := { s.vfy with run := true }, clk := { s.clk with now := us (cNat s 15 0x82) } }
    let p := { (default : PlanImage) with axes := 0 }
    let w := ((up.inFrame 15 { runNone with verifying := true }).pubbed [pub0]).modCtx 15 fun x => { x with plan := some p }
    let b := { w with vfy := { w.vfy with run := true, busy := some 15 } }
    ((v.ctx 15).run = some runNone ∧ (verifyPub v 15 runNone).isSome = true ∧ runNone.block ≠ none ∧
      runNone.reasons.length = runNone.attempt ∧ runNone.verifying = false ∧ runNone.ready = none ∧ v.vfy.run = true ∧
      v.vfy.busy = none ∧ v.inReset domVerifier = false) ∧
      runNone.f + us (cNat v 15 0x82) ≤ v.now ∧ pub0.wait = none ∧ s.vfy.run = false ∧ s.vfy.busy ≠ some 15 ∧
      (b.vfy.busy = some 15 ∧ (b.ctx 15).plan = some p ∧ (b.ctx 15).run = some { runNone with verifying := true } ∧
        framePub b runNone = some pub0 ∧ (b.world.pubs.find? fun q => q.tick == runNone.tv) = some pub0) := by decide +kernel

theorem test_meets_ReleaseWritesTheRecord :
    let r := { run7 with ready := some (.noPath 0x0203) }
    let s := up.inFrame 15 r
    let o := { up with syncOut := true, syncOutEnd := 0 }
    ((s.ctx 15).run = some r ∧ (outReady s 15 r).isSome = true ∧ (cNat s 15 0x81 = 0 ∨ cNat s 15 0x81 ≠ 0 ∧ s.replaying = false)) ∧
      cNat (s.obj 0x200F 0x81 [0]) 15 0x81 = 0 ∧ cNat (s.obj 0x200F 0x81 [1]) 15 0x81 ≠ 0 ∧ (up.ctx 15).run = none ∧
      (o.syncOut = true ∧ o.syncOutEnd ≤ o.now) ∧ up.syncOut = false := by decide +kernel

theorem test_meets_DeadlineReleases :
    let r := { run7 with f := 0 }
    let s := up.inFrame 15 r
    let n := us (deadlineUs s 15)
    let at_ := fun (x : FrameRun) => { ((up.inFrame 15 x).modCtx 15 fun y => { y with sstate := .operate }) with clk := { up.clk with now := n } }
    ((at_ r).ctx 15).run = some r ∧ (at_ r).replaying = false ∧ (at_ r).now = r.f + us (deadlineUs (at_ r) 15) ∧
      (stopsNow (at_ r) 15 = false ∧ stopsNow { (at_ r) with pending := [.ctxCtrlStop .a 15] } 15 = true) ∧
      (s.now ≠ r.f + us (deadlineUs s 15) ∧ (up.ctx 15).run = none) ∧
      (outReady (at_ { r with ready := some (.noPath 0x0203) }) 15 { r with ready := some (.noPath 0x0203) }).isSome = true ∧
      (r.ready = none ∧ r.inSafe = false ∧ ({ r with inSafe := true } : FrameRun).inSafe = true) ∧
      ((at_ r).ctx 15).sstate = .operate ∧ isMember (at_ r) = false ∧ (at_ r).faults.inReset.toNat.testBit 29 = false := by decide +kernel

theorem test_meets_CheckersAndVerifierControl :
    let s := { up with saf := { up.saf with chkRunning := true } }
    let h := { up with faults := { up.faults with inReset := BitVec.ofNat 30 (2 ^ 19) } }
    up.saf.chkRunning = false ∧ s.saf.chkRunning = true ∧ up.anyRuns = false ∧ (up.ctxSt 15 .running).anyRuns = true ∧
      (0xFFFFFFFE : Word).toNat.testBit 0 = false ∧ up.inReset domVerifier = false ∧ h.inReset domVerifier = true := by decide +kernel

/-! ### Ingress, the loader, recording and replay: the hypotheses are met -/

/-- The command is a write that is accepted, SEM being free. -/
def okWrite (s : State) (cmd : Instr) : Bool := match ownWriteOf cmd with
  | some (p, w) => s.serves && decide (writeAbort s p w = 0) && (s.sem.holder.isNone && s.sem.waiting.isEmpty)
  | none => false

theorem okWrite_accepted (s : State) (cmd : Instr) (h : okWrite s cmd = true) : Accepted s cmd := by
  unfold okWrite at h
  split at h
  · next p w e =>
    simp only [Bool.and_eq_true, decide_eq_true_eq, Option.isNone_iff_eq_none, List.isEmpty_iff] at h
    exact ⟨p, w, e, h.1.1, h.1.2, .inl h.2⟩
  · exact absurd h (by decide)

/-- A camera of 2 × 1 points, its stream and its receiver in service. -/
def cam2 : CamRec := { (default : CamRec) with width := 2, height := 1, depthUnit := 1, rangeMax := 4000, ageMax := 50000 }
def State.fed (s : State) (k : StreamId) (f : Stream → Stream) : State :=
  { s with fus := { s.fus with
    rx := vupd s.fus.rx (rxOf k) (fun x => { x with en := true })
    streams := vupd s.fus.streams k fun x => f { x with rec_ := some cam2, en := true, st := .wait } } }
def State.fusRuns (s : State) : State := { s with fus := { s.fus with run := true } }
def img2 : Img := { (default : Img) with depth := [[100, 200]], fcnt := 1 }

theorem test_meets_FuseControls :
    let on := up.fusRuns
    let r := (up.fed 15 id)
    let off := { r with fus := { r.fus with streams := vupd r.fus.streams 15 fun x => { x with en := false, st := .off } } }
    let g := up.obj 0x2100 0x08 [7]
    let w := { up with faults := { up.faults with inReset := BitVec.ofNat 30 (2 ^ 18) } }
    (up.recorder.st ≠ 1 ∧ ({ g with recorder := { g.recorder with st := 1 } } : State).recorder.st = 1) ∧ ((0 : Word).toNat.testBit 0 = false ∧ up.fus.run = false ∧ geomOf up = up.world.geom ∧ geomOf g ≠ g.world.geom) ∧
      (on.fus.run = true ∧ on.anyRuns = false) ∧ (on.ctxSt 0 .running).anyRuns = true ∧ (1 : Word).toNat.testBit 0 = true ∧
      up.fuseReset = false ∧ w.fuseReset = true ∧ (r.fus.rx[(3 : RxId)].en = true ∧ rxOf 15 = 3) ∧
      (3 : Word).extractLsb' 1 2 ≠ r.fus.rx[(3 : RxId)].lanes ∧ (7 : Word).extractLsb' 1 2 = r.fus.rx[(3 : RxId)].lanes ∧
      up.fus.rx[(3 : RxId)].en = false ∧ up.fus.streams[(15 : StreamId)].rec_ = none ∧
      (r.fus.streams[(15 : StreamId)].en = true ∧ r.fus.streams[(15 : StreamId)].rec_ = some cam2) ∧
      (off.fus.streams[(15 : StreamId)].en = false ∧ off.fus.streams[(15 : StreamId)].rec_ ≠ none) := by decide +kernel

theorem test_meets_ImagesAreBuilt :
    let s := up.fed 15 fun x => { x with img := some { img2 with depth := [] }, lastCam := some 65535 }
    let c := up.fed 0 fun x => { x with rec_ := some { cam2 with dtConf := 0x2A }, img := some img2 }
    let p : CsiPacket := ⟨0x2E, .good, [1, 0, 2, 0], true, false, default⟩
    let x := s.fus.streams[(15 : StreamId)]
    (up.receives 15 = false ∧ s.receives 15 = true ∧ isMember s.joined = true ∧ s.joined.receives 15 = false) ∧ (x.lastCam = some 65535 ∧ (2 : Nat) ≠ (65535 + 1) % 65536) ∧
      (x.img = some { img2 with depth := [] } ∧ img2.closed = false ∧ x.rec_ = some cam2) ∧
      (p.hdr = .good ∧ p.dt = 0x2E ∧ p.crcOk = true ∧ p.overrun = false ∧ img2.formatBad = false ∧
        p.payload.length = 2 * cam2.width ∧ cam2.dtConf = 0) ∧
      (c.receives 0 = true ∧ c.fus.streams[(0 : StreamId)].img = some img2 ∧
        ([7, 8] : Bytes).length = cam2.width ∧ img2.conf.length + 1 = img2.depth.length) := by decide +kernel

theorem test_meets_ImagesAreJudged :
    let i := { img2 with closed := true }
    let s := up.fed 15 fun x => { x with img := some i }
    let x := s.fus.streams[(15 : StreamId)]
    let f := (up.fed 15 fun x => { x with img := some i, tlFails := 1 }).fusRuns
    x.img = some i ∧ x.rec_ = some cam2 ∧ i.closed = true ∧ s.fuseReset = false ∧ s.fus.run = false ∧
      (s.fusRuns.fus.run = true ∧ s.fusRuns.replaying = false ∧ isMember s.fusRuns = false ∧ isMember s.fusRuns.joined = true) ∧ imageStatus s.fusRuns cam2 x i false 0 0 = 0 ∧
      imageStatus s.fusRuns cam2 x i true 0 0 = 4 ∧ x.tlFails = 0 ∧ 1 ≤ f.fus.streams[(15 : StreamId)].tlFails ∧
      f.fus.streams[(15 : StreamId)].st ≠ .failed := by decide +kernel

/-- One message of one entry: source, sequence number, count, entry (R78). -/
def msg1 : Bytes := [0, 0, 0, 0, 0, 0, 1, 0] ++ zeros 16

theorem test_meets_LossesAndMessages :
    let at_ := fun n => { (up.fed 15 fun x => { x with rec_ := some { cam2 with streamTimeout := 1 } }).fusRuns with
      clk := { up.clk with now := n } }
    let due := fun s : State => s.fus.run = true ∧ s.fuseReset = false ∧ s.replaying = false ∧ isMember s = false ∧
      (s.fus.streams[(15 : StreamId)].st = .wait ∨ s.fus.streams[(15 : StreamId)].st = .run) ∧
      us 1 < s.now - s.fus.streams[(15 : StreamId)].timerFrom
    let d := { up with sdb := { up.sdb with en := true, f2En := true } }
    due (at_ 401) ∧ ¬due (at_ 400) ∧ ¬due (at_ 401).joined ∧ isMember d.joined = true ∧ d.joined.f2 .sdb = true ∧ up.f2 .sdb = false ∧ d.f2 .sdb = true ∧ d.fus.run = false ∧ d.fusRuns.fus.run = true ∧
      ((parseExt 2 msg1).1.length = 1 ∧ (parseExt 2 msg1).2 = 0) ∧ (parseExt 1 [1]).2 = 1 := by decide +kernel

/-- The smallest roadmap image: nodes 0 and 1, edge 0 from 0 to 1, one environment sphere (R137-R143, R150). -/
def imgRm : Bytes :=
  leBytes 4 1 ++ leBytes 4 0 ++ [1, 1, 0, 0] ++ [8] ++ zeros 11 ++ leBytes 4 2 ++ leBytes 4 1 ++
    (zeros 6 ++ [1, 0]) ++ zeros 56 ++ zeros 160 ++
    (zeros 28 ++ [1, 0] ++ zeros 34) ++ zeros 64 ++
    (leBytes 2 0 ++ leBytes 2 1 ++ zeros 48 ++ leBytes 4 (1 + 2 ^ 24) ++ leBytes 4 1 ++ zeros 4 ++ (zeros 6 ++ [1, 0]) ++ zeros 440) ++
    zeros 64

/-- The memory that holds these bytes from an address on. -/
def cells (a : Nat) (b : Bytes) : Memory := b.zipIdx.filterMap fun (v, i) => if v = 0 then none else some ⟨a + i, v⟩

/-- A context whose RM windows take it, with a planning image of one axis, and the image at PSRAM offset 0. -/
def loadable : State :=
  let s := ((up.obj 0x2201 0x02 [2]).obj 0x2201 0x04 [1]).modCtx 0 fun x =>
    { x with plan := some { (default : PlanImage) with axes := 1, planId := zeros 16 } }
  { s with
    psram := [(0, 1), (8, 1), (9, 1), (12, 8), (24, 2), (28, 1), (38, 1), (284, 1), (386, 1), (436, 1), (439, 1), (440, 1), (454, 1)]
    images := vupd s.images 63 fun _ => { handle := 9, kind := 2, st := 2, reason := 0, offset := 0, length := 960, digest := sha512 imgRm }
    loader := [⟨.load 0 1 9 true, true⟩] }

theorem test_meets_LoaderWorksInOrder :
    let j := fun op b => { up with loader := [⟨op, b⟩] }
    let d := (up.modCtx 15 fun x => { x with rm := { x.rm with nextDelta := some ([], 6) } })
    (j (.load 0 1 9 true) false).loader = ⟨.load 0 1 9 true, false⟩ :: [] ∧ (j (.audit 0) true).loader = ⟨.audit 0, true⟩ :: [] ∧
      (up.ctx 15).rm.nextDelta = none ∧ (d.ctx 15).rm.nextDelta ≠ none ∧
      (loadable.loader = ⟨.load 0 1 9 true, true⟩ :: [] ∧ loadCheck loadable 0 9 = none ∧ goodImage loadable 2 9 = some imgRm) ∧
      Memory.wf loadable.store = true ∧ loadCheck up 0 9 = some (1, 0xFFFFFF) := by decide +kernel

/-- The point of small order, and its signature. -/
def weakKey : Bytes := 1 :: zeros 31
def weakSig : Bytes := 1 :: zeros 63

/-- Node 0 and edge 0 of the image again, as a delta (R161). It is signed with a point of small order, under which every
message has the same signature. -/
def delta1 : Bytes :=
  let m := [0, 1, 0, 0] ++ leBytes 4 2 ++ leBytes 4 1 ++ [1, 0, 1, 0] ++ zeros 16 ++
    (zeros 8 ++ slice imgRm 256 64) ++ (zeros 8 ++ slice imgRm 384 512)
  m ++ weakSig

/-- The image in the store and in force, the delta's signer the owner. -/
def deltable : State :=
  let s := loadable.modCtx 0 fun x => { x with rm := { x.rm with
    active := true, rmState := 1
    parts := vupd x.rm.parts 0 fun _ => { handle := 9, nCount := 2, eCount := 1, chain := zeros 16, st := 2 } } }
  { s with
    store := cells 0 (slice imgRm 256 128) ++ cells 4096 (slice imgRm 384 512)
    boot := { s.boot with ownerKey := weakKey, cfg := { s.boot.cfg with edgeBase := 4096 } }
    loader := [⟨.delta 0 delta1, true⟩] }

theorem test_meets_DeltasAndAudits :
    let w := deltable.modCtx 0 fun x => { x with rm := { x.rm with nextDelta := some (delta1, 6) } }
    let r := w.inFrame 0 { run7 with snapped := false }
    let f := fun h => { (up.modCtx 0 fun x => { x with rm := { x.rm with selected := h } }) with loader := [⟨.load 0 1 9 true, true⟩] }
    (loadCheck (f 9) 0 9 = some (1, 0xFFFFFF) ∧ ((f 9).ctx 0).rm.selected = 9 ∧ ((f 8).ctx 0).rm.selected ≠ 9) ∧
      (deltaCheck deltable 0 delta1 = none ∧ deltable.loader = ⟨.delta 0 delta1, true⟩ :: []) ∧
      deltaCheck deltable 0 (zeros 32) = some (1, 0xFFFFFF) ∧ (okWrite deltable (.deltaIn .b 0 delta1) = true) ∧
      okWrite deltable (.audit .a 15 1) = true ∧ (up.ctx 15).rm.nextDelta = none ∧
      ((w.ctx 0).rm.nextDelta = some (delta1, 6) ∧ (w.ctx 0).run = none) ∧
      ((r.ctx 0).run = some run7 ∧ run7.frame ≠ 6 ∧ run7.snapped = false) ∧
      ((w.inFrame 0 { run7 with frame := 6 }).ctx 0).run = some { run7 with frame := 6 } ∧
      (Memory.wf w.store = true ∧ ((parseDelta delta1).edges.map (·.1)).Nodup) := by decide +kernel

/-- A Recorder that records into a ring of 1 MiB, in ring mode, with a seed each tick. -/
def recording : State :=
  let s := ((up.obj 0x2700 0x02 [1]).obj 0x2700 0x04 (leBytes 4 0x100000)).obj 0x2700 0x07 (leBytes 4 1)
  { s with recorder := { s.recorder with st := 1 }, world := { s.world with started := true } }

/-- A seed of tick 5 that holds context 15. -/
def seed5 : Seed :=
  { (default : Seed) with tick := 5, world := { World.reset with tick := 5 }, ctxs := [{ (default : SeedCtx) with ctx := 15, frame := 3 }] }

/-- A part whose PSRAM is populated throughout, with seed slots of the whole window. -/
def slotted : State :=
  let s := (up.obj 0x2700 0x05 (zeros 4)).obj 0x2700 0x06 (leBytes 4 (2 ^ 29))
  { s with power := { s.power with chSize := Vector.replicate 8 64 } }

/-- The part with seed 5 in its first slot. -/
def seeded : State :=
  { slotted with
    psram := memWrite [] 0 (seedBytes seed5)
    recorder := { slotted.recorder with seeds := vupd slotted.recorder.seeds 0 fun _ => some seed5, seedTick := 5 } }

theorem slotted_psramOk (n : Nat) (h : n < 2 ^ 29) : psramOk slotted 0 n = true := by
  have p : ∀ i ∈ List.range 8, chanSize slotted i = 2 ^ 26 := by decide +kernel
  unfold psramOk
  simp only [Bool.and_eq_true, decide_eq_true_eq, List.all_eq_true]
  refine ⟨by omega, fun i hi => ?_⟩
  rw [p i hi]
  have := List.mem_range.mp hi
  omega

/-- Every seed fits a slot of the whole window. -/
theorem test_meets_seed_fits (sd : Seed) : (seedBytes sd).length ≤ oNat slotted 0x2700 0x06 ∧
    psramOk slotted (seedOffset slotted 0) (seedBytes sd).length = true := by
  have l : (seedBytes sd).length < 2 ^ 29 := by
    rw [seedBytes, List.length_map, List.length_range]
    exact (seedLen sd).isLt
  have n : oNat slotted 0x2700 0x06 = 2 ^ 29 := by decide +kernel
  have o : seedOffset slotted 0 = 0 := by decide +kernel
  rw [n, o]
  exact ⟨by omega, slotted_psramOk _ l⟩

/-- A slot outside the window takes no seed. -/
theorem test_meets_seed_unfit (sd : Seed) : ¬psramOk (up.obj 0x2700 0x05 (leBytes 4 (2 ^ 30)))
    (seedOffset (up.obj 0x2700 0x05 (leBytes 4 (2 ^ 30))) 0) (seedBytes sd).length = true := by
  have o : seedOffset (up.obj 0x2700 0x05 (leBytes 4 (2 ^ 30))) 0 = 2 ^ 30 := by decide +kernel
  rw [o]
  unfold psramOk
  simp only [Bool.and_eq_true, decide_eq_true_eq]
  omega

theorem seeded_startSeed : startSeed seeded = some seed5 := by
  have o : seedOffset seeded 0 = 0 := by decide +kernel
  have n : oNat seeded 0x2700 0x06 = 2 ^ 29 := by decide +kernel
  have k : psramOk seeded 0 (2 ^ 29) = true := by decide +kernel
  have r : psramRead seeded 0 (seedBytes seed5).length = seedBytes seed5 := memRead_memWrite rfl 0 _
  have f : seeded.recorder.seeds.toList = [some seed5, none] := by decide +kernel
  rw [startSeed, o]
  unfold seedAt
  simp only [n, k, f, r, List.findSome?, Option.bind_some, ite_true]
  decide

theorem test_meets_SeedsAndMarks :
    let r := recording
    let due := { r with recorder := { r.recorder with due := some seed5 } }
    let run := { r with recorder := { r.recorder with seedRuns := [(1, seed5)] } }
    (up.recorder.due = none ∧ due.recorder.due = some seed5 ∧ due.recorder.st = 1) ∧
      (up.recorder.seedRuns = [] ∧ run.recorder.seedRuns = [(1, seed5)]) ∧
      okWrite r (.mark .b 0xFFFFFFFF) = true ∧ up.recorder.st ≠ 1 ∧ slotted.recorder.st ≠ 1 ∧ Memory.wf slotted.psram = true := by
  decide +kernel

theorem test_meets_ring : RingTakes recording (entryBytes 0 0x0F 1 (leBytes 4 0xFFFFFFFF)).length := by
  refine ⟨?_, ?_, ?_, ?_, ?_, ?_, ?_, ?_⟩ <;> decide +kernel

theorem test_meets_ReplayStart : startSeed up = none ∧ okWrite up (.replayStart .a) = true ∧
    (startSeed seeded = some seed5 ∧ okWrite seeded (.replayStart .b) = true) ∧ (seed5.ctxs.map (·.ctx)).Nodup ∧
    oNat seeded 0x2700 0x0F = recBase seeded := by
  refine ⟨by decide +kernel, by decide +kernel, ⟨seeded_startSeed, ?_⟩, by decide +kernel, by decide +kernel⟩
  have g : stateRefuses seeded ⟨0x2700, 0x10, [1]⟩ = none := by
    have r : seeded.replaying = false := by decide +kernel
    have v : leNat [(1 : Byte)] = 1 := by decide +kernel
    simp only [stateRefuses, r, v, objCtx, replayStartRefused, seeded_startSeed, Bool.false_and]
    decide +kernel
  have d : objDef 0x2700 0x10 = some ⟨0x2700, 0x10, some 1, .wo, .none, [], .nat 1 5⟩ := by decide +kernel
  have l : leNat [(1 : Byte)] = 1 := by decide +kernel
  have x : indexExists 0x2700 = true := by decide +kernel
  have v : seeded.serves = true ∧ isMember seeded = false := by decide +kernel
  have a : writeAbort seeded .b ⟨0x2700, 0x10, [1]⟩ = 0 := by
    simp [writeAbort, d, x, v.1, v.2, commIndex, frozenNow, rngOk, relOk, objCtx, within]
    exact (congrArg (fun o : Option Nat => match o with
      | some a => a
      | none => 0) g)
  show (seeded.serves && decide (writeAbort seeded .b ⟨0x2700, 0x10, [1]⟩ = 0) && seeded.sem.holder.isNone) = true
  rw [a]
  decide +kernel

theorem test_meets_ReplayCommands :
    let st := fun (k : Nat) => { up with recorder := { up.recorder with st := k, replay := 1 } }
    (okWrite (st 3) (.replayPause .a) = true ∧ (st 3).recorder.st = 3) ∧
      (okWrite (st 4) (.replaySave .a) = true ∧ okWrite (st 4) (.replayResume .b) = true ∧ (st 4).recorder.st = 4) ∧
      (okWrite (st 3) (.replayStop .b) = true ∧ (st 3).replaying = true) ∧
      (oNat (st 3) 0x2700 0x11 ≤ (st 3).world.tick ∧ ∀ c, ((st 3).ctx c).run = none) := by decide +kernel

/-- A replay whose record stands at PSRAM offset 0. -/
def replayOf (b : Bytes) : State :=
  { up with
    recorder := { up.recorder with st := 3, replay := 1 }
    psram := cells 0 b
    power := { up.power with chSize := Vector.replicate 8 64 } }

theorem test_meets_ReplayEntriesInOrder :
    let at_ := fun b => entryAt (replayOf b) (replayOf b).recorder.pos
    let e := entryBytes 0 0x0C 0 [2]
    up.recorder.st ≠ 3 ∧ ((replayOf []).recorder.st = 3 ∧ at_ [] = none ∧ replayDone (replayOf []) = true) ∧
      replayDone ((replayOf []).inFrame 3 run7) = false ∧
      ((at_ e).map (·.crcOk) = some true ∧ (at_ e).map (·.ty) = some 0x0C ∧ (at_ e).map (·.tick) = some 0) ∧
      (at_ (e.set 8 2)).map (·.crcOk) = some false ∧ (at_ (entryBytes 0 0x10 0 [])).map (·.ty) = some 0x10 ∧
      (at_ (entryBytes 1 0x0C 0 [2])).map (·.tick) = some 1 ∧ (at_ (entryBytes 0 0x03 0 msg1)).map (·.ty) = some 0x03 ∧
      (at_ (entryBytes 0 0x08 15 (zeros 56))).map (·.src) = some 15 ∧
      ((at_ e).map (beforeSeed (replayOf e)) = some false ∧
        (at_ e).map (beforeSeed { replayOf e with world := { up.world with tick := 1000 } }) = some true) := by decide +kernel

theorem test_meets_ThrottleMovesOneStep :
    let s := fun (k : Nat) (t : Int) (rise abs : Option Nat) (tick : Nat) => { up with
      power := { up.power with step := k, tjMax := t, lastRise := rise, absentFrom := abs }
      world := { up.world with tick := tick } }
    let hot := stepT up 1
    State.reset.boot.phase ≠ .on ∧ up.boot.phase = .on ∧ stepCond (s 0 hot none none 0) 1 = true ∧
      (stepCond (s 2 (hot + 10) (some 90) none 100) 3 = true ∧ (90 : Nat) + 10 ≤ 100) ∧ (99 : Nat) < 90 + 10 ∧
      stepCond (s 0 (hot - 1) none none 0) 1 = false ∧ stepCond (s 3 (hot + 10) none none 0) 3 = true ∧
      (stepCond (s 1 (hot - 5) none (some 0) 100) 1 = false ∧ stepCond (s 1 (hot - 5) none (some 0) 100) 2 = false ∧
        hot - 5 ≤ stepT (s 1 (hot - 5) none (some 0) 100) 1 - 5) := by decide +kernel

/-! ### Safety, the store, resets, contexts, dumps: the hypotheses are met -/

/-- The safety state of a context. -/
def State.sst (s : State) (c : CtxId) (x : SState) (k : BitVec 3) : State := s.modCtx c fun y => { y with sstate := x, cause := k }

theorem test_meets_HostDemands :
    let s := (up.sst 15 .operate 0).inFrame 15 { run7 with inSafe := false }
    okWrite up (.safeReq .a 15) = true ∧ (up.ctx 15).sstate = .stopped ∧ okWrite s (.safeReq .b 15) = true ∧
      (s.ctx 15).sstate = .operate ∧ ((s.ctx 15).run = some { run7 with inSafe := false }) ∧
      (up.sst 0 .arming 0 |>.ctx 0).sstate = .arming ∧
      ((BitVec.ofNat 16 (2 ^ 15)).toNat.testBit 15 = true ∧ (BitVec.ofNat 16 (2 ^ 15)).toNat.testBit 14 = false) := by decide +kernel

theorem test_meets_PartCausesLatch :
    let at_ := fun k => upAt (128 * k)
    let since := fun s : State => s.aoclk - s.saf.wdtLast
    okWrite up (.partReq .b) = true ∧ (Master.verifier ≠ .aon) ∧ (since (at_ 256) = 256 ∧ (at_ 256).saf.wdtNext = false) ∧
      since (at_ 255) < 256 ∧ 1024 < since (at_ 1025) ∧ since (at_ 1024) ≤ 1024 ∧
      ((at_ 1).saf.outEn = false ∧ rotationLate up = false) ∧
      rotationLate { upAt (400000 * 100000) with roles := { up.roles with lastStepAt := some 0 } } = true := by decide +kernel

theorem test_meets_ClearsAndPulses :
    let s := up.sst 15 .safe 2
    let p := { s with saf := { s.saf with causes := 0x010, faultLow := true } }
    let o := { ((upAt 4000000).ctxSt 3 .running).sst 3 .operate 0 with saf := { up.saf with outEn := true, pulseEn := true } }
    let now := { p with saf := { p.saf with causeAt := some p.now } }
    let y := { upAt (8760 * 3600 * 400000000) with saf := { up.saf with stDone := true } }
    okWrite s (.safeClear .a 15) = true ∧ okWrite p (.partClear .b) = true ∧
      ((s.ctx 15).sstate = .safe ∧ s.saf.causes = 0 ∧ (s.ctx 15).cause.toNat.testBit 2 = false ∧ (s.ctx 15).demandAt ≠ some s.now) ∧
      (p.saf.causes &&& 0x3CE = 0 ∧ p.saf.causes &&& liveConds p = 0 ∧ p.saf.causeAt ≠ some p.now) ∧
      (now.saf.causeAt = some now.now ∧ okWrite now (.partClear .b) = false) ∧
      ({ p with saf := { p.saf with causes := 2 } } : State).saf.causes &&& 0x3CE ≠ 0 ∧
      (o.saf.outEn = true ∧ o.permit = true ∧ o.saf.pulseEn = true ∧ o.now % 4000000 = 0) ∧ up.saf.outEn = false ∧
      (8760 ≤ testAge y ∧ y.saf.stDone = true ∧ y.saf.ageSent = false) ∧ testAge up < 8760 := by decide +kernel

theorem test_meets_EngineTestsAreJudged :
    let g := fun n => { (up.tiled [{ tile0 1 15 (.held n) with since := 0 }]) with clk := { up.clk with now := 48000 } }
    let r := { g 16 with roles := { up.roles with gold := .running 0, testEng := some 16 } }
    let two := { r with roles := { r.roles with retired := 3 } }
    let none_ := two.tiled []
    let bring := fun n => { upAt n with roles := { up.roles with bringIn := some (17, 1), bringAt := 0 } }
    let lane := { up with roles := { up.roles with laneTest := [17], bringIn := some (17, 0) } }
    let step := fun s : State => { s with pending := [.aonFrameTimer []], tds := { s.tds with run := true }, clk := { s.clk with now := 400000 } }
    (stepWaits r = false ∧ stepWaits (step r) = true ∧ stepWaits (bring 48000) = false ∧ stepWaits lane = false ∧
        lane.roles.bringIn = some (17, 0)) ∧
      up.retired 17 = false ∧ (up.roles.bringIn ≠ some (17, 1) ∧ up.goldenTile 17 = none) ∧
      ((r.goldenTile 16).isSome = true ∧ r.retired 16 = false ∧ r.roles.testEng = some 16 ∧ r.service ≠ 2) ∧
      (r.goldenTile 16).map (·.discard) = some false ∧ (0 : Nat) + 48000 ≤ r.now ∧ (upAt 47999).now < 0 + 48000 ∧
      ((bring 48000).roles.bringIn = some (17, 1) ∧ (bring 48000).goldenTile 17 = none ∧
        (bring 48000).roles.bringAt + 48000 ≤ (bring 48000).now ∧ (bring 47999).now < (bring 47999).roles.bringAt + 48000) ∧
      (two.service = 2 ∧ two.roles.gold = .running 0 ∧ (two.goldenTile 16).isSome = true) ∧
      (none_.goldenTile 16 = none ∧ none_.service = 2 ∧ 0 + 25000 ≤ none_.now) ∧ laneTestDue up 17 = false ∧
      laneTestDue lane 17 = true ∧ (lane.eng 17).spareUsed = false := by decide +kernel

/-- The output of the release has its digest. -/
theorem test_meets_right_digest : goldenHash (Config.goldenRecords up.boot.cl) = goldenExpected up := rfl

/-- Whatever digest the release prints, some output has another. -/
theorem test_meets_wrong_digest : ∃ d, goldenHash d ≠ goldenExpected up := by
  by_cases h : goldenHash [] = goldenExpected up
  · exact ⟨[1], fun k => absurd (h.trans k.symm) (by decide +kernel)⟩
  · exact ⟨[], h⟩

/-- A store with a result region of context 15 at the end of die 0, and an edge table before it. -/
def mapped : State :=
  { up with boot := { up.boot with regions := [⟨0, 0x10000, 2, 0, 0⟩, ⟨0x10000, 0x10000, 10, 15, 0⟩, ⟨0x20000, 0x10000, 9, 15, 0⟩] } }

/-- A read of the host cluster. -/
def hostRead (addr len : Nat) : StoreReq := ⟨22, none, 0, false, 0, addr, none, len, .clean, .clean⟩

theorem test_meets_StoreAccesses :
    let bad : StoreReq := { hostRead 0x40010000 4 with die0 := .bad, die1 := .bad }
    let w : StoreReq := { hostRead 0x40020000 4 with req := 0, ctx := some 15, write := some [1, 2] }
    let held := { mapped with faults := { mapped.faults with inReset := BitVec.ofNat 30 (2 ^ 20) } }
    ((hostRead 0x40010000 4).gen = domTag mapped (reqDomain (hostRead 0x40010000 4)) ∧ w.gen = domTag mapped (reqDomain w) ∧
        { hostRead 0x40010000 4 with gen := 1 }.gen ≠ domTag mapped (reqDomain { hostRead 0x40010000 4 with gen := 1 })) ∧
      ¬(0x40000000 ≤ (hostRead 0 4).addr) ∧ held.inReset domStore = true ∧
      (mapped.inReset domStore = false ∧ regionAt mapped 0x30000 4 = none) ∧
      (regionAt mapped 0 4 = some (0, ⟨0, 0x10000, 2, 0, 0⟩) ∧ readable (hostRead 0x40000000 4) ⟨0, 0x10000, 2, 0, 0⟩ = false) ∧
      (regionAt mapped 0x10000 4 = some (1, ⟨0x10000, 0x10000, 10, 15, 0⟩) ∧
        readable (hostRead 0x40010000 4) ⟨0x10000, 0x10000, 10, 15, 0⟩ = true ∧ 10 ∉ [4, 5, 6, 7] ∧
        mapped.scrub.lost = [] ∧ mapped.scrub.poisoned = []) ∧
      (bad.die0 = .bad ∧ bad.die1 = .bad ∧ bad.write = none) ∧
      (regionAt mapped 0x20000 2 = some (2, ⟨0x20000, 0x10000, 9, 15, 0⟩) ∧ writable w ⟨0x20000, 0x10000, 9, 15, 0⟩ = true ∧
        Memory.wf mapped.store = true) ∧
      (readable (hostRead 0x40020000 4) ⟨0x20000, 0x10000, 9, 15, 0⟩ = true ∧
        regionByte mapped ⟨0x20000, 0x10000, 9, 15, 0⟩ 0 = some 0) := by decide +kernel

theorem test_meets_StoreMaintenance :
    let visit := fun s : State => s.boot.phase = .on ∧ s.now % 32768 = 0 ∧ s.inReset domStore = false
    let hours := fun s : State => s.boot.phase = .on ∧ s.now % hour = 0 ∧ 0 < hoursDue s
    let s := upAt 32768
    let h : ScrubHit := ⟨1, 15, 0, 0, .corrected⟩
    let row := (1 * 16 + 15) * 2048
    let full := { s with scrub := { s.scrub with ceRows := [(row, 15)] } }
    let end_ := { s with scrub := { s.scrub with next := 262143 } }
    let cp := { s with scrub := { s.scrub with copying := some 0 } }
    visit s ∧ ¬visit (upAt 32767) ∧ s.scrub.next % 128 ≠ 127 ∧ end_.scrub.next % 128 = 127 ∧
      (h.row = s.scrub.next / 128 ∧ h.line = s.scrub.next % 128 ∧ h.die < 2 ∧ h.bank < 16 ∧ h.state = .corrected) ∧
      amGetD s.scrub.ceRows row 0 + 1 ≠ 16 ∧ (amGetD full.scrub.ceRows row 0 + 1 = 16 ∧ row ∉ full.scrub.lost ∧
        amGetD full.wear.rowsUsed (bankOf row) 0 + 0 < 41) ∧ s.scrub.copying = none ∧ cp.scrub.copying = some 0 ∧
      0 ∉ cp.scrub.dueRows ∧ (hours (upAt (4 * 3600 * 400000000)) ∧ (upAt (4 * 3600 * 400000000)).now % (4 * hour) = 0) ∧
      (hours (upAt (3600 * 400000000)) ∧ (upAt (3600 * 400000000)).now % (4 * hour) ≠ 0) ∧ ¬hours (upAt 0) ∧ State.reset.boot.phase ≠ .on := by
  decide +kernel

/-- An engine's domain and the host's, in reset from ACLK 0. -/
def State.inRst (s : State) (d : DomainId) : State :=
  { s with faults := { s.faults with inReset := s.faults.inReset ||| BitVec.ofNat 30 (2 ^ d.val) } }

theorem test_meets_DomainResets :
    let f := (up.inRst 17).tiled [tile0 1 3 (.fenced 17)]
    let g := { f with faults := { f.faults with fences := [(17, 0)] } }
    let ended := fun (s : State) (d : DomainId) => s.inReset d = true ∧ (∀ n : EngId, engDomain n = d → s.retired n = false) ∧
      (∀ x ∈ s.faults.fences, x.1 ≠ d) ∧ s.faults.resetFrom[d] + resetTime d ≤ s.now
    let at_ := fun (d : DomainId) (n : Nat) => (upAt n).inRst d
    (Master.verifier ≠ .aon) ∧ (okWrite up (.domainReset .a (BitVec.ofNat 8 29)) = true) ∧
      ((BitVec.ofNat 30 5).toNat.testBit 2 = true ∧ (BitVec.ofNat 30 5).toNat.testBit 1 = false) ∧
      (∀ x ∈ up.faults.fences, x.1 ≠ 17) ∧ ((17, 0) ∈ g.faults.fences ∧ (tile0 1 3 (.fenced 17)) ∈ g.tds.tiles ∧ engDomain 17 = 17) ∧
      ended (at_ 17 512) 17 ∧ ¬ended (at_ 17 511) 17 ∧ ended (at_ 28 4000) 28 ∧ ended (at_ 29 20000) 29 ∧
      ended (at_ 22 800) 22 ∧ ended (at_ 21 (resetTime 21)) 21 ∧ ((at_ 17 512).eng 17).st ≠ .off := by decide +kernel

theorem test_meets_DomainWatchdogs :
    let held := fun n => { ((up.tiled [{ tile0 1 14 (.held 17) with since := 0 }]).modEng 17 fun e => { e with holding := some 1, st := .run }) with
      clk := { up.clk with now := n } }
    let step := { up with
      pending := [.aonFrameTimer []], tds := { up.tds with run := true }, clk := { up.clk with now := 400000 } }
    let hang := { upAt 400000 with links := vupd up.links 5 fun l => { l with st := .training } }
    State.reset.boot.phase ≠ .on ∧ (engDomain 17 = 17 ∧ up.boot.phase = .on ∧ up.inReset 17 = false ∧ up.heldTile 17 = none) ∧
      ((held 0).heldTile 17 = some (tile0 1 14 (.held 17)) ∧ tileLimit (held 0) (tile0 1 14 (.held 17)) = some 4000000) ∧
      (held 3999999).now < 0 + 4000000 ∧ (0 + 4000000 ≤ (held 4000000).now ∧ (held 4000000).retired 17 = false ∧
        ((held 4000000).eng 17).faulty = false ∧ retireReason (held 4000000) 17 false = none) ∧
      (stepWaits step = true ∧ step.inReset 17 = false ∧ stepWaits (held 3999999) = false ∧ stepWaits (held 4000000) = false) ∧
      ((∀ n : EngId, engDomain n ≠ 27) ∧ up.inReset 27 = false ∧ hangs up 27 0 = false) ∧ hangs hang 27 0 = true ∧
      hangs (upAt 799) domStore 0 = false ∧ hangs (upAt 800) domStore 0 = true := by decide +kernel

theorem test_meets_DumpsRun :
    let q := { up with dump := { up.dump with queue := [⟨some 17, .finding 0x0102⟩] } }
    let r := { up with dump := { up.dump with st := 1, cur := some ⟨some 17, .finding 0x0102⟩ } }
    let p := { (r.obj 0x2400 0x13 (leBytes 4 0x100000)) with faults := { r.faults with resetDue := [17] } }
    let j : DumpJob := ⟨some 17, .finding 0x0102⟩
    let words := j.units.map (·.2.2)
    let at_ := fun n k => { r with
      clk := { up.clk with now := timeoutTime + answerTime * n }, dump := { r.dump with timeouts := k } }
    (0 < words.length ∧ readOn (words.drop 0) 0 0 0 = (0, 0) ∧ (at_ 0 1).dump.timeouts = 1 ∧ (at_ 0 0).dump.timeouts ≠ 1 ∧
        ((at_ 0 1).now - timeoutTime - (at_ 0 1).dump.readTo) / answerTime = 0 ∧
        (readOn words 0 0 words.sum).1 = words.length ∧
        ((at_ words.sum 0).now - timeoutTime - (at_ words.sum 0).dump.readTo) / answerTime = words.sum) ∧
      okWrite up (.dumpReq .b) = true ∧ up.dump.queue = [] ∧ (q.dump.queue = ⟨some 17, .finding 0x0102⟩ :: [] ∧ q.dump.st ≠ 1) ∧
      up.dump.cur = none ∧ (r.dump.cur = some j ∧ r.dump.st = 1 ∧ r.dump.timeouts = 0) ∧
      retained r ⟨some 17, .finding 0x0102⟩ true = true ∧ retained p ⟨some 17, .finding 0x0102⟩ false = false ∧ r.faults.resetDue = [] ∧
      17 ∈ p.faults.resetDue ∧ Memory.wf p.psram = true := by decide +kernel

/-- What a planning image gives is the implementation's (log 8); here an empty image gives one that needs nothing. Context 15
has its four regions and a planning image of that kind. -/
def startable : State :=
  let s := (((up.obj 0x200F 0x03 (leBytes 4 9)).obj 0x200F 0x8A (leBytes 4 1)).obj 0x2310 0x01 [0])
  { s with
    images := vupd s.images 0 fun _ => { handle := 9, kind := 1, st := 2, reason := 0, offset := 0, length := 0, digest := sha512 [] }
    boot := { s.boot with regions := [⟨0, 0x100000, 7, 15, 0⟩, ⟨0x100000, 0x10000, 8, 15, 0⟩, ⟨0x110000, 0x8000, 9, 15, 0⟩,
      ⟨0x120000, 0x10000, 10, 15, 0⟩] } }

theorem startable_refused (h : Config.planImage [] = some default) : ctxStartRefused startable 15 = none := by
  have g : goodImage startable 1 (cNat startable 15 0x03) = some [] := by decide +kernel
  simp only [ctxStartRefused, planOf, g, Option.bind_some, h]
  decide +kernel

theorem test_meets_ContextsStart (h : Config.planImage [] = some default) : Accepted startable (.ctxCtrlStart .b 15) := by
  refine ⟨.b, ⟨0x2000 + 15, 0x01, [1]⟩, rfl, by decide +kernel, ?_, .inl ⟨rfl, rfl⟩⟩
  have a : startable.serves = true := by decide +kernel
  have b : isMember startable = false := by decide +kernel
  have c : commIndex (0x2000 + 15) = false := by decide +kernel
  have d : indexExists (0x2000 + 15) = true := by decide +kernel
  have e : objCtx (0x2000 + 15) = (some 15, 0x2000) := by decide +kernel
  have f : stateRefuses startable ⟨0x2000 + 15, 0x01, [1]⟩ = none := by decide +kernel
  obtain ⟨o, ho, h1, h2, h3, h4⟩ : ∃ o, objDef (0x2000 + 15) 0x01 = some o ∧ o.acc ≠ .ro ∧ (o.len.any fun n => n != 1) = false ∧
      frozenNow startable o (0x2000 + 15) 0x01 = false ∧ rngOk o.rng [1] = true := by
    refine ⟨_, rfl, ?_, ?_, ?_, ?_⟩ <;> decide +kernel
  have r : relOk startable (0x2000 + 15) 0x01 [1] = true := by decide +kernel
  have v : leNat [1] = 1 := by decide +kernel
  simp only [writeAbort, a, b, c, d, e, f, ho, h1, h2, h3, h4, r, v, startable_refused h, List.length_singleton]
  decide

theorem test_meets_ContextsStartAndStop :
    let s := up.ctxSt 15 .running
    let d := up.ctxSt 15 .draining
    let late := fun n => (upAt n).ctxSt 15 .draining
    (okWrite s (.ctxCtrlStop .a 15) = true ∧ s.started 15 = true) ∧ ((d.ctx 15).st = .draining ∧ drained d 15 = true) ∧
      (up.ctx 15).st ≠ .draining ∧ drained (d.tiled [{ tile0 1 3 .ready with ctx := 15 }]) 15 = false ∧
      ((late 40000).ctx 15).drainFrom + us (2 * tileMaxCtx (late 40000) 15 + 100) ≤ (late 40000).now ∧
      ¬((late 39999).ctx 15).drainFrom + us (2 * tileMaxCtx (late 39999) 15 + 100) ≤ (late 39999).now ∧
      (holdsOf ((late 40000).tiled [{ tile0 1 3 (.held 17) with ctx := 15 }]) 15 17 = true ∧ up.retired 17 = false ∧
        (up.eng 17).faulty = false) := by decide +kernel

/-! ### Ports, SDIO, CAN: the hypotheses are met -/

/-- Port A on SDA, Port B on CN1, both in service, the I/O domain running. -/
def ported : State :=
  { up with
    boot := { up.boot with cfg := { up.boot.cfg with portA := 0, portB := 3 }, hostUp := true }
    sda := { up.sda with en := true, f2En := true }
    cn1 := { up.cn1 with en := true, nmt := 5, bus := 0 } }

def wr (i k : Nat) (b : Bytes) : ObjWrite := ⟨i, k, b⟩
def State.held (s : State) (p : Port) (w : ObjWrite) : State := { s with sem := { s.sem with holder := some (p, w) } }

theorem test_meets_WritesAreSerialised :
    let stop := wr 0x2300 0x03 [1]
    let live := wr 0x200F 0x22 [2]
    let s := up.held .a live
    let t := { up with sem := { up.sem with tie := true } }
    State.reset.serves = false ∧ (up.serves = true ∧ stopOrder live = none ∧ up.sem.holder = none) ∧ s.sem.holder ≠ none ∧
      (stopOrder stop ≠ none ∧ writeAbort up .b stop = 0) ∧
      (stopOrder (wr 0x2700 0x10 [2]) ≠ none ∧ writeAbort up .b (wr 0x2700 0x10 [2]) ≠ 0) ∧ up.sem.tie = false ∧ t.sem.tie = true ∧
      up.sem.waiting = [] ∧ ({ up with sem := { up.sem with waiting := [(.b, live)] } } : State).sem.waiting = (.b, live) :: [] ∧
      (customIndex 0x3000 = true ∧ (ported.held .a (wr 0x3000 0 [0])).sem.holder = some (.a, wr 0x3000 0 [0]) ∧ hostHeld ported = false) ∧
      (stopOrder live = none ∧ ported.inReset domIo = false ∧ live.index ≠ 0x2600) ∧
      (s.sem.holder = some (.a, live) ∧ customIndex live.index = false ∧ s.sem.lost = false ∧ writeAbort up .a live = 0 ∧
        (objDef live.index live.sub).map (·.acc) = some .rwf) ∧
      (writeAbort up .a (wr 0x2700 0x02 [1]) = 0 ∧ (objDef 0x2700 0x02).map (·.acc) = some .rw) ∧
      writeAbort up .a (wr 0x1000 0 [0]) ≠ 0 := by decide +kernel

theorem test_meets_OwnWritesAreAnswered :
    let w := wr 0x2700 0x0E [1, 0, 0, 0]
    let other := up.held .a w
    let busy := up.ctxSt 0 .running
    ownWriteOf (.mark .b 1) = some (.b, w) ∧ State.reset.serves = false ∧
      (other.serves = true ∧ stopOrder w = none ∧ other.sem.holder = some (.a, w) ∧ (Port.a, w) ≠ (.b, w)) ∧
      (up.sem.holder = none ∧ writeAbort up .b w = 0) ∧ writeAbort up .b (wr 0x2700 0x10 [4]) ≠ 0 ∧
      okWrite up (.mark .b 1) = true ∧
      (indexExists 0x2F00 = false ∧ commIndex 0x2F00 = false ∧ isMember up = false) ∧
      (indexExists 0x2700 = true ∧ (objDef 0x2700 0xFF).isNone = true) ∧ (objDef 0x2800 0x01).map (·.acc) = some .ro ∧
      ((objDef 0x2700 0x0E).map (·.len) = some (some 4) ∧ (4 : Nat) ≠ [1].length) ∧
      (objDef 0x2700 0x0E).all (fun d => !frozenNow up d 0x2700 0x0E) = true ∧
      (objDef 0x2000 0x04).any (fun d => frozenNow busy d 0x2000 0x04) = true ∧
      stateRefuses up (wr 0x2700 0x10 [4]) = some 0x08000022 ∧ (objDef 0x2300 0x05).any (fun d => !rngOk d.rng [2]) = true := by
  decide +kernel

theorem test_meets_ReadsAreAnswered :
    let h := ported
    let q : CustReq := ⟨0x5FFF, 255, none, 0, false, false⟩
    let at_ := fun n => { (h.modPort .b fun p => { p with cust := some ⟨0x5FFF, 255, none, 0, false, false⟩ }) with clk := { h.clk with now := n } }
    let m := { h with mbx := { h.mbx with box := vupd h.mbx.box 31 fun b => { b with full := true } } }
    customIndex 0x2000 = false ∧ (customIndex 0x3000 = true ∧ customIndex 0x5FFF = true) ∧ hostHeld up = true ∧
      hostHeld h = false ∧ (h.port .b).cust.isNone = true ∧ ((at_ 0).port .b).cust = some ⟨0x5FFF, 255, none, 0, false, false⟩ ∧
      (customLate (at_ 3999999) q = false ∧ customLate (at_ 4000000) q = true ∧ q.posted = false ∧ q.lost = false ∧
        ({ q with posted := true } : CustReq).posted = true ∧ ({ q with lost := true } : CustReq).lost = true) ∧
      (∀ q, (h.port .b).cust = some q → ¬(q.index = 0x3000 ∧ q.sub = 0 ∧ q.write = none)) ∧ (isMember h = false ∧ h.serves = true) ∧
      (at_ 3999999).now < 0 + us 10000 ∧ 0 + us 10000 ≤ (at_ 4000000).now ∧ h.mbx.box[(31 : MbxId)].full = false ∧
      m.mbx.box[(31 : MbxId)].full = true ∧ h.inReset domIo = false ∧
      ([(0x2000, 0x0B), (0x2000, 0x04), (0x2001, 0xA0)].all fun (i, k) => (objDef i k).isSome) = true := by decide +kernel

theorem test_meets_SdioInterface :
    let s := ported
    let x := fun f => s.modSd .sda f
    let card := fun (c : CardState) => x fun y => { y with card := c, rca := 7 }
    let f := x fun y => { y with odIndex := 0x2700, odSub := 0x0E, fifo := [1, 0, 0, 0], odLen := 4 }
    let busy := (x fun y => { y with odStatus := 1 }).modPort .a fun p => { p with cust := some ⟨0x3000, 0, none, 0, false, false⟩ }
    let q := x fun y => { y with outQ := [[1]] }
    let m := { (x fun y => { y with memAddr := 0x1000 }) with
      boot := { s.boot with cfg := { s.boot.cfg with imageBase := 0x1000, imageSize := 0x1000 } }
      power := { s.power with chSize := Vector.replicate 8 64 } }
    let rec_ := { m with boot := { m.boot with st := 1 } }
    up.sdOn .sda = false ∧ (s.sdOn .sda = true ∧ s.portOf (sdIdx .sda) = some .a ∧ (s.sd .sda).odStatus ≠ 1) ∧
      ((f.sd .sda).fifo.length = (f.sd .sda).odLen ∧ customIndex 0x2700 = false ∧ f.serves = true ∧ f.sem.holder = none ∧
        stopOrder (wr 0x2700 0x0E [1, 0, 0, 0]) = none) ∧ ((s.sd .sda).fifo.length ≠ 1 ∧ (x fun y => { y with odLen := 1 }).sdOn .sda = true ∧ (s.port .a).ended = []) ∧
      (((x fun y => { y with mode := 0, maxMode := 1 }).sd .sda).mode = 0 ∧ ((x fun y => { y with mode := 0, maxMode := 1 }).sd .sda).maxMode < 2) ∧
      (rec_.memOn .sda = true ∧ rec_.boot.st = 1 ∧ m.inReset domPsram = false ∧ (rec_.sd .sda).memAddr.toNat + 0x1000 ≤ 2 ^ 24 ∧
        2 ^ 24 < (rec_.sd .sda).memAddr.toNat + 2 ^ 24) ∧ (psramOk up 0x1000 0x1000 = false) ∧
      ((busy.sd .sda).odStatus = 1 ∧ (busy.port .a).cust = some ⟨0x3000, 0, none, 0, false, false⟩) ∧
      (((card .idle).sd .sda).card = .idle ∧ ((card .ready).sd .sda).v18En = true ∧ 4 ≤ ((card .ready).sd .sda).maxMode) ∧
      (((card .standby).sd .sda).rca = 7 ∧ ((card .command).sd .sda).card = .command) ∧ ((7 : BitVec 16) ≠ 8) ∧
      (((x fun y => { y with card := .command, v18 := true }).sd .sda).v18 = true) ∧
      (2 ≤ ((x fun y => { y with mode := 2 }).sd .sda).mode ∧ (x fun y => { y with mode := 2 }).portOf (sdIdx .sda) = some .a ∧
        2 + (3#32).toNat / 2 % 8 ≤ ((x fun y => { y with mode := 2 }).sd .sda).maxMode) ∧
      (q.f2 .sda = true ∧ (q.sd .sda).outQ = [1] :: []) ∧ ((s.sd .sda).outQ = [] ∧ s.f2 .sda = true) ∧
      (m.memOn .sda = true ∧ memWindow m = (0x1000, 0x1000) ∧ (m.sd .sda).memAddr.toNat = 0x1000 ∧
        psramOk m 0x1000 0x1000 = true ∧ Memory.wf m.psram = true) ∧ (0x1000 + 0x1000 < 0x1000 + 0x1001) := by decide +kernel

/-- A joint sample of context c with one axis. -/
def joint (c : Byte) : Bytes := [c, 1] ++ zeros 54

theorem test_meets_JointSamplesAreKept :
    let s := (up.ctxSt 15 .running).modCtx 15 fun x => { x with plan := some { (default : PlanImage) with axes := 1 } }
    let l := s.modCtx 15 fun x => { x with joints := [(0, [])] }
    let io := { s with sda := ported.sda, cn1 := { ported.cn1 with gen := 1 } }
    let rpdo : JointArrival := ⟨.rpdo .cn1 15, joint 15 ++ zeros 8⟩
    ((parseJoint (joint 15)).ctx = 15 ∧ (joint 15).length = 56 ∧ io.f2 .sda = true) ∧
      ((parseJoint rpdo.data).ctx = 15 ∧ rpdo.data.length = 64 ∧ (io.can .cn1).en = true ∧ (io.can .cn1).bus ≠ 2 ∧
        (io.can .cn1).nmt = 5 ∧ (io.can .cn1).gen ≠ 0) ∧ State.reset.serves = false ∧
      (s.serves = true ∧ s.replaying = false ∧ isMember s = false ∧ s.inReset domIo = false) ∧
      ((s.ctx 15).st = .running ∧ (parseJoint (joint 15)).axes = 1 ∧ jointPosOk 1 (parseJoint (joint 15)).pos = true ∧
        (s.ctx 15).joints.getLast? = none) ∧ ((l.ctx 15).joints.getLast? = some (0, []) ∧ ¬0 < l.now) := by decide +kernel

theorem test_meets_CanControllers :
    let g := fun k => { ported with cn1 := { ported.cn1 with gen := k, heartbeatMs := 1 } }
    let xl := fun (x : XlSession) => { g 2 with cn1 := { (g 2).cn1 with xl := some x } }
    let w : XlSession := ⟨9, true, 0x2700, 0x0E, 4, 1, [1, 0], 0, 0, false⟩
    let r : XlSession := ⟨9, false, 0x2700, 0x0E, 2032 * 6, 4, [], 4, 0, false⟩
    let r1 : XlSession := { r with nextSeg := 6, unacked := 1 }
    let node := { ported with cn1 := { ported.cn1 with nodes := [(127, 0)] } }
    let fixed := { node with boot := { node.boot with cfg := { node.boot.cfg with scanWindows := [(3, 1, 127)] } } }
    (canPort (g 0) .cn1 0 = some .b ∧ canPort (g 1) .cn1 1 = some .b ∧ canPort (g 2) .cn1 2 = some .b) ∧
      (canPort (g 2) .cn1 2 = some .b ∧
        let mine : XlFrom := ⟨.cn1, (g 2).cn1.xlIds.reqId, (g 2).cn1.xlIds.sdt, (g 2).cn1.xlIds.vcid, (g 2).cn1.nodeId, false⟩
        xlPort mine (g 2) = some .b ∧ xlPort { mine with badOp := true } (g 2) = some .b ∧
          xlPort { mine with node := (g 2).cn1.nodeId + 1 } (g 2) = none) ∧
      ((zeros 2032).length = 2032 ∧ [(1 : Byte)].length ≠ 2032 ∧ 2 ^ 20 < (2 ^ 20 + 1 : Nat)) ∧
      ((g 0).serves = true ∧ (g 0).sem.waiting = [] ∧ (wr 0x1000 0 [0]) ∉ ((g 0).port .b).ended) ∧
      (canPort up .cn1 0 = none ∧ canPort (g 0) .cn1 1 = none ∧ canPort (g 0) .cn1 2 = none) ∧ customIndex 0x2700 = false ∧
      (((g 0).held .b (wr 0x1000 0 [0])).sem.holder = some (.b, wr 0x1000 0 [0]) ∧ writeAbort (g 0) .b (wr 0x1000 0 [0]) ≠ 0) ∧
      ((g 2).can .cn1).xl = none ∧ ((xl w).can .cn1).xl = some w ∧ (crc32 ([1, 0] ++ [0, 0]) < 2 ^ 32 ∧ ([1, 0] ++ [0, 0] : Bytes).length = w.total) ∧
      (((xl r).can .cn1).xl = some r ∧ 0 < r.unacked ∧ r.nextSeg - r.unacked = 0 ∧ r.nextSeg < 6 ∧ r.unacked = 4) ∧
      (r1.nextSeg - r1.unacked = 5 ∧ 6 ≤ r1.nextSeg ∧ max 1 ((r1.total + 2031) / 2032) = 6) ∧
      ((upAt (us 100000)).now = w.lastAt + us 100000) ∧ up.now < w.lastAt + us 100000 ∧
      (((g 0).can .cn1).en = true ∧ (g 0).inReset domIo = false ∧ ((g 0).can .cn1).heartbeatMs ≠ 0 ∧ ((g 0).can .cn1).bus ≠ 2) ∧
      (up.can .cn1).en = false ∧ (({ g 0 with cn1 := { (g 0).cn1 with bus := 2 } } : State).can .cn1).bus = 2 ∧
      (ported.serves = true ∧ isMember ported = false ∧ amGet (ported.can .cn1).nodes 127 = none) ∧
      amGet (node.can .cn1).nodes 127 = some 0 ∧ (slotOf node 3 127 = none ∧ inWindow node 3 127 = false) ∧
      (slotOf fixed 3 127 = none ∧ inWindow fixed 3 127 = true) := by decide +kernel

/-! ### Links, hedges, boot, images, modules, power: the hypotheses are met -/

/-- A link port that is up, with flits that no ACK covers. -/
def State.upLink (s : State) (l : LinkId) (f : LinkPort → LinkPort) : State :=
  { s with links := vupd s.links l fun p => f { p with en := true, st := .up } }

def flit0 : Flit := { (default : Flit) with type := 9, dest := 0 }
def sealed (f : Flit) : Flit := { f with crc := flitCrc f }
def unacked (n : Nat) : TxFlit := ⟨255, flit0, n, 0⟩

theorem test_meets_LinksCarryFlits :
    let s := up.upLink 5 id
    let r := fun n => { (up.upLink 5 fun p => { p with retry := [unacked n] }) with clk := { up.clk with now := 400 } }
    let b := { s with boot := { s.boot with cfg := { s.boot.cfg with hedge := { s.boot.cfg.hedge with
      addr := 2, levels := 1, bcast := [0, 1], lvl1 := [(0, 1), (3, 0)] } } } }
    let bad := fun (f : LinkPort → LinkPort) => { (up.upLink 5 fun p => f { p with laneErr := vupd p.laneErr 3 fun _ => 33, spareEn := true }) with
      clk := { up.clk with now := 400000000 } }
    let sp := fun n => { (up.upLink 5 fun p => { p with st := .sparing, since := 0 }) with clk := { up.clk with now := n } }
    let tr := fun (f : LinkPort → LinkPort) => up.upLink 5 fun p => f { p with st := .training, spareEn := true }
    (up.link 5).st ≠ .up ∧ ((s.link 5).st = .up ∧ (s.link 5).retry = []) ∧
      ((r 14).link 5).retry.findIdx? (fun x => x.seq == 255) = some 0 ∧ (∀ x ∈ ((r 14).link 5).retry.drop 0, x.sends < 15) ∧
      (∃ x ∈ ((r 15).link 5).retry.drop 0, 15 ≤ x.sends) ∧ 0 + 400 ≤ (r 14).now ∧ up.now < 0 + 400 ∧
      up.hedge.members.length < 200 ∧ (flit0.crc ≠ flitCrc flit0) ∧
      ((sealed { flit0 with type := 11 }).crc = flitCrc (sealed { flit0 with type := 11 })) ∧
      ((sealed flit0).crc = flitCrc (sealed flit0) ∧ (sealed flit0).type ≠ 11 ∧ (sealed flit0).seq = (s.link 5).rxNext ∧
        (sealed flit0).dest = hedgeAddr s ∧ (s.link 5).txQ = []) ∧
      ((sealed { flit0 with seq := 1 }).seq ≠ (s.link 5).rxNext) ∧
      ((5 : LinkId).val ∉ b.boot.cfg.hedge.bcast ∧ b.boot.cfg.hedge.bcast.Nodup ∧ portTo b 0 = some 1 ∧ portTo b 2 = none ∧
        hedgeAddr b = 2) ∧
      ((bad id).now % 400000000 = 0 ∧ ((bad id).link 5).spareUsed = false ∧ 32 < ((bad id).link 5).laneErr[(3 : Fin 5)] ∧
        ∀ j : Fin 5, j.val ≠ 4 → 32 < ((bad id).link 5).laneErr[j] → j = 3) ∧ (upAt 1).now % 400000000 ≠ 0 ∧
      (∀ i : Fin 5, ¬32 < (s.link 5).laneErr[i]) ∧
      ((bad fun p => { p with spareUsed := true, sparedLane := 0 }).link 5).spareUsed = true ∧
      (((sp 8000).link 5).st = .sparing ∧ 0 + 8000 ≤ (sp 8000).now ∧ (sp 7999).now < 0 + 8000 ∧ isMember (sp 8000) = false) ∧
      (((tr id).link 5).st = .training ∧ ((tr id).link 5).spareUsed = false ∧ ((tr id).link 5).trainFails + 1 < 3) ∧
      (((tr fun p => { p with trainFails := 2 }).link 5).trainFails + 1 = 3) ∧
      ((tr fun p => { p with spareUsed := true, sparedLane := 4 }).link 5).spareUsed = true ∧ (4 : Fin 5) ∉ [0] := by decide +kernel

theorem test_meets_LinksCarryFlitsRetry :
    let p : LinkPort := (up.link 5)
    let kept := [unacked 14]
    let tells := { flit0 with type := 10, src := 0x105, payload := zeros 7 ++ [(25 : Byte)] ++ leBytes 2 0x0503 ++ zeros 22 }
    let root := (up.upLink 5 id)
    let unit := { root with boot := { root.boot with cfg := { root.boot.cfg with hedge := { root.boot.cfg.hedge with
      addr := 0x100, levels := 2 } } } }
    (∃ x ∈ kept, x.seq = 255) ∧ (∀ x ∈ kept, x.seq ≠ 7) ∧ (∀ x ∈ kept, x.sends < 15) ∧ (∃ x ∈ [unacked 15], 15 ≤ x.sends) ∧
      (hedgeRole unit = 2 ∧ tells.type = 10 ∧ tells.src / 256 = hedgeAddr unit / 256 ∧ u tells.payload 8 2 = 0x0503 ∧
        u tells.payload 7 1 = 22 + 3) ∧ (∀ k : LinkId, u flit0.payload 7 1 ≠ 22 + k.val) ∧
      (tells.dest ≠ 0xFFFF ∧ tells.dest ≠ hedgeAddr unit ∧ p.greeted = false ∧ ({ p with greeted := true } : LinkPort).greeted = true) ∧
      (∀ x ∈ ((up.upLink 5 fun p => { p with st := .sparing, since := 0 }).link 5).retry, x.sends < 15) := by decide +kernel

/-- A chip of a hedge: its address, the levels, port 5 towards every chip. -/
def State.hedged (s : State) (addr levels : Nat) : State :=
  { (s.upLink 5 id) with
    boot := { s.boot with hedgeDigest := zeros 16, cfg := { s.boot.cfg with
      hedge := ⟨addr, levels, [1, 0x100], [(0, 5), (1, 5)], [(0, 5), (1, 5), (2, 5)], [5]⟩ } } }
def State.mem (s : State) (l : List Member) : State := { s with hedge := { s.hedge with members := l } }

theorem test_meets_HedgeMembersRoot :
    let top := up.hedged 0 1
    let unit := up.hedged 0x100 2
    let leaf := up.hedged 2 1
    let has := fun st => top.mem [⟨1, st, 3, 0, 0, false⟩]
    let w := fun a => wr 0x2800 0x0B (leBytes 2 a)
    (hedgeRole up = 0 ∧ hedgeRole leaf = 1 ∧ hedgeRole unit = 2 ∧ hedgeRole top = 3) ∧
      ((has 5).member 1 = some ⟨1, 5, 3, 0, 0, false⟩ ∧ (has 3).member 1 = some ⟨1, 3, 3, 0, 0, false⟩ ∧ top.member 1 = none) ∧
      (portTo unit 0 = some 5 ∧ (unit.link 5).st = .up ∧ (unit.link 5).txQ = [] ∧ (unit.link 5).retry.length + 2 ≤ 64 ∧
        unit.boot.hedgeDigest.length = 16 ∧ (0x105 : Nat) / 256 = hedgeAddr unit / 256) ∧
      (1 ∈ top.boot.cfg.hedge.expected ∧ 3 ∉ top.boot.cfg.hedge.expected ∧ top.boot.cl = 0) ∧ portTo top 1 = some 5 ∧
      ((has 3).serves = true ∧ writeAbort (has 3) .a (w 1) = 0 ∧ (has 3).sem.holder = none) ∧
      (writeAbort (has 4) .a (w 1) = 0 ∧ writeAbort (has 4) .b (wr 0x2800 0x0C (leBytes 2 1)) = 0) ∧
      (has 3).boot.cfg.hedge.levels ≠ 2 ∧
      (let judged := fun (powered : Bool) (s : State) => s.hedge.members.filterMap fun m =>
          if powered = false ∨ m.addr ≠ 1 then some m else if m.st ≠ 5 then some { m with ignored := false }
          else if 1 ∈ s.boot.cfg.hedge.expected then some { m with st := 1 } else none
       ((judged false (has 5)).find? fun m => m.addr == 1) = some ⟨1, 5, 3, 0, 0, false⟩ ∧
          ((judged true (has 5)).find? fun m => m.addr == 1) = some ⟨1, 1, 3, 0, 0, false⟩ ∧
          ((judged true (top.mem [⟨1, 3, 3, 0, 0, true⟩])).find? fun m => m.addr == 1) = some ⟨1, 3, 3, 0, 0, false⟩) ∧
      (top.mem [⟨1, 3, 3, 0, 0, true⟩]).member 1 = some ⟨1, 3, 3, 0, 0, true⟩ ∧
      ((has 4).member 1 = some ⟨1, 4, 3, 0, 0, false⟩) := by decide +kernel

theorem test_meets_HedgeMembersDealt :
    let top := up.hedged 0 1
    let leaf := up.hedged 2 1
    let m := { leaf with hedge := { leaf.hedge with admitted := true } }
    let ap := { m with hedge := { m.hedge with applies := true } }
    let tile : DealtTile × EngId × Tile := (⟨9, []⟩, 0, { (default : Tile) with ctx := 15, station := 3, seq := 0, status := .ready })
    let has := fun st => top.mem [⟨1, st, 3, 0, 0, false⟩]
    let g := { (m.modEng 0 fun e => { e with waiting := true, st := .takeWait }) with tds := { m.tds with run := true, nextHandle := 1 } }
    (isMember leaf = false ∧ isMember m = true ∧ m.hedge.applies = false ∧ isMember ap = true ∧ ap.hedge.applies = true) ∧
      ((m.ctx 15).rm.reselect = false ∧ (m.ctx 15).st ≠ .running ∧ ((ap.ctxSt 15 .running).ctx 15).st = .running) ∧
      ((has 3).member 1 = some ⟨1, 3, 3, 0, 0, false⟩ ∧ (3 : BitVec 4).toNat = 3) ∧ (top.member 1 = none) ∧
      ((has 3).member 1 = some ⟨1, 3, 3, 0, 0, false⟩ ∧ 0 < (5 : Nat)) ∧
      ((odItems 9 (leBytes 2 0x2700 ++ leBytes 1 0x0E ++ leBytes 2 4 ++ zeros 4)).length = 1 ∧
        ∀ y ∈ odItems 9 (leBytes 2 0x2700 ++ leBytes 1 0x0E ++ leBytes 2 4 ++ zeros 4), ∀ c : CtxId, y.1 ≠ 0x2201 + c.val) ∧
      (takes g 0 = true ∧ nextFor { g with hedge := { g.hedge with dealtWait := [tile] } } 0 = some (.dealt tile.1 tile.2.2)) ∧
      (¬(takes m 0 = true ∧ nextFor { m with hedge := { m.hedge with dealtWait := [tile] } } 0 = some (.dealt tile.1 tile.2.2))) ∧
      ((default : TileDefect).search = none ∧ u (zeros 8 ++ leBytes 2 0x0501 ++ zeros 22) 8 2 = 0x0501 ∧
        u (zeros 7 ++ [(25 : Byte)] ++ leBytes 2 0x0503 ++ zeros 22) 7 1 = 22 + 3) := by decide +kernel

theorem test_meets_HedgeMembersTiles :
    let top := up.hedged 0 1
    let leaf := up.hedged 2 1
    let m := { leaf with hedge := { leaf.hedge with admitted := true } }
    let has := fun st => top.mem [⟨1, st, 3, 0, 0, false⟩]
    let late := fun n => { has 3 with clk := { up.clk with now := n } }
    let limit := us (oNat top 0x2800 0x0A)
    let dealt := (has 3).tiled [tile0 7 3 (.dealt 1 17)]
    let twin := (has 3).tiled [{ tile0 7 3 (.dealt 1 17) with xchk := true }, { tile0 8 3 .ready with xchk := true, copyB := true }]
    let idle := m.modEng 17 fun e => { e with waiting := true, st := .takeWait }
    let e := entryBytes 0 0x0B 15 (zeros 16)
    let t := entryBytes 0 0x09 31 (zeros 6)
    (∀ i : Fin 64, m.images[i].st = 0) ∧ ((entryOf e).ty = 0x0B ∧ (entryOf e).tick ≤ m.world.tick) ∧
      ((entryOf t).ty = 0x09 ∧ (entryOf t).src = 31 ∧ (entryOf t).payload.drop 6 = []) ∧
      (entryOf (entryBytes 0 0x07 0 (zeros 8))).ty = 0x07 ∧ takes m 17 = false ∧ portTo m 0 = some 5 ∧
      (takes ({ (idle.modEng 0 fun e => { e with waiting := true, st := .takeWait }) with tds := { m.tds with run := true, nextHandle := 1 } }) 0 = true ∧
        ∀ x ∈ m.tds.tiles, x.handle < m.tds.nextHandle) ∧
      m.hedge.lastTx + us 10 ≤ ({ m with clk := { m.clk with now := 4000 } } : State).now ∧ m.now < m.hedge.lastTx + us 10 ∧
      (top.hedge.digests.find? fun x => x.1 == 5) = none ∧
      (({ top with hedge := { top.hedge with digests := [(5, 1, zeros 16)] } } : State).hedge.digests.find? fun x => x.1 == 5) = some (5, 1, zeros 16) ∧
      (dealt.tile 7 = some (tile0 7 3 (.dealt 1 17)) ∧ (∀ x ∈ dealt.tds.tiles, x.handle ≠ dealt.tds.nextHandle)) ∧ (has 3).tile 7 = none ∧
      (twin.tile 7).bind (otherCopy twin) = some { tile0 8 3 .ready with xchk := true, copyB := true } ∧
      (u (zeros 32) 8 2 ≠ 0x0505 ∧ u (zeros 8 ++ leBytes 2 0x0505 ++ zeros 22) 8 2 = 0x0505) ∧
      ((0x100 : Nat) % 256 = 0 ∧ u (zeros 24 ++ leBytes 4 (1 + 2 * 65536) ++ zeros 4) 24 4 % 65536 = 1 ∧ (has 3).member 1 ≠ none ∧
        top.boot.cfg.hedge.levels ≠ 2 ∧ top.member 1 = none) ∧
      (0 + limit ≤ (late limit).now ∧ ¬0 + limit ≤ (late (limit - 1)).now) := by decide +kernel

/-- What a seed's bytes hold is the implementation's (log 6). -/
theorem test_meets_HedgeMembersSeed (h : seedOf [] = some default) : (some ([] : Bytes)).bind seedOf = some default ∧
    (none : Option Bytes).bind seedOf = none := ⟨h, rfl⟩

/-- A signed configuration record of lifecycle 1, six regions, and firmware, in the boot flash. -/
def recBoot : Bytes :=
  let r := fun (k off m : Nat) => leBytes 4 off ++ leBytes 4 65536 ++ [BitVec.ofNat 8 k, 0xFF, BitVec.ofNat 8 m] ++ zeros 5
  let regs := r 1 0 1 ++ r 2 65536 1 ++ r 3 131072 1 ++ r 4 196608 1 ++ r 5 262144 0 ++ r 6 (2 ^ 28 + 262144) 0
  let body := leBytes 4 1 ++ zeros 4 ++ leBytes 4 2 ++ leBytes 4 96 ++ regs ++ leBytes 4 3 ++ leBytes 4 72 ++ zeros 72
  leBytes 4 1 ++ leBytes 4 (192 + body.length + 64) ++ zeros 4 ++ [1] ++ zeros 51 ++
    (leBytes 4 1 ++ [0, 2] ++ zeros 10 ++ weakKey ++ zeros 16 ++ weakSig) ++ body ++ weakSig
def fwBoot : Bytes := leBytes 4 1 ++ leBytes 4 128 ++ zeros 56 ++ weakSig

/-- The supply rises; the flash holds what a boot needs. -/
def ramping : State :=
  { State.reset with
    boot := { State.reset.boot with phase := .ramp }
    flash := cells 0 recBoot ++ cells 0x100000 fwBoot }

theorem test_meets_BootAndRecovery :
    let held := { up with boot := { up.boot with phase := .held } }
    let at_ := fun n => { ramping with clk := { ramping.clk with now := n } }
    let rc := { up with
      boot := { up.boot with st := 1, recLen := 448, flashSize := 2 ^ 26 }
      sda := { up.sda with en := true }, sdb := { up.sdb with en := true }
      power := { up.power with chSize := Vector.replicate 8 64 } }
    let other := { rc with boot := { rc.boot with recHolder := some .sdb } }
    let nonce := zeros 32
    let at1 := { up with boot := { up.boot with attest := 1 } }
    held.boot.phase = .held ∧ up.boot.phase ≠ .held ∧ (ramping.boot.phase = .ramp ∧ 0 + 4000000 ≤ (at_ 4000000).now) ∧
      ¬0 + 4000000 ≤ (at_ 3999999).now ∧ up.boot.phase = .on ∧ held.boot.phase ≠ .on ∧
      (rc.boot.st = 1 ∧ (rc.sd .sda).en = true ∧ rc.boot.recHolder = none) ∧ up.boot.st ≠ 1 ∧
      (other.boot.recHolder = some .sdb ∧ SdIf.sdb ≠ .sda) ∧ rc.boot.recHolder = none ∧
      (rc.boot.recLen.toNat ≤ 2 ^ 24 ∧ psramOk rc 0 448 = true ∧ recLength (staged rc) ≠ (staged rc).length) ∧
      (0x1000000 + rc.boot.recArg.toNat + (staged rc).length ≤ rc.boot.flashSize) ∧ Memory.wf rc.flash = true ∧
      (up.serves = true ∧ writeAbort up .a (wr 0x2500 0x08 nonce) = 0 ∧ up.sem.holder = none) ∧ up.boot.attest ≠ 1 ∧
      at1.boot.attest = 1 := by decide +kernel

/-- The secrets and layouts that a boot needs are the implementation's (logs 6, 9): with a root key of small order, a device
seed that its digest confirms and a record whose section bodies are well formed, a boot passes its checks. -/
theorem test_meets_BootPasses (hk : Config.rootKey 0 = weakKey) (hp : Config.pufSeed (flashRead ramping helperBase 4096) = [])
    (hd : Config.helperDigest (flashRead ramping helperBase 4096) = (sha512 []).take 16) (id : Bytes) :
    deviceSeed ramping ≠ none ∧ recordReason id (flashRecord ramping) = 0 ∧ flashFirmware ramping ≠ none ∧
      u (flashRecord ramping) 14 2 ≤ Config.clMax ∧
      (sectionsOf 40 (slice recBoot 192 (recBoot.length - 256))).map (·.map (·.1)) = some [1, 2, 3] := by
  have b : flashRecord ramping = recBoot := by decide +kernel
  have c : flashRead ramping fwBase 128 = fwBoot := by decide +kernel
  have d : u (flashRead ramping fwBase 8) 4 4 = 128 := by decide +kernel
  refine ⟨?_, ?_, ?_, ?_, ?_⟩
  · simp only [deviceSeed, hp, hd, ↓reduceIte]; exact Option.some_ne_none _
  · have e : u (slice recBoot 64 128) 4 1 = 0 := by decide +kernel
    have f : certOk (slice recBoot 64 128) = true := by
      simp only [certOk, e, hk]; decide +kernel
    have g : (u recBoot 0 4 ≠ 1 ∨ recBoot.length < 448 ∨ 262144 < recBoot.length ∨ recBoot.length ≠ recLength recBoot) = False := by
      decide +kernel
    have l : u recBoot 12 1 = 1 := by decide +kernel
    have k : signedBy (slice (slice recBoot 64 128) 16 32) recBoot = true := by decide +kernel
    have n : (u (slice recBoot 64 128) 5 1).testBit 1 = true := by decide +kernel
    rw [b]
    simp [recordReason, f, g, l, k, n, within]
  · have e : rootSigned fwBoot = true := by
      simp only [rootSigned, hk, Bool.or_eq_true]; exact .inl (by decide +kernel)
    have f : min (15 * 2 ^ 20) 128 = 128 := by decide
    have g : u fwBoot 0 4 = 1 := by decide +kernel
    simp only [flashFirmware, d, f, c, e, g]
    decide
  · rw [b]; decide +kernel
  · decide +kernel

/-- A device certificate of an enrolled seed, signed under the root key 0. -/
def certBoot : Bytes := leBytes 4 1 ++ [0, 2] ++ zeros 10 ++ prodPublic [] ++ zeros 16 ++ weakSig

theorem test_meets_BootCertificate (hk : Config.rootKey 0 = weakKey) (hp : Config.pufSeed (flashRead ramping helperBase 4096) = [])
    (hd : Config.helperDigest (flashRead ramping helperBase 4096) = (sha512 []).take 16) :
    certBoot.length = 128 ∧ certOk certBoot = true ∧ deviceSeed ramping = some [] ∧ slice certBoot 16 32 = prodPublic [] := by
  refine ⟨by decide +kernel, ?_, ?_, by decide +kernel⟩
  · have e : u certBoot 4 1 = 0 := by decide +kernel
    simp only [certOk, e, hk]; decide +kernel
  · simp only [deviceSeed, hp, hd, ↓reduceIte]

theorem test_meets_BootWithoutSeed (hp : Config.pufSeed (flashRead ramping helperBase 4096) = [])
    (hd : Config.helperDigest (flashRead ramping helperBase 4096) = []) : deviceSeed ramping = none := by
  have h : (sha512 []).take 16 ≠ [] := by decide +kernel
  simp only [deviceSeed, hp, hd, h, ↓reduceIte]

/-- An image entry that waits for its check. -/
def State.img (s : State) (k : Fin 64) (e : ImgEntry) : State := { s with images := vupd s.images k fun _ => e }
def State.sl (s : State) (k : Fin 32) (f : Slot → Slot) : State :=
  { s with modules := { s.modules with slots := vupd s.modules.slots k f } }

theorem test_meets_ImagesModulesPower :
    let data := leBytes 4 9 ++ [2, 0, 0, 0] ++ leBytes 4 0 ++ leBytes 4 960
    let one := up.img 63 ⟨9, 3, 1, 0, 0, 64, []⟩
    let w := wr 0x2500 0x11 (leBytes 4 9)
    let poll := { (upAt 400000) with boot := { up.boot with cfg := { up.boot.cfg with tagPollMs := 1, fixedSlots := [⟨1, 80, 0, 0⟩] } } }
    let present := poll.sl 0 fun x => { x with st := 2, bus := 1, addr := 80 }
    let reading := up.sl 31 fun x => { x with st := 1 }
    let got := up.sl 31 fun x => { x with st := 1, raw := [1] }
    let nap := ({ upAt 64 with tds := { up.tds with run := true } } : State).modEng 0 fun e => { e with waiting := true, st := .takeWait }
    let doze := { (((upAt 2064).obj 0x2600 0x09 [1]).obj 0x2600 0x0A (leBytes 2 0)) with
      engines := Vector.replicate 18 { Engine.reset with st := .nap } }
    let alarm := { (up.obj 0x2600 0x0E (leBytes 4 1)) with boot := { up.boot with phase := .partOff }, clk := { up.clk with rtc := 1 } }
    (okWrite up (.imgRegister .a data) = true ∧ up.images[(0 : Fin 64)].st = 0) ∧
      (up.images[(63 : Fin 64)].st ≠ 1 ∧ one.images[(63 : Fin 64)].st = 1) ∧ imageVerdict one one.images[(63 : Fin 64)] = 1 ∧ (imageBusy one 9 = false ∧ writeAbort one .b w = 0) ∧
      imageBusy { one with world := { one.world with fcImage := 9 } } 9 = true ∧ writeAbort up .b w = 0x06090030 ∧
      (poll.serves = true ∧ poll.inReset domIo = false ∧ poll.now % (1 * 400000) = 0 ∧ slotPlace poll 0 = some (1, 80) ∧
        slotOf poll 1 80 = some 0 ∧ (poll.slot 0).st = 0) ∧ up.boot.cfg.tagPollMs = 0 ∧
      ((present.slot 0).st = 2 ∧ (present.slot 0).nacks = 0) ∧ ((reading.slot 31).st = 1 ∧ (reading.slot 31).raw = []) ∧
      ((got.slot 31).st = 1 ∧ (got.slot 31).raw ≠ []) ∧ (up.slot 31).st ≠ 1 ∧
      (takes nap 0 = true ∧ (nap.eng 0).idleFrom + 64 ≤ nap.now ∧ nextFor nap 0 = none) ∧ takes up 0 = false ∧
      (oNat doze 0x2600 0x09 = 1 ∧ us 20 ≤ toNextWake doze ∧ workWaits doze = false ∧
        ∀ n : EngId, (doze.eng n).st = .nap ∧ (doze.eng n).idleFrom + 64 + us 5 ≤ doze.now) ∧ oNat (up.obj 0x2600 0x09 [0]) 0x2600 0x09 = 0 ∧
      toNextWake (upAt 400000) = 0 ∧ workWaits (up.tiled [tile0 1 3 .ready]) = true ∧
      (({ (up.obj 0x2600 0x0B [1]) with boot := { up.boot with hostUp := true } } : State).boot.hostUp = true) ∧
      okWrite up (.offReq .a) = true ∧ (oNat alarm 0x2600 0x0E ≠ 0 ∧ oNat alarm 0x2600 0x0E = alarm.clk.rtc) ∧
      ((upAt (us 1000)).now % us 1000 = 0 ∧ (upAt 1).now % us 1000 ≠ 0) ∧ (upAt (us 10000)).now % us 10000 = 0 ∧
      State.reset.boot.phase ≠ .on := by decide +kernel

/-- Whether the header of a forecast image is well formed is the implementation's (log 6). -/
theorem test_meets_ImageValid (h : Config.headerOk 3 weakSig = true) :
    let s := { up.img 63 ⟨9, 3, 1, 0, 0, 64, []⟩ with
      psram := [(0, 1)]
      power := { up.power with chSize := Vector.replicate 8 64 }
      boot := { up.boot with ownerKey := weakKey, cfg := { up.boot.cfg with imageSize := 4096 } } }
    s.images[(63 : Fin 64)].st = 1 ∧ signedBy s.boot.ownerKey (memRead s.psram 0 64) = true ∧
      imageFormOk 3 (memRead s.psram 0 64) = true ∧ psramOk s 0 64 = true := by
  have m : memRead [(0, (1 : Byte))] 0 64 = weakSig := by decide +kernel
  refine ⟨by decide +kernel, by decide +kernel, ?_, by decide +kernel⟩
  simp only [imageFormOk, m, h]
  decide

theorem test_meets_WeightsAreWrittenByAon : up.anyRuns = false ∧ (up.ctxSt 0 .draining).anyRuns = true ∧
    (0xFFFF : Word).toNat % 4096 ≠ 0 ∧ (0x1000 : Word).toNat % 4096 = 0 ∧ ramping.boot.phase = .ramp ∧
    (Master.fuse ≠ .aon ∧ ∀ n, Master.fuse ≠ .engine n) := by decide +kernel

theorem test_meets_RegisterWrites :
    let ps := { up with power := { up.power with chSize := Vector.replicate 8 64 } }
    let held := up.inRst domPsram
    let dead := { up with roles := { up.roles with retired := BitVec.ofNat 18 (2 ^ 17) } }
    let owned := up.modEng 17 fun e => { e with banks := vupd e.banks 15 fun b => { b with owner := 2 } }
    (∀ n, Master.aon ≠ .engine n) ∧ held.inReset domPsram = true ∧ psramOk up 0 4 = false ∧
      (ps.inReset domPsram = false ∧ psramOk ps (2 ^ 29 - 4) 4 = true) ∧ psramOk ps (2 ^ 29 - 3) 4 = false ∧
      dead.retired 17 = true ∧ (owned.retired 17 = false ∧ owned.inReset (engDomain 17) = false ∧
        ownerCode 17 .aon = some (owned.eng 17).banks[(15 : BankId)].owner ∧ 0x3FFFFC + 4 ≤ 2 ^ 22) ∧
      ownerCode 17 (.host 0) ≠ some (owned.eng 17).banks[(15 : BankId)].owner ∧ up.fuseReset = false ∧
      (up.inRst domVerifier).inReset domVerifier = true ∧ up.inReset domVerifier = false ∧ up.anyRuns = false ∧
      ((0x80 : Word).toNat / 16 % 16 = 8 ∧ (0x90 : Word).toNat / 16 % 16 = 9) ∧
      ((1 : Word).setWidth 2 ≠ ((1 : Word) >>> 2).setWidth 2) ∧ (2 : Word).toNat.testBit 1 = true ∧ coreOf .verifier ≠ some 0 ∧
      (ported.sdOn .sda = true ∧ ported.portOf (sdIdx .sda) = some .a ∧ (ported.sd .sda).odStatus ≠ 1) ∧ ported.boot.st ≠ 1 ∧
      up.sdOn .sda = false ∧ engineLive up 0 = true ∧
      (let free := { ported with boot := { ported.boot with cfg := { ported.boot.cfg with portA := 2 } } }
       free.sdOn .sda = true ∧ free.portOf (sdIdx .sda) = none ∧ 0x0FFD + 4 ≤ 0x1001 ∧ free.boot.st ≠ 1) ∧
      (∃ p ∈ [Port.a], ported.portOf (sdIdx .sda) = some p ∧ p ≠ .b) ∧
      (domTag up (masterDomain .verifier) = 0 ∧ (1 : Nat) ≠ domTag up (masterDomain .verifier)) ∧ 0x10000 % 0x10000 = 0 := by
  decide +kernel

/-! ### Ill-formed commands: each check refuses one -/

theorem test_wf_addresses : (Instr.registerWrite .aon (2 ^ 64) (.word 0)).wf = false ∧
    (Instr.registerWrite .aon (2 ^ 64 - 1) (.word 0)).wf = true ∧
    (Instr.registerWrite .aon 0 (.store [] none)).wf = false ∧ (Instr.registerWrite .aon 0 (.store (zeros 257) none)).wf = false ∧
    (Instr.registerWrite .aon 0 (.load 0 none)).wf = false ∧ (Instr.registerWrite .aon 0 (.load 257 none)).wf = false ∧
    (Instr.registerWrite .aon 0 (.load 256 (some (2 ^ 19)))).wf = false ∧
    (Instr.registerWrite .aon 0 (.store [0] (some (2 ^ 19)))).wf = false ∧ (Instr.registerWrite .aon 0 (.store [0] (some 0))).wf = true ∧
    (Instr.storeAccess (hostRead (2 ^ 64) 4)).wf = false ∧ (Instr.storeAccess (hostRead 0 513)).wf = false ∧
    (Instr.storeAccess { hostRead 0 4 with station := 16 }).wf = false ∧
    (Instr.storeAccess { hostRead 0 0 with write := some (zeros 513) }).wf = false ∧ (Instr.storeAccess (hostRead 0 512)).wf = true ∧
    (Instr.engineStop 0 0 0 (2 ^ 19)).wf = false ∧ (Instr.eccWriteback 0 0 (2 ^ 19)).wf = false := by decide +kernel

theorem test_wf_ingress : (Instr.frameStart 0 [2 ^ 23]).wf = false ∧ (Instr.aonFrameTimer [2 ^ 23]).wf = false ∧
    (Instr.csiFrameStart 0 ⟨65536, .good, default⟩).wf = false ∧
    (Instr.csiLongPacket 0 ⟨64, .good, [], true, false, default⟩).wf = false ∧
    (Instr.csiLongPacket 0 ⟨63, .good, [], true, false, default⟩).wf = true ∧ (Instr.snapshot ⟨0, [2 ^ 17]⟩).wf = false := by decide +kernel

theorem test_wf_tiles : (Instr.tileCommit .aon 0 0 { (default : TileDefect) with entries := [(true, 2 ^ 17)] }).wf = false ∧
    (Instr.tileCommit .aon 0 0 { (default : TileDefect) with world := [2 ^ 23] }).wf = false ∧
    (Instr.tileCommit .aon 0 0 { (default : TileDefect) with skipped := [2 ^ 32] }).wf = false ∧
    (Instr.resultFlit 0 0 0 true { (default : TileDefect) with early := [2 ^ 32] }).wf = false ∧
    (Instr.tileCommit .aon 0 0 { (default : TileDefect) with skipped := [63 * 2 ^ 24 + 255] }).wf = true ∧
    (Instr.tileCommit .aon 0 0 default).wf = true ∧
    (Instr.clippingPassRegion 0 (List.replicate 65 (true, 0, 0))).wf = false ∧
    (Instr.domainResetEnd ⟨21, [8]⟩).wf = false ∧ (Instr.domainResetEnd ⟨21, []⟩).wf = true := by decide +kernel

theorem test_wf_golden_length (l : Bytes) (h : 16384 < l.length) : (Instr.goldenDigest 0 l).wf = false := by
  simp only [Instr.wf]; simpa using h

theorem test_wf_packet_length (l : Bytes) (h : 65536 ≤ l.length) : (Instr.csiLongPacket 0 ⟨0x2E, .good, l, true, false, default⟩).wf = false := by
  simp [Instr.wf, packetOk, Sys2Proof.fits]; omega

theorem test_wf_delta_length (l : Bytes) (h : 2 ^ 20 < l.length) : (Instr.deltaIn .a 0 l).wf = false := by
  simp only [Instr.wf]; simpa using h

theorem test_wf_object_length (l : Bytes) (h : 2 ^ 20 < l.length) : (Instr.objectWrite none (some ⟨0, 0, l⟩)).wf = false := by
  simp only [Instr.wf, objWriteOk, Option.all]; simp; omega

/-- An XL block frame that names nothing special. -/
def xl0 : XlFrom := ⟨.cn0, 0, 0, 0, 0, false⟩

theorem test_wf_objects : (Instr.xlAbort { xl0 with prio := 2048 } 0 0).wf = false ∧ (Instr.xlAbort { xl0 with sdt := 256 } 0 0).wf = false ∧
    (Instr.xlAbort { xl0 with vcid := 256 } 0 0).wf = false ∧ (Instr.xlAbort { xl0 with node := 128 } 0 0).wf = false ∧
    (Instr.xlAbort xl0 0 0).wf = true ∧ (Instr.jointSample ⟨.jointIn .sda, zeros 65⟩).wf = false ∧
    (Instr.registerWrite .aon 0 (.tagged none 16 (.word 0))).wf = false ∧
    (Instr.objectWrite (some ⟨65536, 0, []⟩) none).wf = false ∧ (Instr.objectRead .a 0 256).wf = false ∧
    (Instr.customerObjectAccess .a 65536 0 none none).wf = false ∧ (Instr.sdoDownload (.segmented .cn0) 65536 0 []).wf = false ∧
    (Instr.sdoUpload (.block .cn0) 0 256).wf = false ∧ (Instr.usdoDownload .cn0 0 256 []).wf = false ∧
    (Instr.usdoUpload .cn0 65536 0).wf = false ∧ (Instr.xlRead xl0 0 65536 0).wf = false ∧
    (Instr.xlWrite xl0 0 0 256 0 false 0 []).wf = false ∧ (Instr.xlWrite xl0 0 0 0 (2 ^ 32) false 0 []).wf = false ∧
    (Instr.xlData xl0 0 65536 false 0 []).wf = false ∧ (Instr.xlAck xl0 0 65536).wf = false ∧
    (Instr.heartbeatReceived .cn0 0).wf = false ∧ (Instr.bootUpMessage .cn0 128).wf = false ∧
    (Instr.heartbeatTimeout .cn0 128).wf = false ∧ (Instr.heartbeatTimeout .cn0 127).wf = true := by decide +kernel

theorem test_wf_segment_length (l : Bytes) (h : 2032 < l.length) : (Instr.xlData xl0 0 0 false 0 l).wf = false := by
  simp only [Instr.wf, segOk]; simp; omega

theorem test_wf_links : (Instr.flitReceive 0 { flit0 with dest := 65536 } []).wf = false ∧
    (Instr.flitReceive 0 { flit0 with len := 241 } []).wf = false ∧
    (Instr.flitReceive 0 { flit0 with payload := zeros 241 } []).wf = false ∧ (Instr.flitReceive 0 flit0 []).wf = true ∧
    (Instr.helloFlit 0 ⟨0, false⟩ 65536 0 0).wf = false ∧ (Instr.helloFlit 0 ⟨0, false⟩ 0 0 4).wf = false ∧
    (Instr.imageFlit (2 ^ 32) 0 []).wf = false ∧ (Instr.imageFlit 0 256 []).wf = false ∧ (Instr.entryFlit ⟨zeros 15, false⟩).wf = false ∧
    (Instr.entryFlit ⟨zeros 17, false⟩).wf = false ∧ (Instr.reportFlit ⟨0, 0⟩ (2 ^ 48) 0 0).wf = false ∧
    (Instr.tileFlit ⟨2 ^ 32, []⟩ 0 0 0 0).wf = false ∧ (Instr.tileFlit ⟨0, []⟩ 0 16 0 0).wf = false ∧ (Instr.tileFlit ⟨0, []⟩ 0 0 (2 ^ 32) 0).wf = false ∧
    (Instr.resultFlit 0 0 (2 ^ 32) true default).wf = false ∧ (Instr.faultFlit ⟨0, 0⟩ (zeros 31)).wf = false ∧
    (Instr.tileCommit .aon 0 (2 ^ 32) default).wf = false := by decide +kernel

theorem test_wf_units : (Instr.temperatureFault 128).wf = false ∧ (Instr.temperatureFault (-128)).wf = true ∧
    (Instr.scrubRead [⟨2, 0, 0, 0, .clean⟩]).wf = false ∧ (Instr.scrubRead [⟨0, 16, 0, 0, .clean⟩]).wf = false ∧
    (Instr.scrubRead [⟨0, 0, 2048, 0, .clean⟩]).wf = false ∧ (Instr.scrubRead [⟨0, 0, 0, 128, .clean⟩]).wf = false ∧
    (Instr.wearRecordWrite 0 0 0 (-129)).wf = false ∧ (Instr.pwrgdCoreRise ⟨[], [], [], [8], 0⟩).wf = false ∧
    (Instr.pwrgdCoreRise ⟨[], [], [], List.replicate 9 8, 0⟩).wf = false ∧
    (Instr.rtcAlarm ⟨[], [], [], [8, 8, 8, 8, 8, 8, 8, 9], 0⟩).wf = false ∧
    (Instr.pwrgdCoreRise ⟨[], [], [], [0, 8, 16, 32, 64, 64, 64, 64], 0⟩).wf = true ∧
    (Instr.tagPoll [⟨4, 0, true, []⟩]).wf = false ∧ (Instr.tagPoll [⟨3, 128, true, []⟩]).wf = false ∧
    (Instr.tagVerified 0 (2 ^ 32) 0).wf = false ∧ (Instr.telemetryPoll ⟨true, 65536, 0, 0, 0, 0, 0⟩).wf = false ∧
    (Instr.telemetryPoll ⟨true, 0, 0, 0, 0, 0, 200⟩).wf = false := by decide +kernel

theorem test_wf_record_length (l : Bytes) (h : 4096 < l.length) : (Instr.tagReadComplete 0 true l).wf = false := by
  simp only [Instr.wf]; simpa using h

/-! ### Worked examples of the spec -/

/-- "Cell 7 values through the formats" (09): 0.413 m, 92 × 0.00025 to BF16, 0.3 to E4M3, −1.0 to FP16, 42.3 mm to a code. -/
theorem test_formats : toCoord fp32 0x3ED374BC = 1652 ∧
    (fconv fp32 bf16 (fmul fp32 (num 0x42B80000) (num 0x3983126F))).bits = 0x3CBC ∧ (fconv fp32 e4m3 (num 0x3E99999A)).bits = 0x2A ∧
    (fconv fp32 fp16 (num 0xBF800000)).bits = 0xBC00 := by decide +kernel

/-- The product 0x2A × 0x3CBC and the sum with 1.25 are exact (09). -/
theorem test_mac_exact : (fmaIn fp32 fp32 (fconv e4m3 fp32 (num 0x2A)) (fconv bf16 fp32 (num 0x3CBC)) (num 0x3FA00000)).fl = 0 := by
  decide +kernel

/-- The box of Cell 7 and its regions (02). -/
def cell7 : Geom :=
  { Geom.reset with
    boxLoX := -56, boxLoY := -40, boxLoZ := -2, sizeX := 112, sizeY := 80, sizeZ := 40
    l1Lo := 6 + 2 * 256, l1Size := 16 + 16 * 256 + 10 * 65536, l0Lo := 10 + 6 * 256, l0Size := 8 + 8 * 256 + 8 * 65536 }

/-- "The world of Cell 7" (02): crown cell 1,947 at level 0, octants 0 and 3, voxel 9. -/
theorem test_world_point : cell7.nx * cell7.ny * cell7.nz = 5600 ∧ cell7.voxAt 0 ⟨1652, -884, 3220⟩ = (⟨0, 1947, 0, 3⟩, 9) ∧
    cell7.level 1947 = 0 := by decide +kernel

/-- The camera of "one Cell 7 depth image" (03). -/
def cam7 : CamRec :=
  { cam2 with
    width := 640, height := 480, depthUnit := 1000, rangeMin := 300, rangeMax := 4000, decim := 1, fx := 0x43BE0000, fy := 0x43BE0000
    cx := 0x43A00000, cy := 0x43700000
    rot := [0x3F800000, 0, 0, 0, 0xBF800000, 0, 0, 0, 0xBF800000], trans := [0x3F99999A, 0, 0x400CCCCD] }

/-- Pixel (412, 188) with D = 2,140 hits level 1, crown 299, octant 6, voxel 245. -/
theorem test_camera_point : shoot cell7 cam7 [] 0 412 188 2140 255 = .hit 0x4095E0F5 [] := by decide +kernel

/-- "Cell 7's roadmap" (04): edge 40,961 lies at 0x4140_0200; the bytes of its sphere 15; what fits envelope A and B. -/
theorem test_roadmap :
    edgeAddr { up with boot := { up.boot with cfg := { up.boot.cfg with edgeBase := 0x40000000 } } } 40961 = 0x41400200 ∧
      parseSphere [0x74, 0x06, 0x8C, 0xFC, 0x94, 0x0C, 0xF0, 0x00] = ⟨1652, -884, 3220, 240⟩ ∧
      fits [⟨0, 0, 80, 160⟩, ⟨0, 0, 300, 200⟩, ⟨0, 0, 760, 120⟩] [⟨0, 0, 480, 560⟩] = true ∧
      fits [⟨0, 0, 880, 200⟩] [⟨0, 0, 480, 560⟩] = false ∧ fits [⟨0, 0, 880, 200⟩] [⟨0, 0, 560, 720⟩] = true := by decide +kernel

/-- "Three requesters on PSRAM channel PS2" (10), at SCLK 1,068: the loader's burst since 0, the recorder since 500, the host
since 0 with its wait limit passed. -/
def ps2 : State :=
  let x := fun (c : Int) => { (default : ArbCell) with credit := c }
  { (upAt 534) with
    power := { up.power with chLc := Vector.replicate 8 7 }
    arb := { up.arb with
      wlimit := vupd (vupd up.arb.wlimit 21 fun _ => 1000) 22 fun _ => 600
      cells := [(34 * 32 + 20, x (-374)), (34 * 32 + 21, x 584), (34 * 32 + 22, x 106)]
      chargedTo := vupd up.arb.chargedTo 34 fun _ => 1068 } }

theorem test_arbiter_forced :
    let t := after (.arbDecision 34 [⟨20, 512, false, 1068, false, none, 0⟩, ⟨21, 256, false, 500, false, none, 0⟩, ⟨22, 64, false, 0, false, none, 0⟩]) ps2
    t.arb.holder[(34 : ResId)] = some 22 ∧ t.arb.busyUntil[(34 : ResId)] = 1240 ∧ t.arb.forced[22] = 1 ∧
      (t.arb.cell 34 20).losses = 1 ∧ (t.arb.cell 34 21).losses = 1 := by decide +kernel

/-- "A hung engine" (13): the watchdog of PE12 after twice TILE_MAX_CTX = 120 µs; the record's fields. -/
def hung : State :=
  let s := ((upAt 96000).ctxSt 0 .running).modCtx 0 fun x => { x with
    plan := some { (default : PlanImage) with tileMax := 120 }, frameNo := 150000, run := some { run7 with frame := 150000 } }
  { (s.tiled [{ tile0 9 3 (.held 12) with seq := 37, frame := 150000 }]).modEng 12 fun e => { e with holding := some 9, st := .run } with
    roles := { up.roles with coppice := some 13, working := 0xDFFF } }

theorem test_hung_engine :
    let t := after (.domainWatchdog ⟨12, 0, []⟩) hung
    (t.faults.ring[0].map fun r => (r.frame, r.ctx, r.domain, r.fcode, r.engA)) = some (150000, 0, 12, 0x0102, 12) ∧
      (t.faults.ring[0].map fun r => (r.engB, r.chip, r.gen, r.action, r.detail)) = some (0x1F, 0, 1, 0x0B, 37) ∧
      t.faults.gen[(12 : DomainId)] = 1 ∧ t.roles.standFor = some 12 := by decide +kernel

/-- A store controller's mismatch while PE12 has an access in flight (R524): the tile is ready again, the engine stays in service. -/
theorem test_store_reset_gives_tiles_back :
    let t := after (.storeLockstep ⟨2, [12]⟩) hung
    (t.tile 9).map (fun x => (x.status, x.redisp)) = some (.ready, true) ∧ (t.eng 12).holding = none ∧ (t.eng 12).st = .idle ∧
      (t.eng 12).faulty = false ∧ t.inReset domStore = true ∧
      (t.faults.ring[0].map fun r => (r.fcode, r.domain, r.action, r.detail)) = some (0x0206, 20, 0x0B, 2) := by decide +kernel

/-- MODE of SDx_STAT (R591): SPI by CMD0 with CS low, DS without; SDR50 asked for at 1.8 V; MAX_MODE 7 withholds DDR50. -/
theorem test_bus_modes :
    let x : Sd := { Sd.reset with mode := 2, maxMode := 7 }
    x.resetMode true = 1 ∧ x.resetMode false = 2 ∧ x.askedMode 1 = 3 ∧ { x with v18 := true }.askedMode 2 = 6 ∧
      x.maxMode < { x with v18 := true }.askedMode 4 := by decide +kernel

/-- The block header of an ABORT with code 0x0504_0003 for 0x2700:0E (R578). -/
theorem test_xl_header : xlBare 0x7F 0x2700 0x0E 0 0x05040003 =
    [0x7F, 0, 0x00, 0x27, 0x0E, 0, 0, 0, 0, 0, 0, 0, 0x03, 0x00, 0x04, 0x05] := by decide +kernel

/-- "Two masters and one live object" (14): with TIE 0, Port A is granted and Port B refused with 0x0800_0022. -/
theorem test_same_edge :
    let half := wr 0x2000 0x22 [1]
    let t := after (.objectWrite (some half) (some (wr 0x2000 0x22 [2]))) ported
    t.sem.holder = some (.a, half) ∧ t.sem.tie = true ∧ t.sem.ties = 1 ∧
      t.portB.answer.map (·.abort) = some 0x08000022 ∧ t.sda.evt = 0 := by decide +kernel

/-- The write completes into the shadow alone (R15). -/
theorem test_write_completes :
    let t := after .objectWriteComplete (ported.held .a (wr 0x2000 0x22 [1]))
    shadowVal t 0x2000 0x22 = [1] ∧ forceVal t 0x2000 0x22 = [0] ∧ t.sem.holder = none ∧
      t.portA.answer.map (·.abort) = some 0 := by decide +kernel

/-- "A missed deadline" (12): SAFE with cause DEADLINE, the late record, the pins at their safe levels. -/
theorem test_missed_deadline :
    let r := { run7 with frame := 141000, f := 0 }
    let s := { ((((upAt 360000).ctxSt 0 .running).sst 0 .operate 0).inFrame 0 r).pubbed [pub0] with
      saf := { up.saf with outEn := true, driveA := true } }
    let t := after (.deadlineEdge 0) s
    (t.ctx 0).sstate = .safe ∧ (t.ctx 0).cause = 1 ∧ u (t.ctx 0).result 18 2 = 0x0601 ∧ t.saf.driveA = false ∧
      t.saf.driveB = true ∧ t.errField = [0x0000FF01] := by decide +kernel

/-- "Three quarters of the waves" (11): SHED at step 1 gives 12 of 16 waves and 24,576 of 32,768; REDUCED 15 and 30,720. -/
theorem test_cut_counts : cutCount 0 1 1 16 = 12 ∧ cutCount 0 1 1 32768 = 24576 ∧ cutCount 2 0 0 16 = 15 ∧
    cutCount 2 0 0 32768 = 30720 ∧ cutCount 0 0 1 16 = 16 := by decide +kernel

/-- CRC-32 of "123456789", SHA-512 of "abc" (the standards' test values). -/
theorem test_digests : crc32 [0x31, 0x32, 0x33, 0x34, 0x35, 0x36, 0x37, 0x38, 0x39] = 0xCBF43926 ∧
    (sha512 [0x61, 0x62, 0x63]).take 8 = [0xDD, 0xAF, 0x35, 0xA1, 0x93, 0x61, 0x7A, 0xBA] := by decide +kernel

/-- One row's command is the one that step takes, first in, first out. -/
theorem test_queue_order : (step { up with pending := [.gridTick, .syncInEdge] }) =
    exec .gridTick { up with pending := [.syncInEdge] } := by rfl

/-- The table gives no row a bit, so no word spells a command (log 1). -/
theorem test_no_words (n w : Nat) : decodeTableWord n w = none := rfl

end Sys2Proof.Machine
end

section
/-! PROOF. A write of OFF_REQ takes effect and is answered by nobody (O49, O50). -/

namespace Sys2Proof.Machine

/-! ### Part OFF and its answer (R672, R673): OFF_REQ takes the port bindings with it -/

/-- The write of OFF_REQ. -/
def offWrite : ObjWrite := ⟨0x2600, 0x0F, [1]⟩

/-- A port that no interface is bound to gets no answer (log 105). -/
theorem answerAt_unbound {s : State} {p : Port} (h : 4 ≤ s.ifOf p) (read : Bool) (a : Answer) : answerAt s p read a = s := by
  simp [answerAt, h]

/-- Part OFF leaves no port bound. -/
theorem offApply_ifOf (s : State) (p : Port) : (offApply s).ifOf p = 255 := by cases p <;> rfl

/-- Part OFF leaves no domain in reset. -/
theorem offApply_inReset (s : State) (d : DomainId) : (offApply s).inReset d = false := by
  simp [State.inReset, offApply, coreReset]

/-- An accepted OFF_REQ is noted, and no port is left to answer it. -/
theorem completeWrite_off {s : State} {p : Port} (h : writeAbort s p offWrite = 0) :
    completeWrite s p offWrite false = noteLast (offApply s) offWrite (portNat p) := by
  have hport : ((noteLast (offApply s) offWrite (portNat p)).port p).ended = [] := by cases p <;> rfl
  have hif : 4 ≤ (noteLast (offApply s) offWrite (portNat p)).ifOf p :=
    Nat.le_trans (by decide) (Nat.le_of_eq (offApply_ifOf s p).symm)
  have hcomplete : completeWrite s p offWrite false =
      answerWrite (noteLast (offApply s) offWrite (portNat p)) p offWrite 0 := by
    simp only [completeWrite, h]
    rfl
  rw [hcomplete, answerWrite, hport, answerAt_unbound hif]
  rfl

/-- SEM that is held, or that nothing waits for, stays as it is. -/
theorem semNext_rest {s : State} (h : s.sem.holder ≠ none ∨ s.sem.waiting = []) : semNext s = s := by
  unfold semNext
  split
  next hh hw => simp [hh, hw] at h
  next => rfl

/-- A command of one object completes its write where SEM is free and nothing waits. -/
theorem ownWrite_free {s : State} {index sub : Nat} {data : Bytes} (p : Port) (hs : s.serves = true)
    (hstop : stopOrder ⟨index, sub, data⟩ = none) (hh : s.sem.holder = none) (hw : s.sem.waiting = []) :
    ownWrite p index sub data s = completeWrite s p ⟨index, sub, data⟩ false := by
  simp [ownWrite, hs, hstop, semNext_rest (.inr hw), hh]

/-- The write that holds SEM completes, and SEM goes to the oldest that waits. -/
theorem writeCompleteEffect_held {s : State} {p : Port} {w : ObjWrite} (h : s.sem.holder = some (p, w)) :
    writeCompleteEffect s =
      semNext (completeWrite { s with sem := { s.sem with holder := none, lost := false } } p w s.sem.lost) := by
  simp [writeCompleteEffect, h]

/-- OFF_REQ completes from SEM without an answer. -/
theorem writeComplete_off {s : State} {p : Port} (hh : s.sem.holder = some (p, offWrite)) (hl : s.sem.lost = false)
    (ha : writeAbort { s with sem := { s.sem with holder := none, lost := false } } p offWrite = 0) :
    exec .objectWriteComplete s = .next (noteLast (offApply s) offWrite (portNat p)) := by
  have hrest : semNext (noteLast (offApply s) offWrite (portNat p)) = noteLast (offApply s) offWrite (portNat p) :=
    semNext_rest (.inr rfl)
  refine congrArg Host.Outcome.next ?_
  rw [writeCompleteEffect_held hh, hl, completeWrite_off ha]
  exact hrest

/-- A part that serves objects at Port A, bound to SDA, and that nothing keeps from going OFF. -/
def boundA : State := { State.reset with
  boot := { State.reset.boot with phase := .on, st := 5, cfg := { noCfg with portA := 0 } } }

/-- The same part while the write of OFF_REQ holds SEM. -/
def offHolds : State := { boundA with sem := { boundA.sem with holder := some (.a, offWrite) } }

theorem writeAbort_boundA : writeAbort boundA .a offWrite = 0 := by decide +kernel

theorem accepts_boundA : Accepts boundA .a offWrite := ⟨rfl, writeAbort_boundA, .inl ⟨rfl, rfl⟩⟩

/-- No answer stands at a port of a part that has gone OFF. -/
theorem off_not_answered {s t : State} {w : ObjWrite} {abort : Nat} (hs : s.faults.inReset.toNat.testBit 29 = false)
    (hi : s.ifOf .a < 4) (he : (s.port .a).ended = []) (ht : (t.port .a).answer = none) : ¬Answers .a w abort s t := by
  intro h
  have hanswer := h hs hi (by simp [he])
  rw [ht] at hanswer
  cases hanswer

/-- Refutes O50: OFF_REQ is accepted, and the part that goes OFF has lost the binding of the port that asked, so nothing
answers it. -/
theorem not_ownWritesAreAnswered : ¬Obligations.OwnWritesAreAnswered := by
  unfold Obligations.OwnWritesAreAnswered
  intro h
  obtain ⟨-, -, -, haccepted, -⟩ := h boundA (.offReq .a) .a offWrite rfl
  obtain ⟨t, hexec, hanswer, -⟩ := haccepted accepts_boundA
  have hnext : exec (.offReq .a) boundA = .next (noteLast (offApply boundA) offWrite (portNat .a)) := by
    rw [← completeWrite_off writeAbort_boundA]
    exact congrArg Host.Outcome.next (ownWrite_free .a rfl rfl rfl rfl)
  obtain rfl := Host.Outcome.next.inj (hnext.symm.trans hexec)
  exact off_not_answered rfl (by decide) rfl rfl (hanswer (offApply_inReset boundA domIo))

/-- Refutes O49: where the write that holds SEM is OFF_REQ, it completes without an answer, though no reset of the I/O cluster
takes the answer. -/
theorem not_writesAreSerialised : ¬Obligations.WritesAreSerialised := by
  unfold Obligations.WritesAreSerialised
  intro h
  obtain ⟨-, -, -, -, -, -, -, -, -, -, -, hcompletes⟩ := h offHolds .a offWrite
  obtain ⟨t, hexec, -, -, hanswer, -⟩ := hcompletes rfl rfl
  have hnext : exec .objectWriteComplete offHolds = .next (noteLast (offApply offHolds) offWrite (portNat .a)) :=
    writeComplete_off rfl rfl writeAbort_boundA
  obtain rfl := Host.Outcome.next.inj (hnext.symm.trans hexec)
  rcases hanswer rfl with ha | hr
  · exact off_not_answered rfl (by decide) rfl rfl ha
  · exact Bool.false_ne_true ((offApply_inReset offHolds domIo).symm.trans hr)

end Sys2Proof.Machine
end

section
/-! PROOF. Register accesses on the bus (O60). -/

namespace Sys2Proof.Machine

/-! ### A load of no bytes (R53-R55) -/

/-- A load that ends within the boot ROM replies with its bytes. -/
theorem busLoad_rom {a len : Nat} (h : a + len ≤ 0x01000000) (m : Master) (bad : Option Nat) (s : State) :
    busLoad m a len bad s = s.reply (.bytes (romBytes a len)) := by
  unfold busLoad
  rw [if_pos h]

/-- Refutes O60: a load of no bytes at the first address above the boot ROM ends within the ROM and replies with no bytes,
where the statement asks for a register's value. -/
theorem not_registerWrites : ¬Obligations.RegisterWrites := by
  unfold Obligations.RegisterWrites
  intro h
  obtain ⟨-, -, hregister, -⟩ := h State.reset .aon 0 (by simp) (by simp)
  obtain ⟨x, -, hload⟩ := (hregister 0x01000000 0 (Nat.le_refl _) (.inl (by decide))).2 rfl rfl
  have hnext : exec (.registerWrite .aon 0x01000000 (.load 0 none)) State.reset =
      .next (State.reset.reply (.bytes (romBytes 0x01000000 0))) :=
    congrArg Host.Outcome.next (busLoad_rom (a := 0x01000000) (len := 0) (by decide) .aon none State.reset)
  have hbus := congrArg State.bus (Host.Outcome.next.inj (hnext.symm.trans hload))
  cases hbus

end Sys2Proof.Machine
end

section
/-! PROOF. What a demand and a part cause move (R308, R447-R461): the operations that a frame start can bring with it. -/

namespace Sys2Proof.Machine

/-! ### No operation of a live part begins a replay (R434) -/

/-- The Recorder's state stays as it is, or recording stops. -/
def StaysOrStops (s t : State) : Prop := t.recorder.st = s.recorder.st ∨ t.recorder.st = 2

theorem StaysOrStops.trans {a b c : State} (h : StaysOrStops a b) (k : StaysOrStops b c) : StaysOrStops a c := by
  unfold StaysOrStops at *
  omega

/-- A part that does not replay goes on not replaying. -/
theorem StaysOrStops.live {s t : State} (h : StaysOrStops s t) (hs : s.replaying = false) : t.replaying = false := by
  unfold StaysOrStops at h
  simp only [State.replaying, Bool.or_eq_false_iff, beq_eq_false_iff_ne] at hs ⊢
  omega

theorem ringPut_st (s : State) (e : RingEnt) (bs : Bytes) : StaysOrStops s (ringPut s e bs).1 := by
  simp only [ringPut]
  repeat' split
  all_goals simp [StaysOrStops]

theorem ringPuts_st (l : List (RingEnt × Bytes)) : ∀ s : State, StaysOrStops s (ringPuts s l).1 := by
  induction l with
  | nil => intro s; exact .inl rfl
  | cons x t ih =>
    intro s
    simp only [ringPuts]
    split
    · exact (ringPut_st s x.1 x.2).trans (ih _)
    · exact ringPut_st s x.1 x.2

theorem ringInsert_st (s : State) (e : RingEnt) (bs : Bytes) : StaysOrStops s (ringInsert s e bs).1 := by
  have hputs : ∀ (l : List (RingEnt × Bytes)) (r : Recorder), r.st = s.recorder.st →
      StaysOrStops s (ringPuts { s with recorder := r } l).1 := fun l r hr =>
    StaysOrStops.trans (.inl hr) (ringPuts_st l _)
  simp only [ringInsert]
  split
  · exact ringPut_st s e bs
  · split
    · exact hputs _ _ rfl
    · exact hputs _ _ rfl

theorem tryRecord_st (s : State) (tick ty src : Nat) (p : Bytes) : StaysOrStops s (tryRecord s tick ty src p).1 := by
  unfold tryRecord
  split
  · exact .inl rfl
  · split
    · exact .inl rfl
    · dsimp only
      generalize hs1 : ite (s.recorder.lost = 0) s _ = s1
      have h1 : StaysOrStops s s1 := by
        subst hs1
        split
        · exact .inl rfl
        · split
          · exact (ringInsert_st s _ _).trans (.inl rfl)
          · exact ringInsert_st s _ _
      split
      · exact h1.trans (ringInsert_st s1 _ _)
      · exact h1.trans ((ringInsert_st s1 _ _).trans (.inl rfl))

theorem record_st (s : State) (tick ty src : Nat) (p : Bytes) : StaysOrStops s (record s tick ty src p) := by
  have h := broadcastEntry_frame (recordRing s tick ty src p) src (entryBytes tick ty src p)
  refine (tryRecord_st s tick ty src p).trans (.inl ?_)
  unfold record
  rw [h]
  rfl

/-! ### Operations that leave a context's plan and state alone -/

/-- A frame that composes, and that an entry of the record ring fits. -/
structure Composes (F : State → State → Prop) : Prop where
  refl : ∀ s, F s s
  trans : ∀ a b c, F a b → F b c → F a c
  record : ∀ s t, RecordFrame s t → F s t

/-- A part that does not replay goes on not replaying, context c keeps its plan and its state, and the frame F holds. -/
structure Keeps (F : State → State → Prop) (c : CtxId) (s t : State) : Prop where
  frame : F s t
  live : s.replaying = false → t.replaying = false
  plan : (t.ctx c).plan = (s.ctx c).plan
  st : (t.ctx c).st = (s.ctx c).st

section
variable {F : State → State → Prop} (hF : Composes F) (c : CtxId)
include hF

theorem Keeps.refl (s : State) : Keeps F c s s := ⟨hF.refl s, id, rfl, rfl⟩

theorem Keeps.trans {a b d : State} (h : Keeps F c a b) (k : Keeps F c b d) : Keeps F c a d :=
  ⟨hF.trans _ _ _ h.frame k.frame, k.live ∘ h.live, k.plan.trans h.plan, k.st.trans h.st⟩

theorem Keeps.foldl {β : Type} {f : State → β → State} (h : ∀ s x, Keeps F c s (f s x)) (l : List β) (s : State) :
    Keeps F c s (l.foldl f s) :=
  foldl_rel (Keeps.refl hF c) (fun _ _ _ => Keeps.trans hF c) h l s

theorem record_keeps (s : State) (tick ty src : Nat) (p : Bytes) : Keeps F c s (record s tick ty src p) := by
  have h := record_frame s tick ty src p
  have hctx : (record s tick ty src p).ctxs = s.ctxs := by
    unfold RecordFrame at h
    rw [h]
  exact ⟨hF.record _ _ h, (record_st s tick ty src p).live, by rw [State.ctx, hctx, State.ctx], by rw [State.ctx, hctx, State.ctx]⟩

end

/-- An operation that leaves the contexts and the Recorder alone. -/
theorem Keeps.aside {F : State → State → Prop} {c : CtxId} {s t : State} (hF : F s t) (hr : t.recorder = s.recorder)
    (hc : t.ctxs = s.ctxs) : Keeps F c s t :=
  ⟨hF, fun h => by rw [State.replaying, hr]; exact h, by rw [State.ctx, hc, State.ctx], by rw [State.ctx, hc, State.ctx]⟩

/-- A change of some context that leaves its plan and its state alone. -/
theorem modCtx_keeps {F : State → State → Prop} {c d : CtxId} {s : State} {f : Ctx → Ctx} (hF : F s (s.modCtx d f))
    (hp : ∀ x, (f x).plan = x.plan) (hs : ∀ x, (f x).st = x.st) : Keeps F c s (s.modCtx d f) := by
  refine ⟨hF, id, ?_, ?_⟩ <;>
    · by_cases h : d = c
      · subst h
        simp [hp, hs]
      · rw [State.modCtx_ctx_other s f h]

/-! ### Result events (R582, R585) -/

/-- What an event of a result or of a mailbox moves. -/
def EventFrame (s t : State) : Prop :=
  t = { s with tds := t.tds, mbx := t.mbx, sda := t.sda, sdb := t.sdb, cn0 := t.cn0, cn1 := t.cn1, power := t.power }

theorem EventFrame.trans {a b c : State} (h : EventFrame a b) (k : EventFrame b c) : EventFrame a c := by
  unfold EventFrame at *
  rw [k, h]

/-- An operation done under a condition. -/
theorem EventFrame.ite {s t : State} {p : Prop} [Decidable p] (h : EventFrame s t) : EventFrame s (if p then t else s) := by
  split
  · exact h
  · rfl

theorem tdsEvent_eventFrame (s : State) (e : Nat) : EventFrame s (s.tdsEvent e) := rfl

theorem modSd_eventFrame (s : State) (i : SdIf) (f : Sd → Sd) : EventFrame s (s.modSd i f) := by cases i <;> rfl

theorem modCan_eventFrame (s : State) (n : CanIf) (f : Can → Can) : EventFrame s (s.modCan n f) := by cases n <;> rfl

theorem modBox_eventFrame (s : State) (n : MbxId) (f : Mbox → Mbox) : EventFrame s (s.modBox n f) := rfl

theorem evtPort_eventFrame (s : State) (p : Port) (bits : Nat) : EventFrame s (evtPort s p bits) := by
  unfold evtPort
  split
  · exact modSd_eventFrame s _ _
  · exact (modSd_eventFrame s _ _).ite

theorem mbxWake_eventFrame (s : State) (n : MbxId) : EventFrame s (mbxWake s n) := by
  unfold mbxWake
  split
  · rfl
  · exact evtPort_eventFrame s _ _
  · exact evtPort_eventFrame s _ _
  · exact tdsEvent_eventFrame s _

theorem postResult_eventFrame (s : State) (n : Nat) (r : Bytes) : EventFrame s (postResult s n r) := by
  unfold postResult
  split
  · dsimp only
    split
    · exact (modBox_eventFrame s _ _).trans (mbxWake_eventFrame _ _)
    · exact modBox_eventFrame s _ _
  · rfl

theorem resultEvent_eventFrame (s : State) (c : CtxId) (r : Bytes) : EventFrame s (resultEvent s c r) := by
  have h1 := (tdsEvent_eventFrame s (32 + c.val)).trans
    ((evtPort_eventFrame _ .a (2 ^ c.val)).trans (evtPort_eventFrame _ .b (2 ^ c.val)))
  refine EventFrame.trans ?_ (postResult_eventFrame _ _ _)
  refine EventFrame.trans ?_ (modCan_eventFrame _ .cn1 _).ite
  refine EventFrame.trans ?_ (modCan_eventFrame _ .cn0 _).ite
  refine EventFrame.trans ?_ (modSd_eventFrame _ .sdb _).ite
  exact h1.trans (modSd_eventFrame _ .sda _).ite

/-! ### Releases, demands and part causes (R308, R453, R455) -/

/-- What a demand moves, with the release of a frame that it brings. The checkers run on. -/
def DemandMoves (s t : State) : Prop :=
  t = { s with
    saf := t.saf, ctxs := t.ctxs, tds := t.tds, mbx := t.mbx, sda := t.sda, sdb := t.sdb, cn0 := t.cn0, cn1 := t.cn1
    errField := t.errField, recorder := t.recorder, psram := t.psram, store := t.store, links := t.links, hedge := t.hedge
    power := t.power, syncOut := t.syncOut, syncOutEnd := t.syncOutEnd, dump := t.dump } ∧
  t.saf.chkRunning = s.saf.chkRunning

theorem demandMoves_composes : Composes DemandMoves where
  refl _ := ⟨rfl, rfl⟩
  trans a b c h k := by
    obtain ⟨h, hc⟩ := h
    obtain ⟨k, kc⟩ := k
    refine ⟨?_, kc.trans hc⟩
    rw [k, h]
  record s t h := by
    unfold RecordFrame at h
    unfold DemandMoves
    rw [h]
    exact ⟨rfl, rfl⟩

/-- The operations of a demand, as context c sees them. -/
abbrev DemandKeeps (c : CtxId) : State → State → Prop := Keeps DemandMoves c

theorem DemandKeeps.trans {c : CtxId} {a b d : State} (h : DemandKeeps c a b) (k : DemandKeeps c b d) : DemandKeeps c a d :=
  Keeps.trans demandMoves_composes c h k

/-- An operation done under a condition. -/
theorem DemandKeeps.ite {c : CtxId} {s t : State} {p : Prop} [Decidable p] (h : DemandKeeps c s t) :
    DemandKeeps c s (if p then t else s) := by
  split
  · exact h
  · exact Keeps.refl demandMoves_composes c s

theorem DemandKeeps.refl (c : CtxId) (s : State) : DemandKeeps c s s := Keeps.refl demandMoves_composes c s

/-- An event moves no more than a demand does. -/
theorem EventFrame.demandKeeps {s t : State} (h : EventFrame s t) (c : CtxId) : DemandKeeps c s t := by
  unfold EventFrame at h
  refine Keeps.aside ⟨?_, ?_⟩ ?_ ?_
  all_goals rw [h]

theorem modCtx_demandKeeps {c d : CtxId} {s : State} {f : Ctx → Ctx} (hp : ∀ x, (f x).plan = x.plan)
    (hs : ∀ x, (f x).st = x.st) : DemandKeeps c s (s.modCtx d f) :=
  modCtx_keeps ⟨rfl, rfl⟩ hp hs

theorem setSaf_demandKeeps (c : CtxId) (s : State) {f : Saf} (h : f.chkRunning = s.saf.chkRunning) :
    DemandKeeps c s { s with saf := f } := Keeps.aside ⟨rfl, h⟩ rfl rfl

theorem drivePins_demandKeeps (c : CtxId) (s : State) : DemandKeeps c s (drivePins s) := by
  unfold drivePins
  split
  · exact Keeps.aside ⟨rfl, rfl⟩ rfl rfl
  · exact DemandKeeps.refl c s

theorem emcy_demandKeeps (c : CtxId) (s : State) (code b3 data : Nat) : DemandKeeps c s (emcy s code b3 data) := by
  unfold emcy
  split
  · exact DemandKeeps.refl c s
  · exact Keeps.aside ⟨rfl, rfl⟩ rfl rfl

theorem queueDump_demandKeeps (c : CtxId) (s : State) (j : DumpJob) : DemandKeeps c s (queueDump s j) := by
  unfold queueDump
  dsimp only
  repeat' split
  all_goals exact Keeps.aside ⟨rfl, rfl⟩ rfl rfl

theorem logPut_demandKeeps (c d : CtxId) (s : State) (frame seq : Nat) (f : LogEntry → LogEntry) :
    DemandKeeps c s (logPut s d frame seq f) := Keeps.aside ⟨rfl, rfl⟩ rfl rfl

theorem discardLogs_demandKeeps (c d : CtxId) (s : State) (frame : Nat) : DemandKeeps c s (discardLogs s d frame) :=
  Keeps.foldl (β := Tile) demandMoves_composes c (fun s t => logPut_demandKeeps c d s frame t.seq _) _ s

theorem storePut_demandKeeps (c d : CtxId) (s : State) (kind off : Nat) (bs : Bytes) :
    DemandKeeps c s (storePut s kind d off bs) := by
  unfold storePut
  split
  · exact Keeps.aside ⟨rfl, rfl⟩ rfl rfl
  · exact DemandKeeps.refl c s

theorem putResult_demandKeeps (c d : CtxId) (s : State) (frame : Nat) (bs : Bytes) :
    DemandKeeps c s (putResult s d frame bs) :=
  (storePut_demandKeeps c d s _ _ _).trans (modCtx_demandKeeps (fun _ => rfl) fun _ => rfl)

theorem replayCompare_demandKeeps (c d : CtxId) (s : State) (frame : Nat) (digest : Bytes) :
    DemandKeeps c s (replayCompare s d frame digest) := by
  unfold replayCompare
  dsimp only
  repeat' split
  all_goals exact ⟨⟨rfl, rfl⟩, id, rfl, rfl⟩

theorem pulseSync_demandKeeps (c d : CtxId) (s : State) : DemandKeeps c s (pulseSync s d) := by
  unfold pulseSync
  split
  · exact Keeps.aside ⟨rfl, rfl⟩ rfl rfl
  · exact DemandKeeps.refl c s

/-- Only a part that replays enters PAUSED (R440). -/
theorem pauseCheck_demandKeeps (c : CtxId) (s : State) : DemandKeeps c s (pauseCheck s) := by
  unfold pauseCheck
  dsimp only
  split
  next h => exact ⟨⟨rfl, rfl⟩, fun hl => by simp [State.replaying, h.1] at hl, rfl, rfl⟩
  next => exact DemandKeeps.refl c s

theorem armed_demandKeeps (c d : CtxId) (s : State) : DemandKeeps c s (armed s d) := by
  refine (modCtx_demandKeeps ?_ ?_).trans (drivePins_demandKeeps c _)
  all_goals
    intro x
    split <;> rfl

theorem endTiles_demandKeeps (c d : CtxId) (s : State) (frame : Nat) : DemandKeeps c s (endTiles s d frame) :=
  Keeps.aside ⟨rfl, rfl⟩ rfl rfl

theorem release_demandKeeps (c d : CtxId) (s : State) (r : FrameRun) (o : RelOut) : DemandKeeps c s (release s d r o) := by
  unfold release
  dsimp only
  refine DemandKeeps.trans ?_ (armed_demandKeeps c d _).ite
  refine DemandKeeps.trans ?_ (pauseCheck_demandKeeps c _)
  refine DemandKeeps.trans ?_ (endTiles_demandKeeps c d _ _)
  refine DemandKeeps.trans ?_ ((resultEvent_eventFrame _ d _).demandKeeps c)
  refine DemandKeeps.trans ?_ (pulseSync_demandKeeps c d _)
  refine DemandKeeps.trans ?_ (replayCompare_demandKeeps c d _ _ _)
  refine DemandKeeps.trans ?_ (record_keeps demandMoves_composes c _ _ _ _ _)
  exact DemandKeeps.trans (putResult_demandKeeps c d s _ _) (modCtx_demandKeeps (fun _ => rfl) fun _ => rfl)

theorem releaseInvalid_demandKeeps (c d : CtxId) (s : State) (status : Nat) : DemandKeeps c s (releaseInvalid s d status) := by
  unfold releaseInvalid
  split
  · exact (discardLogs_demandKeeps c d s _).trans (release_demandKeeps c d _ _ _)
  · exact DemandKeeps.refl c s

/-- The EMCY of a demand: a deadline's, the host's, or none (R461). -/
theorem demandEmcy_demandKeeps (c d : CtxId) (s : State) (bit frame : Nat) :
    DemandKeeps c s (if bit = causeDeadline then emcy s 0xFF01 d.val frame
      else if bit = causeHost then emcy s 0xFF02 d.val frame else s) := by
  split
  · exact emcy_demandKeeps c s _ _ _
  · exact DemandKeeps.ite (emcy_demandKeeps c s _ _ _)

theorem demand_demandKeeps (c d : CtxId) (s : State) (bit : Nat) : DemandKeeps c s (demand s d bit) := by
  unfold demand
  dsimp only
  split
  · exact DemandKeeps.refl c s
  · split
    · exact modCtx_demandKeeps (fun _ => rfl) fun _ => rfl
    · refine DemandKeeps.trans ?_ (drivePins_demandKeeps c _)
      refine DemandKeeps.trans ?_ (demandEmcy_demandKeeps c d _ bit _)
      split
      · exact modCtx_demandKeeps (fun _ => rfl) fun _ => rfl
      · refine DemandKeeps.trans ?_ (releaseInvalid_demandKeeps c d _ _)
        exact modCtx_demandKeeps (fun _ => rfl) fun _ => rfl

theorem partCause_demandKeeps (c : CtxId) (s : State) (bit : Nat) : DemandKeeps c s (partCause s bit) := by
  unfold partCause
  dsimp only
  split
  · refine DemandKeeps.trans ?_ (queueDump_demandKeeps c _ _).ite
    exact setSaf_demandKeeps c s rfl
  · refine DemandKeeps.trans ?_ (drivePins_demandKeeps c _)
    refine DemandKeeps.trans ?_ (emcy_demandKeeps c _ _ _ _)
    refine DemandKeeps.trans ?_ (Keeps.foldl demandMoves_composes c (fun s d => demand_demandKeeps c d s causePart) _ _)
    refine DemandKeeps.trans ?_ (setSaf_demandKeeps c _ rfl)
    refine DemandKeeps.trans ?_ (queueDump_demandKeeps c _ _).ite
    exact setSaf_demandKeeps c s rfl

theorem takeClear_demandKeeps (c d : CtxId) (s : State) : DemandKeeps c s (takeClear s d) := by
  unfold takeClear
  split
  · refine DemandKeeps.trans ?_ (drivePins_demandKeeps c _)
    exact modCtx_demandKeeps (fun _ => rfl) fun _ => rfl
  · exact DemandKeeps.refl c s

end Sys2Proof.Machine
end

section
/-! PROOF. Live values taken into force at a boundary (R14-R16). -/

namespace Sys2Proof.Machine

/-! ### Live values taken into force (R14-R16) -/

theorem amGet_mem {α : Type} {m : List (Nat × α)} {k : Nat} {v : α} (h : amGet m k = some v) : (k, v) ∈ m := by
  induction m with
  | nil => cases h
  | cons e t ih =>
    obtain ⟨j, x⟩ := e
    simp only [amGet] at h
    split at h
    next hj => simp_all
    next => exact List.mem_cons_of_mem _ (ih h)

/-- Where each key stands once, it has one value. -/
theorem value_unique_of_nodup {α : Type} {m : List (Nat × α)} {k : Nat} {v w : α} (hnd : (m.map (·.1)).Nodup)
    (hv : (k, v) ∈ m) (hw : (k, w) ∈ m) : v = w := by
  induction m with
  | nil => cases hv
  | cons e t ih =>
    rw [List.map_cons, List.nodup_cons] at hnd
    obtain ⟨hnew, htail⟩ := hnd
    rcases List.mem_cons.1 hv with rfl | hvt
    · rcases List.mem_cons.1 hw with hw | hwt
      · exact (congrArg Prod.snd hw).symm
      · exact absurd (List.mem_map.2 ⟨(k, w), hwt, rfl⟩) hnew
    · rcases List.mem_cons.1 hw with rfl | hwt
      · exact absurd (List.mem_map.2 ⟨(k, v), hvt, rfl⟩) hnew
      · exact ih htail hvt hwt

/-- Object keys of subindices of one byte are apart. -/
theorem objKey_inj {i j k l : Nat} (hk : k < 256) (hl : l < 256) (h : objKey i k = objKey j l) : i = j ∧ k = l := by
  unfold objKey at h
  omega

/-- What pends is a written value that differs from the one in force. -/
theorem mem_pendingLive {s : State} {index : Nat} {e : Nat × Bytes} (h : e ∈ pendingLive s index) :
    e.1 < 256 ∧ (objKey index e.1, e.2) ∈ boundaryShadow s ∧ forceVal s index e.1 ≠ e.2 := by
  unfold pendingLive at h
  rw [List.mem_filterMap] at h
  obtain ⟨⟨k, v⟩, hmem, hk⟩ := h
  dsimp only at hk
  split at hk
  next hi =>
    split at hk
    next d hd =>
      split at hk
      next hdiff =>
        simp only [beq_iff_eq] at hi
        simp only [Bool.and_eq_true, decide_eq_true_eq] at hdiff
        obtain rfl := Option.some.inj hk
        refine ⟨Nat.mod_lt _ (by decide), ?_, hdiff.2⟩
        have hkey : objKey index (k % 256) = k := by
          unfold objKey
          omega
        rwa [hkey]
      next => cases hk
    next => cases hk
  next => cases hk

/-- A written value of a live object that differs from the one in force pends. -/
theorem pendingLive_mem {s : State} {index sub : Nat} {d : ObjDef} {v : Bytes} (hd : objDef index sub = some d)
    (ha : d.acc = .rwf) (hs : sub < 256) (hv : (objKey index sub, v) ∈ boundaryShadow s) (hf : forceVal s index sub ≠ v) :
    (sub, v) ∈ pendingLive s index := by
  unfold pendingLive
  rw [List.mem_filterMap]
  refine ⟨_, hv, ?_⟩
  have hdiv : objKey index sub / 256 = index := by
    unfold objKey
    omega
  have hmod : objKey index sub % 256 = sub := by
    unfold objKey
    omega
  simp [hdiv, hmod, hd, ha, hf]

/-- Values put under the keys of an index leave every other key alone. -/
theorem putAll_other (index key : Nat) (l : List (Nat × Bytes)) (m : List (Nat × Bytes))
    (h : ∀ e ∈ l, objKey index e.1 ≠ key) : amGet (l.foldl (fun m e => amPut m (objKey index e.1) e.2) m) key = amGet m key := by
  induction l generalizing m with
  | nil => rfl
  | cons e l ih =>
    rw [List.foldl_cons, ih _ fun x hx => h x (List.mem_cons_of_mem _ hx)]
    exact amGet_amPut_other m e.2 (h e List.mem_cons_self).symm

/-- Where every value put under a key is v, and one is, v stands there. -/
theorem putAll_same (index key : Nat) (v : Bytes) (l : List (Nat × Bytes)) (m : List (Nat × Bytes))
    (h : ∀ e ∈ l, objKey index e.1 = key → e.2 = v) (hone : (∃ e ∈ l, objKey index e.1 = key) ∨ amGet m key = some v) :
    amGet (l.foldl (fun m e => amPut m (objKey index e.1) e.2) m) key = some v := by
  induction l generalizing m with
  | nil => simpa using hone
  | cons e l ih =>
    rw [List.foldl_cons]
    refine ih _ (fun x hx => h x (List.mem_cons_of_mem _ hx)) ?_
    by_cases he : objKey index e.1 = key
    · right
      rw [he, h e List.mem_cons_self he]
      exact amGet_amPut_same _ _ _
    · rcases hone with ⟨x, hx, hxk⟩ | hm
      · rcases List.mem_cons.1 hx with rfl | hx
        · exact absurd hxk he
        · exact .inl ⟨x, hx, hxk⟩
      · right
        rw [amGet_amPut_other m e.2 (Ne.symm he)]
        exact hm

/-- Live values of an index leave those of every other index in force. -/
theorem applyLive_other (s : State) {index i sub : Nat} (hi : i ≠ index) (hs : sub < 256) :
    amGet (applyLive s index).force (objKey i sub) = amGet s.force (objKey i sub) := by
  refine putAll_other index (objKey i sub) _ _ fun e he h => hi ?_
  exact (objKey_inj (mem_pendingLive he).1 hs h).1.symm

/-- The value in force of a live object. -/
theorem forceVal_live (s : State) {index sub : Nat} {d : ObjDef} (hd : objDef index sub = some d) (ha : d.acc = .rwf) :
    forceVal s index sub = (amGet s.force (objKey index sub)).getD d.dflt := by
  unfold forceVal
  rw [hd]
  simp only [ha, beq_self_eq_true, if_true]
  cases amGet s.force (objKey index sub) <;> rfl

/-- At a boundary a live object takes the value that was written before it (R14, R16). -/
theorem applyLive_takes {s : State} {index sub : Nat} {d : ObjDef} {v : Bytes} (hnd : ((boundaryShadow s).map (·.1)).Nodup)
    (hs : sub < 256) (hd : objDef index sub = some d) (ha : d.acc = .rwf)
    (hv : amGet (boundaryShadow s) (objKey index sub) = some v) : forceVal (applyLive s index) index sub = v := by
  have hmem := amGet_mem hv
  have hone : ∀ w, (objKey index sub, w) ∈ boundaryShadow s → w = v := fun w hw =>
    value_unique_of_nodup hnd hw hmem
  rw [forceVal_live _ hd ha]
  by_cases hf : forceVal s index sub = v
  · rw [← hf, forceVal_live s hd ha]
    refine congrArg (Option.getD · d.dflt) (putAll_other index _ _ _ fun e he h => ?_)
    obtain ⟨he1, hes, hne⟩ := mem_pendingLive he
    obtain ⟨-, rfl⟩ := objKey_inj he1 hs h
    exact hne (hf.trans (hone _ hes).symm)
  · have hput := putAll_same index (objKey index sub) v (pendingLive s index) s.force (fun e he h => by
      obtain ⟨he1, hes, -⟩ := mem_pendingLive he
      obtain ⟨-, rfl⟩ := objKey_inj he1 hs h
      exact hone _ hes) (.inl ⟨_, pendingLive_mem hd ha hs hmem hf, rfl⟩)
    rw [show amGet (applyLive s index).force (objKey index sub) = some v from hput]
    rfl

end Sys2Proof.Machine
end

section
/-! PROOF. What a world tick moves (R82-R92). -/

namespace Sys2Proof.Machine

/-! ### The world tick (R82-R92) -/

/-- The world's tick, its NT and its period stay. -/
def ClockKept (s t : State) : Prop :=
  t.world.started = s.world.started ∧ t.world.tick = s.world.tick ∧ t.world.nt = s.world.nt ∧ t.world.period = s.world.period

/-- What a world tick moves. -/
def TickMoves (s t : State) : Prop :=
  t = { s with
    freeCount := t.freeCount, world := t.world, force := t.force, power := t.power, recorder := t.recorder, psram := t.psram
    links := t.links, hedge := t.hedge, faults := t.faults, ctxs := t.ctxs, vfy := t.vfy, engines := t.engines } ∧
  ClockKept s t

theorem ClockKept.of_eq {s t : State} (h : t.world = s.world) : ClockKept s t := by simp [ClockKept, h]

theorem tickMoves_composes : Composes TickMoves where
  refl _ := ⟨rfl, .of_eq rfl⟩
  trans a b c h k := by
    obtain ⟨h, h1, h2, h3, h4⟩ := h
    obtain ⟨k, k1, k2, k3, k4⟩ := k
    refine ⟨?_, k1.trans h1, k2.trans h2, k3.trans h3, k4.trans h4⟩
    rw [k, h]
  record s t h := by
    unfold RecordFrame at h
    refine ⟨?_, .of_eq ?_⟩
    all_goals rw [h]

/-- The operations of a tick, as context c sees them. -/
abbrev TickKeeps (c : CtxId) : State → State → Prop := Keeps TickMoves c

theorem TickKeeps.refl (c : CtxId) (s : State) : TickKeeps c s s := Keeps.refl tickMoves_composes c s

/-- An operation done under a condition. -/
theorem TickKeeps.ite {c : CtxId} {s t : State} {p : Prop} [Decidable p] (h : TickKeeps c s t) :
    TickKeeps c s (if p then t else s) := by
  split
  · exact h
  · exact TickKeeps.refl c s

theorem TickKeeps.trans {c : CtxId} {a b d : State} (h : TickKeeps c a b) (k : TickKeeps c b d) : TickKeeps c a d :=
  Keeps.trans tickMoves_composes c h k

theorem LinkFrame.tickKeeps {s t : State} (h : LinkFrame s t) (c : CtxId) : TickKeeps c s t := by
  unfold LinkFrame at h
  refine Keeps.aside ⟨?_, .of_eq ?_⟩ ?_ ?_
  all_goals rw [h]

theorem setHedge_tickKeeps (c : CtxId) (s : State) (h : Hedge) : TickKeeps c s { s with hedge := h } :=
  Keeps.aside ⟨rfl, .of_eq rfl⟩ rfl rfl

theorem modRun_tickKeeps (c d : CtxId) (s : State) (f : FrameRun → FrameRun) : TickKeeps c s (s.modRun d f) :=
  modCtx_keeps ⟨rfl, .of_eq rfl⟩ (fun _ => rfl) fun _ => rfl

theorem setFaults_tickKeeps (c : CtxId) (s : State) (f : Faults) : TickKeeps c s { s with faults := f } :=
  Keeps.aside ⟨rfl, .of_eq rfl⟩ rfl rfl

theorem putRecord_tickKeeps (c : CtxId) (s : State) (r : FaultRec) : TickKeeps c s (putRecord s r) := by
  unfold putRecord
  dsimp only
  split
  · refine TickKeeps.trans ?_ (Keeps.foldl tickMoves_composes c (fun s d => modRun_tickKeeps c d s _) _ _)
    exact setFaults_tickKeeps c s _
  · split
    · refine TickKeeps.trans ?_ (modRun_tickKeeps c _ _ _)
      exact setFaults_tickKeeps c s _
    · exact setFaults_tickKeeps c s _

/-- A finding of the chip itself, recorded. -/
theorem fault_tickKeeps (c : CtxId) (s : State) (ctx dom fcode engA engB action detail : Nat) :
    TickKeeps c s (fault s ctx dom fcode engA engB action detail) := by
  unfold fault faultAt
  dsimp only
  refine TickKeeps.trans ?_ ((sendTo_frame _ _ _ _ _).tickKeeps c).ite
  refine TickKeeps.trans ?_ (putRecord_tickKeeps c _ _)
  exact Keeps.aside ⟨rfl, .of_eq rfl⟩ rfl rfl

theorem throttleTick_tickKeeps (c : CtxId) (s : State) : TickKeeps c s (throttleTick s) := by
  unfold throttleTick
  split
  · exact TickKeeps.refl c s
  · refine TickKeeps.trans ?_ (record_keeps tickMoves_composes c _ _ _ _ _)
    exact Keeps.aside ⟨rfl, .of_eq rfl⟩ rfl rfl

theorem applyLive_tickKeeps (c : CtxId) (s : State) : TickKeeps c s (applyLive s 0x2100) :=
  Keeps.aside ⟨rfl, .of_eq rfl⟩ rfl rfl

/-- Live values applied are recorded. -/
theorem applyRecorded_keeps {F : State → State → Prop} (hF : Composes F) (c : CtxId) (s : State) (index src frame : Nat) :
    Keeps F c (applyLive s index) (applyRecorded s index src frame) := by
  unfold applyRecorded
  dsimp only
  split
  · exact Keeps.refl hF c _
  · exact record_keeps hF c _ _ _ _ _

/-- The world changed, its clock apart. -/
theorem setWorld_tickKeeps (c : CtxId) (s : State) {w : World} (h : ClockKept s { s with world := w }) :
    TickKeeps c s { s with world := w } :=
  Keeps.aside ⟨rfl, h⟩ rfl rfl

/-- The world changed after some operations of a tick, to one whose clock is that from before them. -/
theorem TickKeeps.setWorld {c : CtxId} {s t : State} {w : World} (h : TickKeeps c s t)
    (hw : ClockKept s { t with world := w }) : TickKeeps c s { t with world := w } := by
  obtain ⟨-, h1, h2, h3, h4⟩ := h.frame
  obtain ⟨w1, w2, w3, w4⟩ := hw
  exact TickKeeps.trans h (setWorld_tickKeeps c t ⟨w1.trans h1.symm, w2.trans h2.symm, w3.trans h3.symm, w4.trans h4.symm⟩)

theorem freeOld_tickKeeps (c : CtxId) (s : State) : TickKeeps c s (freeOld s) :=
  setWorld_tickKeeps c s ⟨rfl, rfl, rfl, rfl⟩

theorem abandonSeeds_tickKeeps (c : CtxId) (s : State) : TickKeeps c s (abandonSeeds s) :=
  ⟨⟨rfl, .of_eq rfl⟩, id, rfl, rfl⟩

theorem captureSeed_tickKeeps (c : CtxId) (s : State) : TickKeeps c s (captureSeed s) :=
  ⟨⟨rfl, .of_eq rfl⟩, id, rfl, rfl⟩

theorem eccRecords_tickKeeps (c : CtxId) (s : State) (l : List Nat) : TickKeeps c s (eccRecords s l) :=
  Keeps.foldl tickMoves_composes c (fun s v => fault_tickKeeps c s 0xFE 20 0x0202 0x1F 0x1F 0 v) l s

theorem writeBitmap_tickKeeps (c : CtxId) (s : State) : TickKeeps c s (writeBitmap s) :=
  Keeps.aside ⟨rfl, .of_eq rfl⟩ rfl rfl

theorem putPub_tickKeeps (c : CtxId) (s : State) (free : Nat) (wait : Option Nat) (hurt : Bool) :
    TickKeeps c s (putPub s free wait hurt) :=
  Keeps.aside ⟨rfl, rfl, rfl, rfl, rfl⟩ rfl rfl

theorem publish_tickKeeps (c : CtxId) (s : State) (ecc : List Nat) : TickKeeps c s (publish s ecc) := by
  unfold publish
  dsimp only
  refine TickKeeps.trans ?_ (putPub_tickKeeps c _ _ _ _)
  refine TickKeeps.trans ?_ (writeBitmap_tickKeeps c _)
  refine TickKeeps.setWorld ?_ ⟨rfl, rfl, rfl, rfl⟩
  refine TickKeeps.trans ?_ (eccRecords_tickKeeps c _ _)
  exact (abandonSeeds_tickKeeps c s).ite

theorem hedgeReport_tickKeeps (c : CtxId) (s : State) : TickKeeps c s (hedgeReport s) := by
  unfold hedgeReport
  dsimp only
  split
  · exact TickKeeps.refl c s
  · split
    · exact TickKeeps.trans (setHedge_tickKeeps c s _) ((sendTo_frame _ _ _ _ _).tickKeeps c)
    · exact setHedge_tickKeeps c s _

theorem admitSeeds_tickKeeps (c : CtxId) (s : State) : TickKeeps c s (admitSeeds s) := by
  unfold admitSeeds
  dsimp only
  split
  · exact TickKeeps.refl c s
  · refine TickKeeps.trans ?_ (setHedge_tickKeeps c _ _)
    exact Keeps.foldl tickMoves_composes c (fun s m => (sendTo_frame s _ _ _ _).tickKeeps c) _ s

/-- The world at its next tick, of the given period. -/
def World.ticked (w : World) (period : Nat) : World :=
  { w with
    started := true, tick := (w.tick + 1) % 2 ^ 48, nt := if w.started then (w.nt + w.period) % 2 ^ 64 else w.nt, period := period }

/-- A frame that starts at this edge reads the publication of the tick (R87). -/
theorem retarget_tickKeeps (c : CtxId) (s : State) (d : CtxId) :
    TickKeeps c s (match (s.ctx d).run with
      | some r => if r.f = s.now ∧ !r.snapped then s.modRun d fun r => { r with tf := s.world.tick } else s
      | none => s) := by
  split
  · exact (modRun_tickKeeps c d s _).ite
  · exact TickKeeps.refl c s

/-- The publication of a tick: the Fuse unit's while it runs, else the world as it stands (R713). -/
theorem published_tickKeeps (c : CtxId) (s : State) (ecc : List Nat) (free : Nat) :
    TickKeeps c s (if s.fus.run then hedgeReport (publish s ecc) else putPub s free none false) := by
  split
  · exact (publish_tickKeeps c s ecc).trans (hedgeReport_tickKeeps c _)
  · exact putPub_tickKeeps c s free none false

/-- All of a world tick after its clock has moved. -/
theorem tickWorld_tickKeeps (c : CtxId) (s : State) (period : Nat) (ecc : List Nat) :
    TickKeeps c { s with world := s.world.ticked period } (tickWorld s period ecc) := by
  unfold tickWorld
  dsimp only
  refine TickKeeps.trans ?_ (Keeps.foldl tickMoves_composes c (fun s d => retarget_tickKeeps c s d) _ _)
  refine TickKeeps.trans ?_ (captureSeed_tickKeeps c _)
  refine TickKeeps.trans ?_ (published_tickKeeps c _ _ _)
  refine TickKeeps.trans ?_ (freeOld_tickKeeps c _)
  refine TickKeeps.trans ?_ (applyRecorded_keeps tickMoves_composes c _ _ _ _)
  exact (throttleTick_tickKeeps c _).trans (applyLive_tickKeeps c _)

end Sys2Proof.Machine
end

section
/-! PROOF. The rotation step and the tick of a pacing context (R26, R27, R82). -/

namespace Sys2Proof.Machine

/-! ### The rotation step and the tick of a pacing context (R26, R27, R82) -/

/-- What the change of roles at a step moves. -/
def RoleMoves (s t : State) : Prop :=
  t = { s with roles := t.roles, engines := t.engines } ∧ t.roles.steps = s.roles.steps

theorem RoleMoves.trans {a b c : State} (h : RoleMoves a b) (k : RoleMoves b c) : RoleMoves a c := by
  obtain ⟨h, hs⟩ := h
  obtain ⟨k, ks⟩ := k
  refine ⟨?_, ks.trans hs⟩
  rw [k, h]

theorem bringInto_roleMoves (s : State) (e : EngId) : RoleMoves s (bringInto s e) := ⟨rfl, rfl⟩

theorem pick_roleMoves (s : State) (r : Roles) (h : r.steps = s.roles.steps) : RoleMoves s (stepRoles.pick s r) := by
  unfold stepRoles.pick
  dsimp only
  split
  · exact ⟨rfl, rfl⟩
  · exact ⟨rfl, h⟩

theorem move_roleMoves (s : State) : RoleMoves s (stepRoles.move s) := by
  unfold stepRoles.move
  split
  · exact ⟨rfl, rfl⟩
  · exact pick_roleMoves s _ rfl

theorem stepRoles_roleMoves (s : State) : RoleMoves s (stepRoles s) := by
  have hends : RoleMoves s { s with roles := { s.roles with standFor := none, noStand := false, heir := none } } := ⟨rfl, rfl⟩
  refine hends.trans ?_
  unfold stepRoles
  dsimp only
  split
  · split
    · exact (bringInto_roleMoves _ _).trans ⟨rfl, rfl⟩
    · exact (bringInto_roleMoves _ _).trans (move_roleMoves _)
  · split
    · exact ⟨rfl, rfl⟩
    · exact move_roleMoves _
  · exact move_roleMoves _

/-- A rotation step, before its check for an overdue test. -/
def stepped (s : State) : State :=
  { stepRoles s with
    roles := { (stepRoles s).roles with steps := (stepRoles s).roles.steps + 1, lastStepAt := some (stepRoles s).now }
    saf := { (stepRoles s).saf with chkRunning := true } }

theorem rotationStep_demandKeeps (c : CtxId) (s : State) : DemandKeeps c (stepped s) (rotationStep s) := by
  unfold rotationStep
  exact (partCause_demandKeeps c (stepped s) 11).ite

/-- What the step and the tick of a pacing context move. -/
def PaceMoves (s t : State) : Prop :=
  t = { s with
    roles := t.roles, engines := t.engines, saf := t.saf, ctxs := t.ctxs, tds := t.tds, mbx := t.mbx, sda := t.sda, sdb := t.sdb
    cn0 := t.cn0, cn1 := t.cn1, errField := t.errField, recorder := t.recorder, psram := t.psram, store := t.store, links := t.links
    hedge := t.hedge, power := t.power, syncOut := t.syncOut, syncOutEnd := t.syncOutEnd, dump := t.dump, freeCount := t.freeCount
    world := t.world, force := t.force, faults := t.faults, vfy := t.vfy }

theorem paceMoves_composes : Composes PaceMoves where
  refl _ := rfl
  trans a b c h k := by
    unfold PaceMoves at *
    rw [k, h]
  record s t h := by
    unfold RecordFrame at h
    unfold PaceMoves
    rw [h]

/-- A frame weakened. -/
theorem Keeps.mono {F G : State → State → Prop} {c : CtxId} {s t : State} (hFG : F s t → G s t) (h : Keeps F c s t) :
    Keeps G c s t :=
  ⟨hFG h.frame, h.live, h.plan, h.st⟩

theorem DemandMoves.paceMoves {s t : State} (h : DemandMoves s t) : PaceMoves s t := by
  obtain ⟨h, -⟩ := h
  unfold PaceMoves
  rw [h]

theorem TickMoves.paceMoves {s t : State} (h : TickMoves s t) : PaceMoves s t := by
  obtain ⟨h, -⟩ := h
  unfold PaceMoves
  rw [h]

theorem stepped_roles (s : State) :
    (stepped s).roles.steps = s.roles.steps + 1 ∧ (stepped s).roles.lastStepAt = some s.now := by
  obtain ⟨h, hs⟩ := stepRoles_roleMoves s
  refine ⟨congrArg (· + 1) hs, ?_⟩
  show some (stepRoles s).now = _
  rw [h]
  rfl

theorem stepped_frame (s : State) :
    stepped s = { s with
      roles := (stepped s).roles, engines := (stepped s).engines, saf := { s.saf with chkRunning := true } } := by
  have h := (stepRoles_roleMoves s).1
  unfold stepped
  rw [h]

theorem stepped_keeps (c : CtxId) (s : State) : Keeps PaceMoves c s (stepped s) := by
  have h := stepped_frame s
  refine Keeps.aside ?_ ?_ ?_
  · unfold PaceMoves
    rw [h]
  all_goals rw [h]

/-- The rotation step that falls with a tick of the given period, if it does. -/
def paced (s : State) (period : Nat) : State := if stepDue s period then rotationStep s else s

theorem paced_keeps (c : CtxId) (s : State) (period : Nat) : Keeps PaceMoves c s (paced s period) := by
  unfold paced
  split
  · exact Keeps.trans paceMoves_composes c (stepped_keeps c s) ((rotationStep_demandKeeps c s).mono DemandMoves.paceMoves)
  · exact Keeps.refl paceMoves_composes c s

theorem paced_world (s : State) (period : Nat) : (paced s period).world = s.world := by
  unfold paced
  split
  · obtain ⟨⟨h, -⟩, -⟩ := rotationStep_demandKeeps 0 s
    rw [h, stepped_frame]
  · rfl

theorem paced_stepTaken (s : State) (period : Nat) : StepTaken s (paced s period) period := by
  unfold StepTaken paced
  split
  · obtain ⟨⟨h, hc⟩, -⟩ := rotationStep_demandKeeps 0 s
    obtain ⟨h1, h2⟩ := stepped_roles s
    have hroles : (rotationStep s).roles = (stepped s).roles := by rw [h]
    exact ⟨by rw [hroles, h1], by rw [hroles, h2], hc⟩
  · rfl

/-- Outside replay a pacing context takes the step, if one falls, and then the tick. -/
theorem stepAndTick_tickKeeps (c : CtxId) {s : State} (hl : s.replaying = false) (period : Nat) (ecc : List Nat) :
    TickKeeps c { paced s period with world := (paced s period).world.ticked period } (stepAndTick s period ecc) := by
  have hp : (paced s period).replaying = false := (paced_keeps c s period).live hl
  have hkeeps := (tickWorld_tickKeeps c (paced s period) period ecc).trans (admitSeeds_tickKeeps c _)
  have heq : stepAndTick s period ecc = admitSeeds (tickWorld (paced s period) period ecc) := by
    have ht : (admitSeeds (tickWorld (paced s period) period ecc)).replaying = false := hkeeps.live hp
    unfold stepAndTick
    rw [show (if stepDue s period then rotationStep s else s) = paced s period from rfl]
    simp [hp, ht, idleStopped]
  rw [heq]
  exact hkeeps

theorem stepAndTick_keeps (c : CtxId) {s : State} (hl : s.replaying = false) (period : Nat) (ecc : List Nat) :
    Keeps PaceMoves c s (stepAndTick s period ecc) := by
  have hclock : Keeps PaceMoves c (paced s period) { paced s period with world := (paced s period).world.ticked period } :=
    Keeps.aside rfl rfl rfl
  exact Keeps.trans paceMoves_composes c (paced_keeps c s period)
    (Keeps.trans paceMoves_composes c hclock ((stepAndTick_tickKeeps c hl period ecc).mono TickMoves.paceMoves))

theorem stepAndTick_tickTaken {s : State} (hl : s.replaying = false) (period : Nat) (ecc : List Nat) :
    TickTaken s (stepAndTick s period ecc) period := by
  obtain ⟨-, h1, h2, h3, h4⟩ := (stepAndTick_tickKeeps 0 hl period ecc).frame
  rw [paced_world] at h1 h2 h3 h4
  exact ⟨h1, h4, h2, h3⟩

theorem stepAndTick_stepTaken {s : State} (hl : s.replaying = false) (period : Nat) (ecc : List Nat) :
    StepTaken s (stepAndTick s period ecc) period := by
  obtain ⟨h, -⟩ := (stepAndTick_tickKeeps 0 hl period ecc).frame
  have hroles : (stepAndTick s period ecc).roles = (paced s period).roles := by rw [h]
  have hsaf : (stepAndTick s period ecc).saf = (paced s period).saf := by rw [h]
  have hstep := paced_stepTaken s period
  unfold StepTaken at hstep ⊢
  rw [hroles, hsaf]
  exact hstep

end Sys2Proof.Machine
end

section
/-! PROOF. What the start of a frame moves (R14-R16, R150-R159, R190). -/

namespace Sys2Proof.Machine

/-! ### The start of a frame (R14-R16, R150-R159, R190, R293) -/

/-- What the start of a frame of context c moves, apart from the frame's own number and time. -/
def FrameMoves (c : CtxId) (s t : State) : Prop :=
  t = { s with
    ctxs := t.ctxs, recorder := t.recorder, psram := t.psram, links := t.links, hedge := t.hedge, modules := t.modules
    loader := t.loader, force := t.force } ∧
  (∀ i sub, i ≠ 0x2201 + c.val → sub < 256 → amGet t.force (objKey i sub) = amGet s.force (objKey i sub)) ∧
  OtherContexts c s t ∧
  (t.ctx c).frameNo = (s.ctx c).frameNo ∧ (t.ctx c).lastF = (s.ctx c).lastF ∧ (t.ctx c).fDue = (s.ctx c).fDue

theorem FrameMoves.of_ctxs {c : CtxId} {s t : State}
    (h : t = { s with
      recorder := t.recorder, psram := t.psram, links := t.links, hedge := t.hedge, modules := t.modules, loader := t.loader }) :
    FrameMoves c s t := by
  have hf : t.force = s.force := by rw [h]
  have hc : t.ctxs = s.ctxs := by rw [h]
  refine ⟨?_, fun _ _ _ _ => by rw [hf], fun _ _ => ?_, ?_, ?_, ?_⟩
  · rw [h]
  all_goals simp only [State.ctx, hc]

theorem frameMoves_composes (c : CtxId) : Composes (FrameMoves c) where
  refl _ := .of_ctxs rfl
  trans a b d h k := by
    obtain ⟨h, hf, ho, h1, h2, h3⟩ := h
    obtain ⟨k, kf, ko, k1, k2, k3⟩ := k
    refine ⟨?_, fun i sub hi hs => (kf i sub hi hs).trans (hf i sub hi hs), fun d hd => (ko d hd).trans (ho d hd), k1.trans h1,
      k2.trans h2, k3.trans h3⟩
    rw [k, h]
  record s t h := by
    unfold RecordFrame at h
    refine .of_ctxs ?_
    rw [h]

/-- The operations of a frame start of context c. -/
abbrev FrameKeeps (c : CtxId) : State → State → Prop := Keeps (FrameMoves c) c

theorem FrameKeeps.refl (c : CtxId) (s : State) : FrameKeeps c s s := Keeps.refl (frameMoves_composes c) c s

theorem FrameKeeps.trans {c : CtxId} {a b d : State} (h : FrameKeeps c a b) (k : FrameKeeps c b d) : FrameKeeps c a d :=
  Keeps.trans (frameMoves_composes c) c h k

/-- An operation done under a condition. -/
theorem FrameKeeps.ite {c : CtxId} {s t : State} {p : Prop} [Decidable p] (h : FrameKeeps c s t) :
    FrameKeeps c s (if p then t else s) := by
  split
  · exact h
  · exact FrameKeeps.refl c s

theorem record_frameKeeps (c : CtxId) (s : State) (tick ty src : Nat) (p : Bytes) : FrameKeeps c s (record s tick ty src p) :=
  record_keeps (frameMoves_composes c) c s tick ty src p

/-- A change of the context itself that leaves the frame's stamps, the plan and the state alone. -/
theorem modCtx_frameKeeps {c : CtxId} {s : State} {f : Ctx → Ctx}
    (h : ∀ x, ((f x).frameNo, (f x).lastF, (f x).fDue, (f x).plan, (f x).st) = (x.frameNo, x.lastF, x.fDue, x.plan, x.st)) :
    FrameKeeps c s (s.modCtx c f) := by
  have hx := h (s.ctx c)
  simp only [Prod.mk.injEq] at hx
  obtain ⟨h1, h2, h3, h4, h5⟩ := hx
  refine ⟨⟨rfl, fun _ _ _ _ => rfl, fun k hk => State.modCtx_ctx_other s f hk.symm, ?_, ?_, ?_⟩, id, ?_, ?_⟩
  all_goals
    rw [State.modCtx_ctx_same]
    assumption

theorem modRm_frameKeeps (c : CtxId) (s : State) (f : Roadmap → Roadmap) : FrameKeeps c s (s.modRm c f) :=
  modCtx_frameKeeps fun _ => rfl

theorem setLoader_frameKeeps (c : CtxId) (s : State) (l : List LoadJob) : FrameKeeps c s { s with loader := l } :=
  Keeps.aside (.of_ctxs rfl) rfl rfl

theorem warmFromRecord_frameKeeps (c : CtxId) (s : State) (frame : Nat) : FrameKeeps c s (warmFromRecord s c frame) := by
  unfold warmFromRecord
  dsimp only
  have htaken : FrameKeeps c s { s with recorder := { s.recorder with recorded := s.recorder.recorded.filter fun x => x != c } } :=
    ⟨.of_ctxs rfl, id, rfl, rfl⟩
  split
  · exact htaken
  · split
    · exact htaken
    · exact htaken.trans (modCtx_frameKeeps fun _ => rfl)

theorem applyLive_frameKeeps (c : CtxId) (s : State) : FrameKeeps c s (applyLive s (0x2201 + c.val)) :=
  Keeps.aside ⟨rfl, fun _ _ hi hs => applyLive_other s hi hs, fun _ _ => rfl, rfl, rfl, rfl⟩ rfl rfl

theorem toolAtFrame_frameKeeps (c : CtxId) (s : State) (frame : Nat) : FrameKeeps c s (toolAtFrame s c frame).1 := by
  unfold toolAtFrame
  dsimp only
  split
  · exact FrameKeeps.refl c s
  · split
    · exact FrameKeeps.refl c s
    · refine FrameKeeps.trans ?_ (modCtx_frameKeeps fun _ => rfl)
      exact (record_frameKeeps c s _ _ _ _).trans (Keeps.aside (.of_ctxs rfl) rfl rfl)

theorem recordRoadmap_frameKeeps (c : CtxId) (s : State) (frame op : Nat) (what : Bytes) :
    FrameKeeps c s (recordRoadmap s c frame op what) := record_frameKeeps c s _ _ _ _

theorem activate_frameKeeps (c : CtxId) (s : State) (p frame : Nat) : FrameKeeps c s (activate s c p frame) := by
  unfold activate
  refine FrameKeeps.trans ?_ (recordRoadmap_frameKeeps c _ _ _ _)
  exact (modRm_frameKeeps c s _).trans (modCtx_frameKeeps fun _ => rfl)

theorem dropQueued_frameKeeps (c : CtxId) (s : State) (keep : Nat) : FrameKeeps c s (dropQueued s c keep) :=
  setLoader_frameKeeps c s _

theorem selectImage_frameKeeps (c : CtxId) (s : State) (frame : Nat) (may : Nat → Bool) :
    FrameKeeps c s (selectImage s c frame may) := by
  have hto : ∀ (h : Nat) (f : Roadmap → Roadmap), FrameKeeps c s ((dropQueued s c h).modRm c f) := fun h f =>
    (dropQueued_frameKeeps c s h).trans (modRm_frameKeeps c _ f)
  unfold selectImage
  dsimp only
  split
  · exact hto _ _
  · split
    · exact hto _ _
    · split
      · exact hto _ _
      · split
        · exact hto _ _
        · split
          · exact (dropQueued_frameKeeps c s _).trans (activate_frameKeeps c _ _ _)
          · split
            · exact hto _ _
            · exact (hto _ _).trans (setLoader_frameKeeps c _ _)

/-- A loaded image becomes active where it was selected (R154). -/
theorem loadedActive_frameKeeps (c : CtxId) (s : State) (o : Option Nat) (q : Nat → Prop) [DecidablePred q] (frame : Nat) :
    FrameKeeps c s (match o with
      | some p => if q p then activate s c p frame else s
      | none => s) := by
  split
  · exact (activate_frameKeeps c s _ frame).ite
  · exact FrameKeeps.refl c s

theorem roadmapAtFrame_frameKeeps (c : CtxId) (s : State) (frame : Nat) (toolChanged : Bool) (may : Nat → Bool) :
    FrameKeeps c s (roadmapAtFrame s c frame toolChanged may) := by
  unfold roadmapAtFrame
  dsimp only
  refine FrameKeeps.trans ?_ ((recordRoadmap_frameKeeps c _ frame 3 _).trans (setLoader_frameKeeps c _ _)).ite
  refine FrameKeeps.trans ?_ (modRm_frameKeeps c _ _)
  refine FrameKeeps.trans ?_ (selectImage_frameKeeps c _ frame may).ite
  refine FrameKeeps.trans ?_ (modRm_frameKeeps c _ _)
  exact (modRm_frameKeeps c s _).trans (loadedActive_frameKeeps c _ _ _ frame)

theorem holdAtStart_frameKeeps (c : CtxId) (s : State) (frame : Nat) : FrameKeeps c s (holdAtStart s c frame) := by
  unfold holdAtStart
  dsimp only
  split
  all_goals exact modCtx_frameKeeps fun _ => rfl

end Sys2Proof.Machine
end

section
/-! PROOF. The run that a frame start fixes (R190, R424). -/

namespace Sys2Proof.Machine

/-- The state in which the frame of context c has its number and its time, and no value has been applied. -/
def stamped (s : State) (c : CtxId) (frame : Nat) : State :=
  let w := if (s.ctx c).firstF.isNone then s else warmFromRecord s c frame
  w.modCtx c fun x =>
    { x with
      frameNo := frame, lastF := some w.now, ntF := w.world.nt, fDue := false
      firstF := if (s.ctx c).firstF.isNone then some w.now else x.firstF }

/-- The state from which the run of a live frame is fixed, with the values in force, and the run. -/
def Begun (c : CtxId) (s : State) (frame : Nat) (u : State) (r : FrameRun) : Prop :=
  FrameKeeps c (applyLive (stamped s c frame) (0x2000 + c.val)) u ∧
  r.frame = frame ∧ r.f = u.now ∧ r.tf = u.world.tick ∧ r.snapped = false ∧ r.ready = none ∧ r.step = u.power.inForce ∧
  r.service = u.service ∧ r.inSafe = ((u.ctx c).sstate == .safe) ∧
  r.candMax = cutCount u.service (cNat u c 0xA0) u.power.inForce (((u.ctx c).plan.getD default).candMax) ∧
  r.waves = cutCount u.service (cNat u c 0xA0) u.power.inForce (((u.ctx c).plan.getD default).waves)

theorem stamped_live (c : CtxId) {s : State} (hl : s.replaying = false) (frame : Nat) : (stamped s c frame).replaying = false := by
  unfold stamped
  show (if (s.ctx c).firstF.isNone then s else warmFromRecord s c frame).replaying = false
  split
  · exact hl
  · exact (warmFromRecord_frameKeeps c s frame).live hl

theorem and_not_replaying {s : State} (hl : s.replaying = false) (b : Bool) : (b && !s.replaying) = b := by
  rw [hl, Bool.not_false, Bool.and_true]

theorem applied_frameKeeps (c : CtxId) (s : State) (src frame : Nat) :
    FrameKeeps c (applyLive s (0x2000 + c.val))
      (applyRecorded (applyRecorded s (0x2000 + c.val) src frame) (0x2201 + c.val) src frame) := by
  refine FrameKeeps.trans (applyRecorded_keeps (frameMoves_composes c) c s _ src frame) ?_
  exact (applyLive_frameKeeps c _).trans (applyRecorded_keeps (frameMoves_composes c) c _ _ _ _)

/-- The roadmap of a frame that begins, the pose of the first one, and the warm path. -/
def furnished (s : State) (c : CtxId) (frame : Nat) (first toolChanged : Bool) (preloads : List (Nat × Nat)) (may : Nat → Bool) :
    State :=
  let s := roadmapAtFrame (s.modRm c fun r => { r with preload := r.preload ++ preloads }) c frame toolChanged may
  let s := if first then holdAtStart s c frame else s
  s.modCtx c fun x => { x with warm := if x.freshImage then [] else x.warm, freshImage := false }

theorem furnished_frameKeeps (c : CtxId) (s : State) (frame : Nat) (first toolChanged : Bool) (preloads : List (Nat × Nat))
    (may : Nat → Bool) : FrameKeeps c s (furnished s c frame first toolChanged preloads may) := by
  unfold furnished
  refine FrameKeeps.trans ?_ (modCtx_frameKeeps fun _ => rfl)
  refine FrameKeeps.trans ?_ (holdAtStart_frameKeeps c _ frame).ite
  exact (modRm_frameKeeps c s _).trans (roadmapAtFrame_frameKeeps c _ frame toolChanged may)

/-- Outside replay a frame begins with the values in force, the tool and the roadmap of this edge, and its counts are cut by them. -/
theorem beginFrame_live (c : CtxId) {s : State} (hl : s.replaying = false) (frame : Nat) :
    ∃ u r, beginFrame s c frame none = u.setRun c r ∧ Begun c s frame u r := by
  have hst := stamped_live c hl frame
  have hkeeps := (applied_frameKeeps c (stamped s c frame) c.val frame).trans (toolAtFrame_frameKeeps c _ frame)
  have hlive := hkeeps.live hst
  unfold beginFrame
  dsimp only
  rw [show (State.modCtx _ c _) = stamped s c frame from rfl]
  simp only [hst, Bool.false_eq_true, if_false]
  generalize applyRecorded (applyRecorded (stamped s c frame) _ c.val frame) (0x2201 + c.val) c.val frame = a at *
  rcases htool : toolAtFrame a c frame with ⟨v, changed⟩
  rw [htool] at hkeeps hlive
  simp only [hlive, Bool.false_eq_true, if_false, List.foldl_nil, Option.isSome_none, Bool.false_and]
  have hk := hkeeps.trans (furnished_frameKeeps c v frame (s.ctx c).firstF.isNone changed [] fun _ => true)
  exact ⟨_, _, rfl, hk, rfl, rfl, rfl, rfl, rfl, rfl, rfl, and_not_replaying (hk.live hst) _, rfl, rfl⟩

end Sys2Proof.Machine
end

section
/-! PROOF. The frame start of a live context (O19). -/

namespace Sys2Proof.Machine

/-! ### The frame start of a live context (R14-R16, R27, R82, R190, R565) -/

/-- What the start of a frame moves. -/
def StartMoves (s t : State) : Prop :=
  t = { s with
    ctxs := t.ctxs, recorder := t.recorder, psram := t.psram, links := t.links, hedge := t.hedge, modules := t.modules
    loader := t.loader, force := t.force }

/-- Frame n of context c begins, and every live object of the context takes the value written before this edge. -/
structure FrameBegins (c : CtxId) (n : Nat) (s t : State) : Prop where
  moves : StartMoves s t
  others : OtherContexts c s t
  st : (t.ctx c).st = (s.ctx c).st
  frameNo : (t.ctx c).frameNo = n
  lastF : (t.ctx c).lastF = some s.now
  fDue : (t.ctx c).fDue = false
  run : ∃ r, (t.ctx c).run = some r ∧ r.frame = n ∧ r.f = s.now ∧ r.tf = t.world.tick ∧ r.snapped = false ∧ r.ready = none ∧
    r.step = t.power.inForce ∧ r.service = t.service ∧ r.inSafe = ((t.ctx c).sstate == .safe) ∧
    r.candMax = cutCount t.service (cNat t c 0xA0) t.power.inForce (((s.ctx c).plan.getD default).candMax) ∧
    r.waves = cutCount t.service (cNat t c 0xA0) t.power.inForce (((s.ctx c).plan.getD default).waves)
  takes : ((boundaryShadow s).map (·.1)).Nodup → ∀ sub v d, sub < 256 → objDef (0x2000 + c.val) sub = some d → d.acc = .rwf →
    amGet (boundaryShadow s) (objKey (0x2000 + c.val) sub) = some v → forceVal t (0x2000 + c.val) sub = v

theorem StartMoves.trans {a b d : State} (h : StartMoves a b) (k : StartMoves b d) : StartMoves a d := by
  unfold StartMoves at *
  rw [k, h]

theorem FrameMoves.startMoves {c : CtxId} {s t : State} (h : FrameMoves c s t) : StartMoves s t := h.1

/-- The state before the stamps of a frame: a replay takes the warm path from the recording (R437). -/
theorem warmed_frameKeeps (c : CtxId) (s : State) (frame : Nat) :
    FrameKeeps c s (if (s.ctx c).firstF.isNone then s else warmFromRecord s c frame) := by
  split
  · exact FrameKeeps.refl c s
  · exact warmFromRecord_frameKeeps c s frame

theorem stamped_moves (c : CtxId) (s : State) (frame : Nat) : StartMoves s (stamped s c frame) :=
  (warmed_frameKeeps c s frame).frame.startMoves.trans rfl

theorem stamped_others (c : CtxId) (s : State) (frame : Nat) : OtherContexts c s (stamped s c frame) := by
  intro k hk
  obtain ⟨-, -, ho, -⟩ := (warmed_frameKeeps c s frame).frame
  unfold stamped
  exact (State.modCtx_ctx_other _ _ hk.symm).trans (ho k hk)

theorem stamped_ctx (c : CtxId) (s : State) (frame : Nat) :
    ((stamped s c frame).ctx c).plan = (s.ctx c).plan ∧ ((stamped s c frame).ctx c).st = (s.ctx c).st ∧
      ((stamped s c frame).ctx c).frameNo = frame ∧ ((stamped s c frame).ctx c).lastF = some s.now ∧
      ((stamped s c frame).ctx c).fDue = false := by
  have hk := warmed_frameKeeps c s frame
  have hmoves := hk.frame.startMoves
  unfold stamped
  dsimp only
  generalize (if (s.ctx c).firstF.isNone then s else warmFromRecord s c frame) = w at *
  have hnow : w.now = s.now := by
    rw [hmoves]
    rfl
  rw [State.modCtx_ctx_same, hnow]
  exact ⟨hk.plan, hk.st, rfl, rfl, rfl⟩

theorem setRun_ctx_same (s : State) (c : CtxId) (r : FrameRun) : (s.setRun c r).ctx c = { s.ctx c with run := some r } :=
  State.modCtx_ctx_same s c _

/-- A start that leaves the shadow and the time alone takes the same boundary values. -/
theorem StartMoves.boundaryShadow {s t : State} (h : StartMoves s t) : boundaryShadow t = boundaryShadow s := by
  rw [h]
  rfl

theorem beginFrame_begins (c : CtxId) {s : State} (hl : s.replaying = false) (n : Nat) :
    FrameBegins c n s (beginFrame s c n none) := by
  obtain ⟨u, r, heq, hk, hrun⟩ := beginFrame_live c hl n
  obtain ⟨-, hforce, hothers, hno, hlast, hdue⟩ := hk.frame
  obtain ⟨splan, sst, sno, slast, sdue⟩ := stamped_ctx c s n
  have hst := stamped_moves c s n
  have happly : StartMoves (stamped s c n) (applyLive (stamped s c n) (0x2000 + c.val)) := rfl
  have hu : StartMoves s u := (hst.trans happly).trans hk.frame.startMoves
  have hnow : u.now = s.now := by
    rw [hu]
    rfl
  have hctx := setRun_ctx_same u c r
  rw [heq]
  refine ⟨hu.trans rfl, fun k hkc => ?_, ?_, ?_, ?_, ?_, ⟨r, ?_, ?_⟩, fun hnd sub v d hsub hd ha hv => ?_⟩
  · exact (State.modCtx_ctx_other u _ hkc.symm).trans ((hothers k hkc).trans (stamped_others c s n k hkc))
  · rw [hctx]
    exact hk.st.trans sst
  · rw [hctx]
    exact hno.trans sno
  · rw [hctx]
    exact hlast.trans slast
  · rw [hctx]
    exact hdue.trans sdue
  · rw [hctx]
  · rw [hk.plan.trans splan, hnow] at hrun
    rw [hctx]
    exact hrun
  · rw [← hst.boundaryShadow] at hnd hv
    have htake := applyLive_takes hnd hsub hd ha hv
    rw [forceVal_live _ hd ha] at htake ⊢
    exact (congrArg (Option.getD · d.dflt) (hforce _ sub (by omega) hsub)).trans htake

/-- A clear that takes effect moves the context alone, and the pins. -/
theorem takeClear_frame (s : State) (c : CtxId) :
    takeClear s c = { s with ctxs := (takeClear s c).ctxs, saf := (takeClear s c).saf } ∧ OtherContexts c s (takeClear s c) := by
  unfold takeClear drivePins
  split
  · split
    all_goals exact ⟨rfl, fun k hk => State.modCtx_ctx_other s _ hk.symm⟩
  · exact ⟨rfl, fun _ _ => rfl⟩

/-- The pacing context is the lowest one that runs. -/
theorem pacing_iff {s : State} {c : CtxId} (hc : (s.ctx c).st = .running) :
    s.pacing = some c ↔ ∀ d : CtxId, d < c → (s.ctx d).st ≠ .running := by
  unfold State.pacing State.runningCtxs allCtx
  rw [List.head?_filter, List.find?_eq_some_iff_getElem]
  simp only [hc, beq_self_eq_true, true_and, List.getElem_finRange, Fin.cast_mk, Bool.not_eq_true', beq_eq_false_iff_ne,
    List.length_finRange]
  constructor
  · rintro ⟨i, hi, rfl, hlow⟩ d hd
    exact hlow d.val hd
  · intro hlow
    exact ⟨c.val, c.isLt, rfl, fun j hj => hlow ⟨j, by omega⟩ hj⟩

/-- The number of the frame that starts. -/
def nextFrame (s : State) (c : CtxId) : Nat :=
  if (s.ctx c).st = .starting then leNat (shadowVal s (0x2000 + c.val) 0x09) else ((s.ctx c).frameNo + 1) % 2 ^ 48

/-- The context runs; its number is still that of the frame before. -/
def setRunning (s : State) (c : CtxId) : State :=
  s.modCtx c fun x => { x with st := .running, frameNo := (nextFrame s c + 2 ^ 48 - 1) % 2 ^ 48 }

/-- The context at its frame start, before the step and the tick that it may pace. -/
def readied (s : State) (c : CtxId) : State := takeClear (setRunning s c) c

/-- The step and the tick of a context that paces. -/
def pacedTick (s : State) (c : CtxId) (ecc : List Nat) : State :=
  if s.pacing = some c then stepAndTick s (cNat s c 0x04) ecc else s

theorem liveFrame_eq (s : State) (c : CtxId) (ecc : List Nat) :
    liveFrame s c ecc = beginFrame (pacedTick (readied s c) c ecc) c (nextFrame s c) none := rfl

theorem readied_frame (s : State) (c : CtxId) :
    readied s c = { s with ctxs := (readied s c).ctxs, saf := (readied s c).saf } ∧ OtherContexts c s (readied s c) := by
  obtain ⟨h, ho⟩ := takeClear_frame (setRunning s c) c
  refine ⟨?_, fun k hk => (ho k hk).trans (State.modCtx_ctx_other s _ hk.symm)⟩
  unfold readied
  rw [h]
  rfl

theorem readied_ctx (s : State) (c : CtxId) :
    ((readied s c).ctx c).st = .running ∧ ((readied s c).ctx c).plan = (s.ctx c).plan := by
  have h := takeClear_demandKeeps c c (setRunning s c)
  have hctx : (setRunning s c).ctx c = _ := State.modCtx_ctx_same s c _
  exact ⟨h.st.trans (by rw [hctx]), h.plan.trans (by rw [hctx])⟩

theorem readied_live {s : State} (c : CtxId) (hl : s.replaying = false) : (readied s c).replaying = false :=
  (takeClear_demandKeeps c c _).live hl

theorem readied_pacing (s : State) (c : CtxId) :
    (readied s c).pacing = some c ↔ ∀ d : CtxId, d < c → (s.ctx d).st ≠ .running := by
  rw [pacing_iff (readied_ctx s c).1]
  refine forall₂_congr fun d hd => ?_
  rw [(readied_frame s c).2 d (Fin.ne_of_lt hd)]

theorem pacedTick_keeps (c : CtxId) {s : State} (hl : s.replaying = false) (ecc : List Nat) :
    Keeps PaceMoves c s (pacedTick s c ecc) := by
  unfold pacedTick
  split
  · exact stepAndTick_keeps c hl _ ecc
  · exact Keeps.refl paceMoves_composes c s

/-- The pacing context takes the tick and the step that fall with its frame. -/
theorem pacedTick_taken {s : State} {c : CtxId} (hl : s.replaying = false) (ecc : List Nat)
    (hp : ∀ d : CtxId, d < c → (s.ctx d).st ≠ .running) :
    TickTaken s (pacedTick (readied s c) c ecc) (cNat s c 0x04) ∧ StepTaken s (pacedTick (readied s c) c ecc) (cNat s c 0x04) := by
  have hb := readied_live c hl
  have hr := (readied_frame s c).1
  have hperiod : cNat (readied s c) c 0x04 = cNat s c 0x04 := by
    rw [hr]
    rfl
  have htick := stepAndTick_tickTaken hb (cNat s c 0x04) ecc
  have hstep := stepAndTick_stepTaken hb (cNat s c 0x04) ecc
  rw [pacedTick, if_pos ((readied_pacing s c).2 hp), hperiod]
  generalize stepAndTick _ _ _ = t at *
  rw [hr] at htick hstep
  exact ⟨htick, hstep⟩

theorem pacedTick_none {s : State} {c : CtxId} (ecc : List Nat) (hp : ¬∀ d : CtxId, d < c → (s.ctx d).st ≠ .running) :
    pacedTick (readied s c) c ecc = readied s c :=
  if_neg fun h => hp ((readied_pacing s c).1 h)

theorem liveFrame_aloof {s v t : State} {c : CtxId} (hv : PaceMoves (readied s c) v) (ht : StartMoves v t) :
    Aloof s t ∧ t.shadow = s.shadow ∧ t.wear = s.wear := by
  have hr := (readied_frame s c).1
  unfold PaceMoves at hv
  unfold StartMoves at ht
  rw [ht, hv, hr]
  exact ⟨⟨rfl, rfl, rfl, rfl, rfl, rfl, rfl, rfl, rfl, rfl, rfl⟩, rfl, rfl⟩

/-- Settles O19: the context made ready, the step and the tick if it paces, then the start of its frame, each with what it moves. -/
theorem frameStartBegins : Obligations.FrameStartBegins := by
  unfold Obligations.FrameStartBegins
  intro c ecc s hl
  have hexec : exec (.frameStart c ecc) s = .next (frameStartEffect c ecc s) := rfl
  dsimp only
  refine ⟨fun hf => ?_, fun hf => ⟨liveFrame s c ecc, ?_, ?_⟩⟩
  · simp [ChangesNothing, hexec, frameStartEffect, hl, hf]
  · simp [hexec, frameStartEffect, hl, hf]
  rw [liveFrame_eq]
  have hr := (readied_frame s c).1
  have hk := pacedTick_keeps c (readied_live c hl) ecc
  have hb := beginFrame_begins c (hk.live (readied_live c hl)) (nextFrame s c)
  obtain ⟨bst, bplan⟩ := readied_ctx s c
  have hnow : (pacedTick (readied s c) c ecc).now = s.now := by
    rw [hk.frame, hr]
    rfl
  have hshadow : boundaryShadow (pacedTick (readied s c) c ecc) = boundaryShadow s := by
    rw [hk.frame, hr]
    rfl
  obtain ⟨hmoves, hothers, hst, hno, hlast, hdue, hrun, htakes⟩ := hb
  rw [hnow] at hlast hrun
  rw [hk.plan.trans bplan] at hrun
  rw [hshadow] at htakes
  refine ⟨hst.trans (hk.st.trans bst), hno, hlast, hdue, hrun, htakes, fun hp => ?_, fun hp => ?_, liveFrame_aloof hk.frame hmoves⟩
  · have htaken := pacedTick_taken hl ecc hp
    generalize beginFrame _ c _ none = t at *
    rw [hmoves]
    exact htaken
  · rw [pacedTick_none ecc hp] at hmoves hothers ⊢
    refine ⟨?_, ?_, fun k hkc => (hothers k hkc).trans ((readied_frame s c).2 k hkc)⟩
    all_goals rw [hmoves, hr]

end Sys2Proof.Machine
end

section
/-! PROOF. An access under its master (R55, R329), and a change of one stream or receiver (R100-R103). -/

namespace Sys2Proof.Machine

/-! ### An access and the reply before it (R55, R329) -/

/-- An access does the same whatever reply stood before it. -/
def ReplyBlind (access : State → State) (s : State) : Prop := ∀ r : BusReply, access (s.reply r) = access s

/-- An access that completes stops no tile. -/
theorem busStop_completes {access : State → State} {s : State} (m : Master) (h : ReplyBlind access s)
    (ht : (access s).bus ≠ .error) : busStop m access s = access s := by
  cases m with
  | engine n => simp [busStop, h BusReply.none, ht]
  | _ => rfl

/-- An access that only ends with a bus error is, for its master, a bus error. -/
theorem busStop_refused {access : State → State} {s : State} (m : Master) (h : ReplyBlind access s)
    (ht : access s = s.busErr) : busStop m access s = busStop m State.busErr s := by
  cases m with
  | engine n =>
    have herr : (s.reply BusReply.none).busErr = s.busErr := rfl
    simp only [busStop, h BusReply.none, ht, herr]
  | _ => exact ht

/-! ### Streams and receivers changed -/

theorem State.modRx_rx_same (s : State) (n : RxId) (f : Rx → Rx) : (s.modRx n f).fus.rx[n] = f s.fus.rx[n] :=
  vupd_same s.fus.rx n f

theorem State.modRx_rx_other (s : State) {n j : RxId} (f : Rx → Rx) (h : j ≠ n) :
    (s.modRx n f).fus.rx[j] = s.fus.rx[j] := vupd_other s.fus.rx f h.symm

theorem State.modStream_stream_same (s : State) (k : StreamId) (f : Stream → Stream) :
    (s.modStream k f).fus.streams[k] = f s.fus.streams[k] := vupd_same s.fus.streams k f

theorem State.modStream_otherStreams (s : State) (k : StreamId) (f : Stream → Stream) :
    OtherStreams k s (s.modStream k f) := fun _ h => vupd_other s.fus.streams f h.symm

end Sys2Proof.Machine
end

section
/-! PROOF. The Fuse unit's controls (O29). -/

namespace Sys2Proof.Machine

/-! ### The world rebuilt (R712) -/

/-- The state whose world has the geometry of the objects: rebuilt where that differs from the one in force. -/
def State.withObjectGeom (s : State) : State :=
  if geomOf s = s.world.geom then s else rebuildWorld s (geomOf s)

theorem withObjectGeom_same {s : State} (h : geomOf s = s.world.geom) : s.withObjectGeom = s := if_pos h

theorem withObjectGeom_differs {s : State} (h : geomOf s ≠ s.world.geom) : s.withObjectGeom = rebuildWorld s (geomOf s) :=
  if_neg h

/-- The world emptied to a geometry, before the publication that a rebuild makes (R712). -/
def State.emptied (s : State) (g : Geom) : State :=
  { s with
    world := { s.world with
      geom := g, crown := [], fc := none, epoch := 0, pubs := [], pools := ⟨[], [], []⟩, heldSlots := [], inputs := []
      grids := [], launches := [], lastGrid := none }
    recorder := { s.recorder with
      due := none, seedRuns := [], seedAbandon := (s.recorder.seedAbandon + s.recorder.seedRuns.length) % 2 ^ 32
      rebuilds := if s.recorder.st = 1 then s.recorder.rebuilds ++ [s.world.tick] else s.recorder.rebuilds } }

theorem rebuildWorld_eq (s : State) (g : Geom) :
    rebuildWorld s g = if s.world.started then putPub (s.emptied g) 0 none false else s.emptied g := rfl

theorem rebuildWorld_reply (s : State) (g : Geom) (r : BusReply) :
    rebuildWorld (s.reply r) g = (rebuildWorld s g).reply r := by
  rw [rebuildWorld_eq, rebuildWorld_eq, State.reply_world]
  split <;> rfl

theorem withObjectGeom_reply (s : State) (r : BusReply) : (s.reply r).withObjectGeom = s.withObjectGeom.reply r := by
  have hgeom : geomOf (s.reply r) = geomOf s := rfl
  by_cases h : geomOf s = s.world.geom
  · rw [withObjectGeom_same h, withObjectGeom_same (s := s.reply r) h]
  · rw [withObjectGeom_differs h, withObjectGeom_differs (s := s.reply r) h, rebuildWorld_reply, hgeom]

/-- What a rebuild to a geometry moves: the world, the line caches that its publication clears, the Recorder's seeds. -/
structure Rebuilt (g : Geom) (s t : State) : Prop where
  frame : t = { s with world := t.world, engines := t.engines, recorder := t.recorder }
  clock : t.world.tick = s.world.tick ∧ t.world.nt = s.world.nt
  geom : t.world.geom = g
  empty : t.world.crown = [] ∧ t.world.epoch = 0 ∧ t.world.inputs = [] ∧ t.world.fc = none ∧ t.world.heldSlots = []
  recorder : t.recorder = { s.recorder with
    due := none, seedRuns := [], seedAbandon := (s.recorder.seedAbandon + s.recorder.seedRuns.length) % 2 ^ 32
    rebuilds := t.recorder.rebuilds }
  noted : s.recorder.st = 1 → s.world.tick ∈ t.recorder.rebuilds
  pubs : ∀ p ∈ t.world.pubs, p.tick = s.world.tick ∧ p.crown = [] ∧ p.epoch = 0
  lines : ∀ n : EngId, t.eng n = { s.eng n with core := (t.eng n).core }

theorem putPub_eng (s : State) (free : Nat) (wait : Option Nat) (hurt : Bool) (n : EngId) :
    (putPub s free wait hurt).eng n = { s.eng n with core := { (s.eng n).core with lines := [] } } := by
  simp [putPub, State.eng]

theorem rebuildWorld_rebuilt (s : State) (g : Geom) : Rebuilt g s (rebuildWorld s g) := by
  have hnoted : s.recorder.st = 1 → s.world.tick ∈ (s.emptied g).recorder.rebuilds := fun h => by
    simp [State.emptied, h]
  rw [rebuildWorld_eq]
  split
  · refine ⟨rfl, ⟨rfl, rfl⟩, rfl, ⟨rfl, rfl, rfl, rfl, rfl⟩, rfl, hnoted, fun p hp => ?_, fun n => ?_⟩
    · obtain rfl := List.mem_singleton.1 hp
      exact ⟨rfl, rfl, rfl⟩
    · rw [putPub_eng]
      rfl
  · exact ⟨rfl, ⟨rfl, rfl⟩, rfl, ⟨rfl, rfl, rfl, rfl, rfl⟩, rfl, hnoted,
      fun _ hp => absurd hp List.not_mem_nil, fun _ => rfl⟩

/-! ### FUS_CTRL (R124, R712, R713) -/

/-- The stream timers turned from running to standing or back (R713). -/
def State.turnedTimers (s : State) : Vector Stream 16 :=
  s.fus.streams.map fun x => { x with timerFrom := s.now - x.timerFrom }

theorem turnedTimers_stream (s : State) (k : StreamId) :
    s.turnedTimers[k] = { s.fus.streams[k] with timerFrom := s.now - s.fus.streams[k].timerFrom } := by
  simp [State.turnedTimers]

/-- RUN set to 1 over a world that has its geometry. -/
def State.fuseStarted (s : State) : State :=
  { s with
    fus := { s.fus with run := true, streams := s.turnedTimers }
    world := { s.world with grids := [], launches := [], fcStale := wNat s 0x1C, fcImage := wNat s 0x1F } }

/-- RUN set to 0. -/
def State.fuseStopped (s : State) : State :=
  { s with fus := { s.fus with run := false, streams := s.turnedTimers } }

section
variable {v : Word} {s : State}

theorem fusCtrlEffect_refused (hv : v.toNat.testBit 0 = false) (h : s.anyRuns = true) : fusCtrlEffect v s = s.busErr := by
  simp [fusCtrlEffect, hv, h]

theorem fusCtrlEffect_same (hv : v.toNat.testBit 0 = s.fus.run) (h : v.toNat.testBit 0 = true ∨ s.anyRuns = false) :
    fusCtrlEffect v s = s.okBus := by
  unfold fusCtrlEffect
  rw [if_neg (by rcases h with h | h <;> simp [h]), if_pos hv]

theorem fusCtrlEffect_rises (hv : v.toNat.testBit 0 = true) (hr : s.fus.run = false) :
    fusCtrlEffect v s = s.withObjectGeom.fuseStarted.okBus := by
  simp only [fusCtrlEffect, hv, hr]
  rfl

theorem fusCtrlEffect_falls (hv : v.toNat.testBit 0 = false) (hr : s.fus.run = true) (h : s.anyRuns = false) :
    fusCtrlEffect v s = s.fuseStopped.okBus := by
  simp only [fusCtrlEffect, hv, hr, h]
  rfl

end

theorem fusCtrlEffect_reply (v : Word) (s : State) (r : BusReply) : fusCtrlEffect v (s.reply r) = fusCtrlEffect v s := by
  cases hv : v.toNat.testBit 0 <;> cases hr : s.fus.run
  case true.false =>
    rw [fusCtrlEffect_rises hv hr, fusCtrlEffect_rises (s := s.reply r) hv hr, withObjectGeom_reply]
    rfl
  all_goals
    simp only [fusCtrlEffect, State.reply_fus, hv, hr]
    rfl

/-! ### The control registers (R124, R128, R130, R507) -/

theorem fusWrite_reply (off : Nat) (v : Word) (s : State) : ReplyBlind (fusWrite off v) s := by
  intro r
  simp only [fusWrite, fusCtrlEffect_reply]
  rfl

theorem fusWrite_held {s : State} (h : s.fuseReset = true) (off : Nat) (v : Word) : fusWrite off v s = s.busErr :=
  if_pos h

section
variable {s : State} (h : s.fuseReset = false) (v : Word)
include h

theorem fusWrite_ctrl : fusWrite 0 v s = fusCtrlEffect v s := by simp [fusWrite, h]

theorem fusWrite_csiCtrl (n : RxId) : fusWrite (0x100 + 0x40 * n.val) v s = fusCsiCtrlEffect n v s := by
  have hn : Fin.ofNat 4 ((0x100 + 0x40 * n.val - 0x100) / 0x40) = n := by
    ext
    simp
  have hoff : 0x100 ≤ 0x100 + 0x40 * n.val ∧ 0x100 + 0x40 * n.val < 0x200 ∧ (0x100 + 0x40 * n.val) % 0x40 = 0 := by omega
  unfold fusWrite
  rw [h, if_neg Bool.false_ne_true, if_neg (by omega), if_neg (by omega), if_neg (by omega), if_neg (by omega), if_pos hoff, hn]

theorem fusWrite_strCtrl (k : StreamId) : fusWrite (0x1000 + 0x20 * k.val) v s = fusStrCtrlEffect k v s := by
  have hk : Fin.ofNat 16 ((0x1000 + 0x20 * k.val - 0x1000) / 0x20) = k := by
    ext
    simp
  have hoff : 0x1000 ≤ 0x1000 + 0x20 * k.val ∧ 0x1000 + 0x20 * k.val < 0x1200 ∧ (0x1000 + 0x20 * k.val) % 0x20 = 0 := by
    omega
  unfold fusWrite
  rw [h, if_neg Bool.false_ne_true, if_neg (by omega), if_neg (by omega), if_neg (by omega), if_neg (by omega),
    if_neg (by omega), if_pos hoff, hk]

end

/-- An access to the Fuse unit that completes, for every master. -/
theorem fuse_completes {off : Nat} {v : Word} {s t : State} (m : Master) (h : fusWrite off v s = t) (ht : t.bus ≠ .error) :
    busStop m (fusWrite off v) s = t := by
  subst h
  exact busStop_completes m (fusWrite_reply off v s) ht

/-- An access that the Fuse unit refuses, in reset or because something forbids it, is a bus error of its master. -/
theorem fuse_refused {off : Nat} {v : Word} {s : State} {p : Prop} (m : Master) (h : s.fuseReset = true ∨ p)
    (hp : s.fuseReset = false → p → fusWrite off v s = s.busErr) :
    busStop m (fusWrite off v) s = busStop m State.busErr s := by
  refine busStop_refused m (fusWrite_reply off v s) ?_
  cases hr : s.fuseReset
  case true => exact fusWrite_held hr off v
  case false => exact hp hr (h.resolve_left (by simp [hr]))

theorem exec_fusCtrl {v : Word} {s t : State} (m : Master) (hr : s.fuseReset = false) (h : fusCtrlEffect v s = t)
    (ht : t.bus ≠ .error) : exec (.fusCtrl m v) s = .next t :=
  congrArg Host.Outcome.next (fuse_completes m ((fusWrite_ctrl hr v).trans h) ht)

theorem exec_fusCsiCtrl {n : RxId} {v : Word} {s t : State} (m : Master) (hr : s.fuseReset = false)
    (h : fusCsiCtrlEffect n v s = t) (ht : t.bus ≠ .error) : exec (.fusCsiCtrl m n v) s = .next t :=
  congrArg Host.Outcome.next (fuse_completes m ((fusWrite_csiCtrl hr v n).trans h) ht)

theorem exec_fusStrCtrl {k : StreamId} {v : Word} {s t : State} (m : Master) (hr : s.fuseReset = false)
    (h : fusStrCtrlEffect k v s = t) (ht : t.bus ≠ .error) : exec (.fusStrCtrl m k v) s = .next t :=
  congrArg Host.Outcome.next (fuse_completes m ((fusWrite_strCtrl hr v k).trans h) ht)

/-! ### FUS_CSI_CTRL and FUS_STR_CTRL (R103, R118, R128-R130) -/

/-- A receiver after a write of its control register that is accepted. -/
def Rx.written (v : Word) (x : Rx) : Rx :=
  let clr := fun (k : Nat) => if v.toNat.testBit 0 then 0 else k
  { x with en := v.toNat.testBit 0, lanes := v.extractLsb' 1 2, ecc1 := clr x.ecc1, bad := clr x.bad, dtIgn := clr x.dtIgn }

theorem Rx.written_enabled {v : Word} (h : v.toNat.testBit 0 = true) (x : Rx) :
    x.written v = { x with en := true, lanes := v.extractLsb' 1 2, ecc1 := 0, bad := 0, dtIgn := 0 } := by
  simp [Rx.written, h]

theorem Rx.written_disabled {v : Word} (h : v.toNat.testBit 0 = false) (x : Rx) :
    x.written v = { x with en := false, lanes := v.extractLsb' 1 2 } := by
  simp [Rx.written, h]

/-- The field LANES of a written word. -/
theorem ofNat_fld_lanes (v : Word) : BitVec.ofNat 2 (fld v.toNat 1 2) = v.extractLsb' 1 2 := by
  apply BitVec.eq_of_toNat_eq
  simp [fld, Nat.shiftRight_eq_div_pow]

section
variable {n : RxId} {v : Word} {s : State}

theorem fusCsiCtrlEffect_refused (h : s.fus.rx[n].en = true ∧ v.extractLsb' 1 2 ≠ s.fus.rx[n].lanes) :
    fusCsiCtrlEffect n v s = s.busErr := by
  simp [fusCsiCtrlEffect, ofNat_fld_lanes, h, -Fin.getElem_fin]

theorem fusCsiCtrlEffect_accepted (hr : s.fuseReset = false)
    (h : s.fus.rx[n].en = false ∨ v.extractLsb' 1 2 = s.fus.rx[n].lanes) :
    fusCsiCtrlEffect n v s = (s.modRx n (Rx.written v)).okBus := by
  have hfree : (s.fuseReset || (s.fus.rx[n].en && v.extractLsb' 1 2 != s.fus.rx[n].lanes)) = false := by
    rcases h with h | h <;> simp [hr, h, -Fin.getElem_fin]
  simp only [fusCsiCtrlEffect, ofNat_fld_lanes]
  rw [hfree]
  rfl

end

/-- A stream enabled: it waits for its first image, and its timer starts (R118, R713). -/
def Stream.enabledAt (timerFrom : Nat) (x : Stream) : Stream :=
  { x with
    en := true, st := .wait, fcnt := 0, lastCam := none, img := none, tlFails := 0, refImg := none, timerFrom := timerFrom }

/-- A stream disabled: its image is gone. -/
def Stream.disabled (x : Stream) : Stream := { x with en := false, st := .off, img := none }

section
variable {k : StreamId} {v : Word} {s : State}

theorem fusStrCtrlEffect_refused (hv : v.toNat.testBit 0 = true) (h : s.fus.streams[k].rec_ = none) :
    fusStrCtrlEffect k v s = s.busErr := by
  simp [fusStrCtrlEffect, hv, h, -Fin.getElem_fin]

theorem fusStrCtrlEffect_accepted (hr : s.fuseReset = false) (h : v.toNat.testBit 0 = true → s.fus.streams[k].rec_ ≠ none) :
    fusStrCtrlEffect k v s =
      if v.toNat.testBit 0 = s.fus.streams[k].en then s.okBus
      else if v.toNat.testBit 0 then (s.modStream k (Stream.enabledAt (if s.fus.run then s.now else 0))).okBus
      else (s.modStream k Stream.disabled).okBus := by
  have hfree : (s.fuseReset || (v.toNat.testBit 0 && s.fus.streams[k].rec_.isNone)) = false := by
    cases hv : v.toNat.testBit 0
    · simp [hr]
    · simp [hr, Option.isSome_iff_ne_none.2 (h hv), -Fin.getElem_fin]
  simp only [fusStrCtrlEffect]
  rw [hfree]
  rfl

end

/-! ### The obligation -/

/-- A world that has the geometry of the objects, taken from one that may have had another. -/
theorem withObjectGeom_keeps (s : State) :
    s.withObjectGeom = { s with
      world := s.withObjectGeom.world, engines := s.withObjectGeom.engines, recorder := s.withObjectGeom.recorder } ∧
    (s.withObjectGeom.world.tick = s.world.tick ∧ s.withObjectGeom.world.nt = s.world.nt) ∧
    s.withObjectGeom.world.geom = geomOf s := by
  by_cases h : geomOf s = s.world.geom
  · rw [withObjectGeom_same h]
    exact ⟨rfl, ⟨rfl, rfl⟩, h.symm⟩
  · rw [withObjectGeom_differs h]
    have hr := rebuildWorld_rebuilt s (geomOf s)
    exact ⟨hr.frame, hr.clock, hr.geom⟩

/-- RUN set over the world of the objects' geometry: what moves besides the world. -/
theorem fuseStarted_frame (s : State) :
    let t := s.withObjectGeom.fuseStarted.okBus
    t = { s with
      bus := .ok 0, fus := { s.fus with run := true, streams := t.fus.streams }, world := t.world
      engines := t.engines, recorder := t.recorder } ∧
    ∀ k : StreamId, t.fus.streams[k] = { s.fus.streams[k] with timerFrom := s.now - s.fus.streams[k].timerFrom } := by
  obtain ⟨hframe, -, -⟩ := withObjectGeom_keeps s
  generalize s.withObjectGeom = w at hframe
  refine ⟨?_, fun k => (turnedTimers_stream w k).trans ?_⟩
  all_goals
    rw [hframe]
    rfl

/-- Settles O29: each register's write by the equation of its case, the rise of RUN over the rebuilt world. -/
theorem fuseControls : Obligations.FuseControls := by
  unfold Obligations.FuseControls
  intro m v s
  dsimp only
  refine ⟨?_, ?_, ?_, ?_, fun n => ⟨?_, ?_⟩, fun k => ⟨?_, ?_, ?_, ?_⟩⟩
  · intro h
    exact congrArg Host.Outcome.next (fuse_refused m h fun hr ⟨hv, hruns⟩ =>
      (fusWrite_ctrl hr v).trans (fusCtrlEffect_refused hv hruns))
  · intro hr hv h
    exact exec_fusCtrl m hr (fusCtrlEffect_same hv h) (by simp)
  · intro hr hv hrun
    obtain ⟨hframe, htimers⟩ := fuseStarted_frame s
    obtain ⟨-, ⟨htick, hnt⟩, hgeom⟩ := withObjectGeom_keeps s
    refine ⟨_, exec_fusCtrl m hr (fusCtrlEffect_rises hv hrun) (by simp), hframe, rfl, rfl, htick, hnt, hgeom,
      fun hg => ?_, fun hg => ?_, htimers⟩
    · rw [withObjectGeom_same hg]
      exact ⟨rfl, rfl, rfl⟩
    · have hb := rebuildWorld_rebuilt s (geomOf s)
      obtain ⟨hcrown, hepoch, hinputs, hfc, hheld⟩ := hb.empty
      rw [withObjectGeom_differs hg]
      exact ⟨hcrown, hepoch, hinputs, hfc, hheld, hb.recorder, hb.noted, hb.pubs, hb.lines⟩
  · intro hr hv hrun hruns
    exact ⟨_, exec_fusCtrl m hr (fusCtrlEffect_falls hv hrun hruns) (by simp), rfl, turnedTimers_stream s⟩
  · intro h
    exact congrArg Host.Outcome.next (fuse_refused m h fun hr h => (fusWrite_csiCtrl hr v n).trans (fusCsiCtrlEffect_refused h))
  · intro hr h
    refine ⟨_, exec_fusCsiCtrl m hr (fusCsiCtrlEffect_accepted hr h) (by simp), rfl, fun j hj => s.modRx_rx_other _ hj,
      fun hv => ?_, fun hv => ?_⟩
    · exact (s.modRx_rx_same n _).trans (Rx.written_enabled hv _)
    · exact (s.modRx_rx_same n _).trans (Rx.written_disabled hv _)
  · intro h
    exact congrArg Host.Outcome.next (fuse_refused m h fun hr ⟨hv, hrec⟩ =>
      (fusWrite_strCtrl hr v k).trans (fusStrCtrlEffect_refused hv hrec))
  · intro hr hv hrec
    exact exec_fusStrCtrl m hr ((fusStrCtrlEffect_accepted hr hrec).trans (if_pos hv)) (by simp)
  · intro hr hv hen hrec
    have heffect := fusStrCtrlEffect_accepted (k := k) (v := v) hr fun _ => hrec
    rw [hv, hen] at heffect
    exact ⟨_, exec_fusStrCtrl m hr heffect (by simp), rfl, s.modStream_otherStreams k _, s.modStream_stream_same k _⟩
  · intro hr hv hen
    have heffect := fusStrCtrlEffect_accepted (k := k) (v := v) hr (by simp [hv])
    rw [hv, hen] at heffect
    exact ⟨_, exec_fusStrCtrl m hr heffect (by simp), rfl, s.modStream_otherStreams k _, s.modStream_stream_same k _⟩

end Sys2Proof.Machine
end

section
/-! PROOF. The packets of an image (O30). -/

namespace Sys2Proof.Machine

/-! ### What a receiver sees (R107, R126, R129) -/

/-- The receiver of stream k is enabled, and neither a reset nor a hedge keeps it from its packets (R129, R608). -/
def Hears (k : StreamId) (s : State) : Prop := s.fus.rx[rxOf k].en = true ∧ s.fuseReset = false ∧ isMember s = false

/-- A receiver after a packet. -/
def Rx.saw (h : HdrEcc) (lanes : LaneState) (x : Rx) : Rx :=
  { x with
    stopState := lanes.stop, clkHs := lanes.clkHs
    ecc1 := if h = .corrected then min 255 (x.ecc1 + 1) else x.ecc1 }

/-- The state after the receiver of stream k has seen a packet. -/
def State.seen (s : State) (k : StreamId) (h : HdrEcc) (lanes : LaneState) : State :=
  { s with fus := { s.fus with
    rx := vupd s.fus.rx (rxOf k) (Rx.saw h lanes), irq := if h = .corrected then s.fus.irq ||| 32 else s.fus.irq } }

section
variable {k : StreamId} {s : State} (h : HdrEcc) (lanes : LaneState)

theorem receives_iff : s.receives k = true ↔ Hears k s ∧ s.fus.streams[k].en = true := by
  simp only [State.receives, Hears, Bool.and_eq_true, Bool.not_eq_true']
  constructor
  · exact fun ⟨⟨⟨hrx, hst⟩, hreset⟩, hmember⟩ => ⟨⟨hrx, hreset, hmember⟩, hst⟩
  · exact fun ⟨⟨hrx, hreset, hmember⟩, hst⟩ => ⟨⟨⟨hrx, hst⟩, hreset⟩, hmember⟩

/-- The guard by which a receiver ignores a packet. -/
theorem deaf_guard_iff : (!s.fus.rx[rxOf k].en || s.fuseReset || isMember s) = true ↔ ¬Hears k s := by
  simp only [Hears, Bool.or_eq_true, Bool.not_eq_true', Classical.not_and_iff_not_or_not, Bool.not_eq_true,
    Bool.not_eq_false, or_assoc]

theorem seePacket_deaf (hs : ¬Hears k s) : seePacket k h lanes s = s := if_pos (deaf_guard_iff.2 hs)

theorem seePacket_hears (hs : Hears k s) : seePacket k h lanes s = s.seen k h lanes := by
  unfold seePacket
  rw [if_neg (mt deaf_guard_iff.1 (not_not_intro hs))]
  cases h <;> rfl

theorem seen_rx : (s.seen k h lanes).fus.rx[rxOf k] = Rx.saw h lanes s.fus.rx[rxOf k] := vupd_same s.fus.rx _ _

theorem seen_hears : Hears k (s.seen k h lanes) ↔ Hears k s := by
  simp only [Hears, seen_rx]
  rfl

theorem seen_streams : (s.seen k h lanes).fus.streams = s.fus.streams := rfl

/-- A receiver that hears one packet hears on. -/
theorem seen_guard (hs : Hears k s) :
    (!(s.seen k h lanes).fus.rx[rxOf k].en || (s.seen k h lanes).fuseReset || isMember (s.seen k h lanes)) = false :=
  Bool.eq_false_iff.2 (mt deaf_guard_iff.1 (not_not_intro ((seen_hears h lanes).2 hs)))

theorem seen_receives : (s.seen k h lanes).receives k = s.receives k := by
  rw [Bool.eq_iff_iff, receives_iff, receives_iff, seen_hears]
  rfl

theorem seePacket_receives : (seePacket k h lanes s).receives k = s.receives k := by
  by_cases hs : Hears k s
  · rw [seePacket_hears h lanes hs, seen_receives]
  · rw [seePacket_deaf h lanes hs]

end

/-- What the receiver of stream k and the stream itself may move at a packet. -/
def Heard (k : StreamId) (h : HdrEcc) (lanes : LaneState) (s t : State) : Prop :=
  t = { s with fus := { s.fus with streams := t.fus.streams, rx := t.fus.rx, irq := t.fus.irq } } ∧ OtherStreams k s t ∧
    Saw k h lanes s t

/-- A packet has been heard, and not as one of another data type. -/
def HeardOnly (k : StreamId) (h : HdrEcc) (lanes : LaneState) (s t : State) : Prop :=
  Heard k h lanes s t ∧ t.fus.rx[rxOf k].dtIgn = s.fus.rx[rxOf k].dtIgn

theorem seen_heardOnly (k : StreamId) (h : HdrEcc) (lanes : LaneState) (s : State) :
    HeardOnly k h lanes s (s.seen k h lanes) := by
  refine ⟨⟨rfl, fun _ _ => rfl, fun j hj => vupd_other s.fus.rx _ hj.symm, ?_, rfl⟩, ?_⟩
  all_goals
    rw [seen_rx]
    rfl

/-- A change of the stream after its packet. -/
theorem seen_modStream_heardOnly (k : StreamId) (h : HdrEcc) (lanes : LaneState) (s : State) (f : Stream → Stream) :
    HeardOnly k h lanes s ((s.seen k h lanes).modStream k f) ∧
      ((s.seen k h lanes).modStream k f).fus.streams[k] = f s.fus.streams[k] := by
  obtain ⟨⟨-, -, hsaw⟩, hign⟩ := seen_heardOnly k h lanes s
  exact ⟨⟨⟨rfl, s.modStream_otherStreams k f, hsaw⟩, hign⟩, s.modStream_stream_same k f⟩

/-- A packet of another data type, counted. -/
theorem seen_ignored_heard (k : StreamId) (h : HdrEcc) (lanes : LaneState) (s : State) :
    let t := (s.seen k h lanes).modRx (rxOf k) fun x => { x with dtIgn := satAdd 255 x.dtIgn 1 }
    Heard k h lanes s t ∧ t.fus.streams[k] = s.fus.streams[k] ∧
      t.fus.rx[rxOf k].dtIgn = min 255 (s.fus.rx[rxOf k].dtIgn + 1) := by
  obtain ⟨⟨-, -, hothers, -, hirq⟩, -⟩ := seen_heardOnly k h lanes s
  refine ⟨⟨rfl, fun _ _ => rfl, fun j hj => (State.modRx_rx_other _ _ hj).trans (hothers j hj), ?_, hirq⟩, rfl, ?_⟩
  all_goals
    rw [State.modRx_rx_same, seen_rx]
    rfl

/-! ### Frame Start and Frame End (R102, R106, R107) -/

/-- A stream whose image a header beyond repair has met (R107). -/
def Stream.broken (x : Stream) : Stream :=
  { x with img := x.img.map fun i => if i.closed then i else { i with corrupt := true } }

/-- A stream whose image has ended (R106). -/
def Stream.ended (x : Stream) : Stream := { x with img := x.img.map fun i => { i with closed := true } }

/-- An image stands between its Frame Start and its Frame End. -/
def Stream.imageOpen (x : Stream) : Bool :=
  match x.img with
  | some i => !i.closed
  | none => false

/-- A stream at a Frame Start with the camera's frame number n at ACLK count `now` (R102, R106). -/
def Stream.begun (now n : Nat) (x : Stream) : Stream :=
  { x with
    fcnt := x.fcnt + 1, gaps := if camGap x.lastCam n then satAdd 65535 x.gaps 1 else x.gaps, lastCam := some n
    img := some { (default : Img) with stamp := now, fcnt := (x.fcnt + 1).toNat, corrupt := x.imageOpen } }

theorem imageOpen_iff (x : Stream) : x.imageOpen = true ↔ ∃ o, x.img = some o ∧ o.closed = false := by
  unfold Stream.imageOpen
  split
  next i hi => simp [hi]
  next hi => simp [hi]

theorem begun_gaps_gap {x : Stream} {n q : Nat} (now : Nat) (hq : x.lastCam = some q) (h0 : n ≠ 0) (h1 : n ≠ 1)
    (hn : n ≠ (q + 1) % 65536) : (x.begun now n).gaps = min 65535 (x.gaps + 1) := by
  simp [Stream.begun, camGap, hq, h0, h1, hn, satAdd]

theorem begun_gaps_none {x : Stream} {n : Nat} (now : Nat) (h : n = 0 ∨ n = 1 ∨ x.lastCam = none) :
    (x.begun now n).gaps = x.gaps := by
  have hgap : camGap x.lastCam n = false := by
    unfold camGap
    split
    next => rfl
    next q hq =>
      rcases h with rfl | rfl | h
      · rfl
      · rfl
      · rw [hq] at h
        cases h
  simp [Stream.begun, hgap]

section
variable {k : StreamId} {s : State} (n : Nat) (h : HdrEcc) (lanes : LaneState)

theorem csiFrameStartEffect_silent (hs : s.receives k = false) :
    csiFrameStartEffect k n h lanes s = seePacket k h lanes s := by
  simp [csiFrameStartEffect, seePacket_receives, hs]

theorem csiFrameEndEffect_silent (hs : s.receives k = false) :
    csiFrameEndEffect k h lanes s = seePacket k h lanes s := by
  simp [csiFrameEndEffect, seePacket_receives, hs]

theorem seePacket_receiving (hs : s.receives k = true) : seePacket k h lanes s = s.seen k h lanes :=
  seePacket_hears h lanes (receives_iff.1 hs).1

theorem csiFrameStartEffect_bad (hs : s.receives k = true) :
    csiFrameStartEffect k n .bad lanes s = (s.seen k .bad lanes).modStream k Stream.broken := by
  simp only [csiFrameStartEffect, seePacket_receiving _ lanes hs, seen_receives, hs]
  rfl

theorem csiFrameEndEffect_bad (hs : s.receives k = true) :
    csiFrameEndEffect k .bad lanes s = (s.seen k .bad lanes).modStream k Stream.broken := by
  simp only [csiFrameEndEffect, seePacket_receiving _ lanes hs, seen_receives, hs]
  rfl

variable {h}

theorem csiFrameStartEffect_begins (hs : s.receives k = true) (hh : h ≠ .bad) :
    csiFrameStartEffect k n h lanes s = (s.seen k h lanes).modStream k (Stream.begun s.now n) := by
  simp only [csiFrameStartEffect, seePacket_receiving _ lanes hs, seen_receives, hs, hh]
  rfl

theorem csiFrameEndEffect_ends (hs : s.receives k = true) (hh : h ≠ .bad) :
    csiFrameEndEffect k h lanes s = (s.seen k h lanes).modStream k Stream.ended := by
  simp only [csiFrameEndEffect, seePacket_receiving _ lanes hs, seen_receives, hs, hh]
  rfl

end

/-! ### Long packets (R101, R106, R107) -/

section
variable {k : StreamId} {s : State} {p : CsiPacket}

theorem csiLongPacketEffect_deaf (hs : ¬Hears k s) : csiLongPacketEffect k p s = s := by
  simp only [csiLongPacketEffect, seePacket_deaf _ _ hs]
  exact if_pos (deaf_guard_iff.2 hs)

theorem csiLongPacketEffect_bad (hs : s.receives k = true) (hp : p.hdr = .bad) :
    csiLongPacketEffect k p s = (s.seen k .bad p.lanes).modStream k Stream.broken := by
  have hk := (receives_iff.1 hs).1
  simp only [csiLongPacketEffect, seePacket_hears _ _ hk, seen_guard _ _ hk, seen_receives, hp, hs]
  rfl

theorem csiLongPacketEffect_ignored (hs : Hears k s) (hp : p.hdr ≠ .bad) (ht : dtTaken s.fus.streams[k] p.dt = false) :
    csiLongPacketEffect k p s =
      (s.seen k p.hdr p.lanes).modRx (rxOf k) fun x => { x with dtIgn := satAdd 255 x.dtIgn 1 } := by
  simp only [csiLongPacketEffect, seePacket_hears _ _ hs, seen_guard _ _ hs, seen_streams, hp, ht]
  rfl

theorem csiLongPacketEffect_takes {i : Img} {r : CamRec} (hs : s.receives k = true) (hp : p.hdr ≠ .bad)
    (ht : dtTaken s.fus.streams[k] p.dt = true) (hi : s.fus.streams[k].img = some i) (hc : i.closed = false)
    (hr : s.fus.streams[k].rec_ = some r) :
    csiLongPacketEffect k p s =
      (s.seen k p.hdr p.lanes).modStream k fun x => { x with img := some (takePacket r p i) } := by
  have hk := (receives_iff.1 hs).1
  simp only [csiLongPacketEffect, seePacket_hears _ _ hk, seen_guard _ _ hk, seen_streams, seen_receives, hp, ht, hi, hr, hs, hc]
  rfl

end

theorem dtTaken_depth {x : Stream} {dt : Nat} (h : dt = 0x2E) : dtTaken x dt = true := by simp [dtTaken, h]

theorem dtTaken_embedded {x : Stream} {dt : Nat} (h : dt = 0x12) : dtTaken x dt = true := by simp [dtTaken, h]

theorem dtTaken_conf {x : Stream} {r : CamRec} {dt : Nat} (hr : x.rec_ = some r) (h : r.dtConf ≠ 0) (hd : dt = r.dtConf) :
    dtTaken x dt = true := by
  simp [dtTaken, hr, h, hd]

theorem dtTaken_other {x : Stream} {dt : Nat} (hd : dt ≠ 0x2E) (he : dt ≠ 0x12)
    (hc : ∀ r, x.rec_ = some r → r.dtConf = 0 ∨ dt ≠ r.dtConf) : dtTaken x dt = false := by
  cases hr : x.rec_ with
  | none => simp [dtTaken, hr, hd, he]
  | some r =>
    have hconf : (r.dtConf != 0 && dt == r.dtConf) = false := by
      rcases hc r hr with h | h <;> simp [h]
    simp [dtTaken, hr, hd, he, hconf]

section
variable {r : CamRec} {p : CsiPacket} {i : Img}

theorem takePacket_depth (hd : p.dt = 0x2E) (hcrc : p.crcOk = true) (hov : p.overrun = false) (hf : i.formatBad = false)
    (hl : p.payload.length = 2 * r.width) (hconf : r.dtConf = 0) :
    takePacket r p i = { i with depth := i.depth ++ [(List.range r.width).map fun j => u p.payload (2 * j) 2] } := by
  simp [takePacket, hd, hcrc, hov, hf, hl, hconf]

theorem takePacket_conf (hd : p.dt ≠ 0x2E) (he : p.dt ≠ 0x12) (hcrc : p.crcOk = true) (hov : p.overrun = false)
    (hf : i.formatBad = false) (hl : p.payload.length = r.width) (hn : i.conf.length + 1 = i.depth.length) :
    takePacket r p i = { i with conf := i.conf ++ [p.payload.map (·.toNat)] } := by
  simp [takePacket, hd, he, hcrc, hov, hf, hl, hn]

theorem takePacket_embedded (he : p.dt = 0x12) :
    takePacket r p i = { i with
      corrupt := i.corrupt || !p.crcOk, overrun := i.overrun || p.overrun
      embedded := i.embedded ++ [(i.depth.isEmpty, p.crcOk, p.payload)] } := by
  simp [takePacket, he]

theorem takePacket_corrupt (hd : p.dt = 0x2E) (hcrc : p.crcOk = false) : (takePacket r p i).corrupt = true := by
  simp [takePacket, hd, hcrc]

/-- A long packet of a stream's own data type goes into its open image. -/
theorem csiLongPacket_taken {k : StreamId} {s : State} (lanes : LaneState) (hs : s.receives k = true) (hp : p.hdr ≠ .bad)
    (ht : dtTaken s.fus.streams[k] p.dt = true) (hi : s.fus.streams[k].img = some i) (hc : i.closed = false)
    (hr : s.fus.streams[k].rec_ = some r) :
    Completes (.csiLongPacket k { p with lanes := lanes }) s fun t =>
      HeardOnly k p.hdr lanes s t ∧ t.fus.streams[k] = { s.fus.streams[k] with img := some (takePacket r p i) } :=
  ⟨_, congrArg Host.Outcome.next (csiLongPacketEffect_takes (p := { p with lanes := lanes }) hs hp ht hi hc hr),
    seen_modStream_heardOnly k p.hdr lanes s _⟩

end

/-! ### The obligation -/

section
variable {k : StreamId} (lanes : LaneState) {s : State}

/-- Packets that the receiver does not hear. -/
theorem packets_unheard (hs : ¬Hears k s) :
    (∀ n h, ChangesNothing (.csiFrameStart k ⟨n, h, lanes⟩) s) ∧ (∀ h, ChangesNothing (.csiFrameEnd ⟨k, h, lanes⟩) s) ∧
      ∀ p : CsiPacket, ChangesNothing (.csiLongPacket k { p with lanes := lanes }) s := by
  have hr : s.receives k = false := Bool.eq_false_iff.2 fun h => hs (receives_iff.1 h).1
  refine ⟨fun n h => ?_, fun h => ?_, fun p => ?_⟩
  · exact congrArg Host.Outcome.next ((csiFrameStartEffect_silent n h lanes hr).trans (seePacket_deaf h lanes hs))
  · exact congrArg Host.Outcome.next ((csiFrameEndEffect_silent h lanes hr).trans (seePacket_deaf h lanes hs))
  · exact congrArg Host.Outcome.next (csiLongPacketEffect_deaf hs)

/-- Frame packets of a stream that is not enabled, at a receiver that hears them. -/
theorem framePackets_notEnabled (hs : Hears k s) (hen : s.fus.streams[k].en = false) (h : HdrEcc) :
    (∀ n, exec (.csiFrameStart k ⟨n, h, lanes⟩) s = .next (s.seen k h lanes)) ∧
      exec (.csiFrameEnd ⟨k, h, lanes⟩) s = .next (s.seen k h lanes) := by
  have hr : s.receives k = false := Bool.eq_false_iff.2 fun h =>
    Bool.false_ne_true (hen.symm.trans (receives_iff.1 h).2)
  have hseen := seePacket_hears h lanes hs
  exact ⟨fun n => congrArg Host.Outcome.next ((csiFrameStartEffect_silent n h lanes hr).trans hseen),
    congrArg Host.Outcome.next ((csiFrameEndEffect_silent h lanes hr).trans hseen)⟩

/-- A packet whose header is beyond repair makes the open image CORRUPT, whatever the packet is. -/
theorem packets_bad (hs : s.receives k = true) :
    let t := (s.seen k .bad lanes).modStream k Stream.broken
    (∀ n, exec (.csiFrameStart k ⟨n, .bad, lanes⟩) s = .next t) ∧ exec (.csiFrameEnd ⟨k, .bad, lanes⟩) s = .next t ∧
      ∀ p : CsiPacket, p.hdr = .bad → exec (.csiLongPacket k { p with lanes := lanes }) s = .next t :=
  ⟨fun n => congrArg Host.Outcome.next (csiFrameStartEffect_bad n lanes hs),
    congrArg Host.Outcome.next (csiFrameEndEffect_bad lanes hs),
    fun p hp => congrArg Host.Outcome.next (csiLongPacketEffect_bad (p := { p with lanes := lanes }) hs hp)⟩

end

/-- Settles O30: each packet by the equation of its case; what the receiver sees of it is the same in all. -/
theorem imagesAreBuilt : Obligations.ImagesAreBuilt := by
  unfold Obligations.ImagesAreBuilt
  intro k lanes s x hears heard only broken
  refine ⟨packets_unheard lanes, fun hs p hp hd he hc => ?_, fun hs hen h => ?_, fun hs => ?_⟩
  · exact ⟨_, congrArg Host.Outcome.next
      (csiLongPacketEffect_ignored (p := { p with lanes := lanes }) hs hp (dtTaken_other hd he hc)),
      seen_ignored_heard k p.hdr lanes s⟩
  · obtain ⟨hstart, hend⟩ := framePackets_notEnabled lanes hs hen h
    have hseen := seen_heardOnly k h lanes s
    exact ⟨fun n => ⟨_, hstart n, hseen, rfl⟩, _, hend, hseen, rfl⟩
  · obtain ⟨hstart, hend, hlong⟩ := packets_bad lanes hs
    have hbroken := seen_modStream_heardOnly k .bad lanes s Stream.broken
    refine ⟨fun n => ⟨_, hstart n, hbroken⟩, ⟨_, hend, hbroken⟩, fun p hp => ⟨_, hlong p hp, hbroken⟩, fun h hh => ?_⟩
    refine ⟨fun n => ?_, ?_, fun p i r hp hi hc hr => ?_⟩
    · obtain ⟨honly, hbegun⟩ := seen_modStream_heardOnly k h lanes s (Stream.begun s.now n)
      refine ⟨_, congrArg Host.Outcome.next (csiFrameStartEffect_begins n lanes hs hh), honly, ?_, ?_, ?_, ?_⟩
      all_goals rw [hbegun]
      · rfl
      · exact fun q hq h0 h1 hn => begun_gaps_gap s.now hq h0 h1 hn
      · exact begun_gaps_none s.now
      · exact ⟨_, rfl, rfl, rfl, rfl, rfl, rfl, rfl, imageOpen_iff x⟩
    · exact ⟨_, congrArg Host.Outcome.next (csiFrameEndEffect_ends lanes hs hh), seen_modStream_heardOnly k h lanes s _⟩
    · subst hp
      have htaken := fun ht => csiLongPacket_taken (p := p) lanes hs hh ht hi hc hr
      refine ⟨fun hd hcrc hov hf hl hconf => ?_, fun hconf hdt hd he hcrc hov hf hl hn => ?_, fun he => ?_, fun hcrc hd => ?_⟩
      · rw [← takePacket_depth hd hcrc hov hf hl hconf]
        exact htaken (dtTaken_depth hd)
      · rw [← takePacket_conf (r := r) hd he hcrc hov hf hl hn]
        exact htaken (dtTaken_conf hr hconf hdt)
      · rw [← takePacket_embedded (r := r) he]
        exact htaken (dtTaken_embedded he)
      · obtain ⟨t, hexec, honly, ht⟩ := htaken (dtTaken_depth hd)
        exact ⟨t, hexec, honly, _, ht, takePacket_corrupt hd hcrc⟩

end Sys2Proof.Machine
end

section
/-! PROOF. The counters and the banks of an engine, the credit windows (O15). -/

namespace Sys2Proof.Machine

/-! ### Corrected errors and the clipping pass (R347-R349, R366) -/

theorem eccWritebackEffect_counts {n : EngId} {s : State} (hr : s.retired n = false) (hp : s.boot.phase = .on) (src : Fin 4)
    {w : Nat} (hw : w < 2 ^ 19) :
    eccWritebackEffect n src w s =
      s.modEng n fun e => { e with eccCe := min 65535 (e.eccCe + 1), eccSrc := src.val, eccAddr := w } := by
  simp only [eccWritebackEffect, hr, hp, Nat.mod_eq_of_lt hw]
  rfl

/-- An engine after a region of its clipping pass that reads back sound, at a count of rotation steps. -/
def Engine.clipped (n : EngId) (steps : Nat) (e : Engine) : Engine :=
  let e := { e with core := { e.core with saveBuf := e.bytesAt n (256 * e.clipRegion) 256 } }
  if e.clipRegion = 16383 then { e with clipRegion := 0, clipPasses := (e.clipPasses + 1) % 65536, clipStep := steps }
  else { e with clipRegion := e.clipRegion + 1 }

theorem clipRegionEffect_sound {n : EngId} {bad : List (Bool × Fin 32 × BitVec 72)} {s : State} (hr : clipRuns s n = true)
    (hb : clipMismatch bad = false) : clipRegionEffect n bad s = s.modEng n (Engine.clipped n s.roles.steps) := by
  simp only [clipRegionEffect, hr, hb]
  rfl

theorem Engine.clipped_frame (n : EngId) (steps : Nat) (e : Engine) :
    e.clipped n steps = { e with
      core := { e.core with saveBuf := e.bytesAt n (256 * e.clipRegion) 256 }
      clipRegion := (e.clipped n steps).clipRegion, clipPasses := (e.clipped n steps).clipPasses
      clipStep := (e.clipped n steps).clipStep } := by
  unfold Engine.clipped
  dsimp only
  split <;> rfl

theorem Engine.clipped_next {e : Engine} (h : e.clipRegion ≠ 16383) (n : EngId) (steps : Nat) :
    (e.clipped n steps).clipRegion = e.clipRegion + 1 ∧ (e.clipped n steps).clipPasses = e.clipPasses := by
  simp [Engine.clipped, h]

theorem Engine.clipped_last {e : Engine} (h : e.clipRegion = 16383) (n : EngId) (steps : Nat) :
    (e.clipped n steps).clipRegion = 0 ∧ (e.clipped n steps).clipPasses = (e.clipPasses + 1) % 65536 := by
  simp [Engine.clipped, h]

/-- Two changes of an engine that agree on it as it is. -/
theorem State.modEng_congr {s : State} {n : EngId} {f g : Engine → Engine} (h : f (s.eng n) = g (s.eng n)) :
    s.modEng n f = s.modEng n g := by
  unfold State.modEng vupd
  rw [show f s.engines[n] = g s.engines[n] from h]

/-! ### Ownership of the banks (R340-R342, R368) -/

theorem State.modEng_otherEngines (s : State) (n : EngId) (f : Engine → Engine) : OtherEngines n s (s.modEng n f) :=
  fun _ hk => s.modEng_eng_other f hk.symm

/-- A bank of one engine changed. -/
def State.modBank (s : State) (n : EngId) (b : BankId) (f : Bank → Bank) : State :=
  s.modEng n fun e => { e with banks := vupd e.banks b f }

/-- Bank b of engine n alone has moved, with the bus's answer. -/
def BankMoved (n : EngId) (b : BankId) (answer : BusReply) (s t : State) (k : Bank) : Prop :=
  t = { s with bus := answer, engines := t.engines } ∧ OtherEngines n s t ∧
    t.eng n = { s.eng n with banks := (t.eng n).banks } ∧ (t.eng n).banks[b] = k ∧
    ∀ j : BankId, j ≠ b → (t.eng n).banks[j] = (s.eng n).banks[j]

theorem modBank_moved (s : State) (n : EngId) (b : BankId) (f : Bank → Bank) (answer : BusReply) :
    BankMoved n b answer s ((s.modBank n b f).reply answer) (f (s.eng n).banks[b]) := by
  have heng : ((s.modBank n b f).reply answer).eng n = { s.eng n with banks := vupd (s.eng n).banks b f } :=
    s.modEng_eng_same n _
  refine ⟨rfl, s.modEng_otherEngines n _, ?_, ?_, fun j hj => ?_⟩
  · rw [heng]
  · rw [heng]
    exact vupd_same _ b f
  · rw [heng]
    exact vupd_other _ f hj.symm

/-- The engine serves: a working or the coppice engine, which needs its banks while a context runs (R342). -/
def State.serving (s : State) (n : EngId) : Bool := s.working n || s.roles.coppice == some n

theorem serving_iff {s : State} {n : EngId} : s.serving n = true ↔ s.working n = true ∨ s.roles.coppice = some n := by
  simp [State.serving]

/-- The masters that may write the owner of a bank: AON, and the owner that the writes so far leave. -/
theorem mayWriteOwner_iff {m : Master} {n : EngId} {k : Bank} :
    (m == .aon || ownerCode n m == some k.left) = true ↔
      m = .aon ∨ (m = .engine n ∧ k.left = 0) ∨ ∃ h, m = .host h ∧ k.left = 1 := by
  cases m with
  | engine j =>
    by_cases hj : j = n
    · simp [ownerCode, hj, eq_comm (b := k.left)]
    · simp [ownerCode, hj]
  | host h => simp [ownerCode, eq_comm (b := k.left)]
  | aon => simp
  | _ => simp [ownerCode]

/-- An owner write is refused: by an engine that answers nothing, from a master that may not write, or where it would take the
bank from a serving engine while a context runs. -/
def OwnerWriteRefused (m : Master) (n : EngId) (k : Bank) (o : BitVec 2) (s : State) : Prop :=
  ¬(s.retired n = false ∧ s.inReset (engDomain n) = false) ∨
    ¬(m = .aon ∨ (m = .engine n ∧ k.left = 0) ∨ ∃ h, m = .host h ∧ k.left = 1) ∨
    (s.anyRuns = true ∧ (s.working n = true ∨ s.roles.coppice = some n) ∧ o ≠ k.left)

theorem ownerWrite_guard_iff {m : Master} {n : EngId} {k : Bank} {o : BitVec 2} {s : State} :
    (s.retired n || s.inReset (engDomain n) || !(m == .aon || ownerCode n m == some k.left) ||
      (s.anyRuns && s.serving n && o != k.left)) = true ↔ OwnerWriteRefused m n k o s := by
  unfold OwnerWriteRefused
  rw [← mayWriteOwner_iff, ← serving_iff, Bool.or_eq_true, Bool.or_eq_true, Bool.or_eq_true, Bool.and_eq_true, Bool.and_eq_true,
    Bool.not_eq_true', Bool.not_eq_true, bne_iff_ne, Classical.not_and_iff_not_or_not, Bool.not_eq_false, Bool.not_eq_false,
    and_assoc, or_assoc]

section
variable {m : Master} {n : EngId} {b : BankId} {v : Word} {s : State}

theorem ownerWriteEffect_refused (h : OwnerWriteRefused m n (s.eng n).banks[b] (v.setWidth 2) s) :
    ownerWriteEffect m n b v s = s.busErr := if_pos (ownerWrite_guard_iff.2 h)

theorem ownerWriteEffect_queued (h : ¬OwnerWriteRefused m n (s.eng n).banks[b] (v.setWidth 2) s) :
    ownerWriteEffect m n b v s =
      (s.modBank n b fun k => { k with pending := k.pending ++ [v.setWidth 2] }).reply .stalled :=
  if_neg (mt ownerWrite_guard_iff.1 h)

theorem ownerWriteEffect_reply (m : Master) (n : EngId) (b : BankId) (v : Word) (s : State) :
    ReplyBlind (ownerWriteEffect m n b v) s := by
  intro r
  unfold ownerWriteEffect
  exact apply_ite (fun t => t) _ _ _

theorem scratchpadOwnerWrite_refused (h : OwnerWriteRefused m n (s.eng n).banks[b] (v.setWidth 2) s) :
    BusErrorBy m (.scratchpadOwnerWrite m n b v) s :=
  congrArg Host.Outcome.next (busStop_refused m (ownerWriteEffect_reply m n b v s) (ownerWriteEffect_refused h))

theorem scratchpadOwnerWrite_queued (h : ¬OwnerWriteRefused m n (s.eng n).banks[b] (v.setWidth 2) s) :
    Completes (.scratchpadOwnerWrite m n b v) s fun t => BankMoved n b .stalled s t
      { (s.eng n).banks[b] with pending := (s.eng n).banks[b].pending ++ [v.setWidth 2] } := by
  have heffect := ownerWriteEffect_queued h
  have hcomplete := busStop_completes m (ownerWriteEffect_reply m n b v s) (by simp [heffect, State.reply])
  exact ⟨_, congrArg Host.Outcome.next (hcomplete.trans heffect), modBank_moved s n b _ .stalled⟩

theorem handoverEffect_drains (h : dmaFor (s.eng n) b = true) : handoverEffect n b s = s := by
  unfold handoverEffect
  split
  · rfl
  · simp [h]

/-- The handover of the oldest write takes effect, unless it would take the bank from a serving engine (R342). -/
theorem ownershipHandover_ends {o : BitVec 2} {rest : List (BitVec 2)} (hp : (s.eng n).banks[b].pending = o :: rest)
    (hd : dmaFor (s.eng n) b = false) {taken : Prop} [Decidable taken]
    (ht : taken ↔ s.anyRuns = true ∧ (s.working n = true ∨ s.roles.coppice = some n) ∧ o ≠ (s.eng n).banks[b].owner) :
    Completes (.ownershipHandover n b) s fun t => BankMoved n b (if taken then .error else .ok 0) s t
      { owner := if taken then (s.eng n).banks[b].owner else o, pending := rest } := by
  have hguard : (s.anyRuns && s.serving n && o != (s.eng n).banks[b].owner) = true ↔ taken := by
    rw [ht, ← serving_iff, Bool.and_eq_true, Bool.and_eq_true, bne_iff_ne, and_assoc]
  have heffect : handoverEffect n b s =
      if (s.anyRuns && s.serving n && o != (s.eng n).banks[b].owner) = true then
        (s.modBank n b fun k => { k with pending := rest }).reply .error
      else (s.modBank n b fun _ => { owner := o, pending := rest }).reply (.ok 0) := by
    simp only [handoverEffect, hp, hd]
    rfl
  by_cases h : taken
  · rw [if_pos (hguard.2 h)] at heffect
    rw [if_pos h, if_pos h]
    exact ⟨_, congrArg Host.Outcome.next heffect, modBank_moved s n b _ .error⟩
  · rw [if_neg (mt hguard.1 h)] at heffect
    rw [if_neg h, if_neg h]
    exact ⟨_, congrArg Host.Outcome.next heffect, modBank_moved s n b _ (.ok 0)⟩

end

/-! ### The obligation -/

/-- Settles O15: each command by the equation of its case. -/
theorem engineCountersAndBanks : Obligations.EngineCountersAndBanks := by
  unfold Obligations.EngineCountersAndBanks
  intro n s
  refine ⟨fun hr hp src w hw => ?_, fun hr bad hb => ?_, fun b v m => ⟨?_, ?_, ?_, ?_⟩, fun h => ?_, fun h => ?_⟩
  · exact congrArg Host.Outcome.next (eccWritebackEffect_counts hr hp src hw)
  · refine ⟨_, congrArg Host.Outcome.next (clipRegionEffect_sound hr hb), ?_⟩
    dsimp only
    rw [State.modEng_eng_same]
    exact ⟨State.modEng_congr (Engine.clipped_frame n _ _), fun h => Engine.clipped_next h n _, fun h => Engine.clipped_last h n _⟩
  · exact fun hfree hmay hfrozen => scratchpadOwnerWrite_queued fun h =>
      h.elim (· hfree) fun h => h.elim (· hmay) hfrozen
  · exact scratchpadOwnerWrite_refused
  · exact fun h => congrArg Host.Outcome.next (handoverEffect_drains h)
  · exact fun o rest hp hd => ownershipHandover_ends hp hd Iff.rfl
  · refine ⟨_, congrArg Host.Outcome.next (if_neg (not_not_intro h)), rfl, fun p => ?_⟩
    simp [newWindow]
  · exact congrArg Host.Outcome.next (if_pos h)

end Sys2Proof.Machine
end

section
/-! PROOF. What a rotation step leaves of the tiles, and of what the stop of an engine turns on (R26, R27, R308, R514). -/

namespace Sys2Proof.Machine

/-! ### Tiles told apart by their handles (R44) -/

theorem tile_some {s : State} {k : Nat} {x : Tile} (h : s.tile k = some x) : x ∈ s.tds.tiles ∧ x.handle = k :=
  ⟨List.mem_of_find?_eq_some h, by simpa using List.find?_some h⟩

/-- The tiles have handles of their own. -/
def HandlesApart (s : State) : Prop := (s.tds.tiles.map (·.handle)).Nodup

theorem HandlesApart.eq {s : State} (h : HandlesApart s) {x y : Tile} (hx : x ∈ s.tds.tiles) (hy : y ∈ s.tds.tiles)
    (he : x.handle = y.handle) : x = y := by
  unfold HandlesApart at h
  generalize s.tds.tiles = l at h hx hy
  induction l with
  | nil => cases hx
  | cons z l ih =>
    obtain ⟨hz, hl⟩ := List.nodup_cons.1 h
    rcases List.mem_cons.1 hx with rfl | hxl <;> rcases List.mem_cons.1 hy with rfl | hyl
    · rfl
    · exact (hz (List.mem_map.2 ⟨y, hyl, he.symm⟩)).elim
    · exact (hz (List.mem_map.2 ⟨x, hxl, he⟩)).elim
    · exact ih hl hxl hyl

theorem HandlesApart.tile {s : State} (h : HandlesApart s) {x : Tile} (hx : x ∈ s.tds.tiles) : s.tile x.handle = some x := by
  cases hf : s.tile x.handle with
  | none => simpa using List.find?_eq_none.1 hf x hx
  | some y =>
    obtain ⟨hy, he⟩ := tile_some hf
    rw [h.eq hy hx he]

/-! ### Tiles that go or stay -/

/-- The handle and the station of a tile. -/
def Tile.place (x : Tile) : Nat × Nat := (x.handle, x.station)

/-- Tiles go; those that stay keep their handles, their stations and their order. -/
def TilesThin (s t : State) : Prop := (t.tds.tiles.map Tile.place).Sublist (s.tds.tiles.map Tile.place)

theorem TilesThin.of_tiles {s t : State} (h : t.tds.tiles = s.tds.tiles) : TilesThin s t := by
  unfold TilesThin
  exact h ▸ List.Sublist.refl _

theorem TilesThin.of_tds {s t : State} (h : t.tds = s.tds) : TilesThin s t := .of_tiles (congrArg Tds.tiles h)

theorem TilesThin.refl (s : State) : TilesThin s s := .of_tds rfl

theorem TilesThin.trans {a b c : State} (h : TilesThin a b) (k : TilesThin b c) : TilesThin a c := List.Sublist.trans k h

theorem TilesThin.ite {s t : State} {p : Prop} [Decidable p] (h : TilesThin s t) : TilesThin s (if p then t else s) := by
  split
  · exact h
  · exact .refl s

theorem TilesThin.foldl {β : Type} {f : State → β → State} (h : ∀ s x, TilesThin s (f s x)) (l : List β) (s : State) :
    TilesThin s (l.foldl f s) :=
  foldl_rel TilesThin.refl (fun _ _ _ => TilesThin.trans) h l s

theorem filterMap_places {f : Tile → Option Tile} (h : ∀ x y, f x = some y → y.place = x.place) (l : List Tile) :
    ((l.filterMap f).map Tile.place).Sublist (l.map Tile.place) := by
  induction l with
  | nil => exact .slnil
  | cons x l ih =>
    cases hf : f x with
    | none =>
      rw [List.filterMap_cons_none hf]
      exact ih.cons _
    | some y =>
      rw [List.filterMap_cons_some hf, List.map_cons, List.map_cons, h x y hf]
      exact ih.cons_cons _

theorem TilesThin.handles {s t : State} (h : TilesThin s t) (hs : HandlesApart s) : HandlesApart t := by
  have hfst : ∀ l : List Tile, l.map (·.handle) = (l.map Tile.place).map Prod.fst := fun l => by
    rw [List.map_map]
    rfl
  unfold HandlesApart at hs ⊢
  rw [hfst] at hs ⊢
  exact hs.sublist (h.map Prod.fst)

theorem TilesThin.tile {s t : State} (h : TilesThin s t) (hs : HandlesApart s) {k : Nat} {y : Tile} (hy : t.tile k = some y) :
    ∃ x, s.tile k = some x ∧ x.station = y.station := by
  obtain ⟨hmem, rfl⟩ := tile_some hy
  obtain ⟨x, hx, hplace⟩ := List.mem_map.1 (h.subset (List.mem_map_of_mem hmem))
  obtain ⟨hhandle, hstation⟩ := Prod.mk.inj hplace
  exact ⟨x, hhandle ▸ hs.tile hx, hstation⟩

/-! ### No operation of a release or a demand moves a tile but the end of its frame (R275, R303, R308, R453, R455) -/

theorem Tds.event_tiles (d : Tds) (e : BitVec 6) : (d.event e).tiles = d.tiles := by
  have hready : ∀ (d : Tds) (t : ThreadId), (d.makeReady (eventKey t) t).tiles = d.tiles := fun d t => by
    rw [Tds.makeReady_frame]
  unfold Tds.event
  dsimp only
  split
  · rfl
  · exact foldl_rel (R := fun a b : Tds => b.tiles = a.tiles) (fun _ => rfl) (fun _ _ _ h k => k.trans h) hready _ d

theorem tdsEvent_tiles (s : State) (e : Nat) : (s.tdsEvent e).tds.tiles = s.tds.tiles := by
  refine (Tds.event_tiles _ _).trans ?_
  unfold State.edgeTds
  split <;> rfl

theorem evtPort_tds (s : State) (p : Port) (bits : Nat) : (evtPort s p bits).tds = s.tds := by
  unfold evtPort
  repeat' split
  all_goals simp

theorem mbxWake_thin (s : State) (n : MbxId) : TilesThin s (mbxWake s n) := by
  unfold mbxWake
  split
  · exact .of_tiles (tdsEvent_tiles s _)
  · exact .of_tds (evtPort_tds s _ _)
  · exact .of_tds (evtPort_tds s _ _)
  · exact .of_tiles (tdsEvent_tiles s _)

theorem postResult_thin (s : State) (n : Nat) (r : Bytes) : TilesThin s (postResult s n r) := by
  unfold postResult
  split
  · dsimp only
    split
    · exact .trans (.of_tds rfl) (mbxWake_thin _ _)
    · exact .of_tds rfl
  · exact .refl s

theorem resultEvent_thin (s : State) (c : CtxId) (r : Bytes) : TilesThin s (resultEvent s c r) := by
  have hevents : TilesThin s (evtPort (evtPort (s.tdsEvent (32 + c.val)) .a (2 ^ c.val)) .b (2 ^ c.val)) :=
    .of_tiles (by rw [evtPort_tds, evtPort_tds, tdsEvent_tiles])
  refine .trans ?_ (postResult_thin _ _ _)
  refine .trans ?_ (TilesThin.of_tds (State.modCan_tds _ _ _)).ite
  refine .trans ?_ (TilesThin.of_tds (State.modCan_tds _ _ _)).ite
  refine .trans ?_ (TilesThin.of_tds (State.modSd_tds _ _ _)).ite
  exact hevents.trans (TilesThin.of_tds (State.modSd_tds _ _ _)).ite

theorem endTiles_thin (s : State) (c : CtxId) (frame : Nat) : TilesThin s (endTiles s c frame) := by
  refine filterMap_places (fun x y h => ?_) _
  split at h
  · cases h
    rfl
  · split at h <;> cases h <;> rfl

theorem modCtx_thin (s : State) (c : CtxId) (f : Ctx → Ctx) : TilesThin s (s.modCtx c f) := .of_tds rfl

theorem setSaf_thin (s : State) (f : Saf) : TilesThin s { s with saf := f } := .of_tds rfl

theorem drivePins_thin (s : State) : TilesThin s (drivePins s) := .of_tds (by rw [drivePins_frame])

theorem emcy_thin (s : State) (code b3 data : Nat) : TilesThin s (emcy s code b3 data) := .of_tds (by rw [emcy_frame])

theorem queueDump_frame (s : State) (j : DumpJob) : queueDump s j = { s with dump := (queueDump s j).dump } := by
  unfold queueDump
  dsimp only
  repeat' split
  all_goals rfl

theorem queueDump_thin (s : State) (j : DumpJob) : TilesThin s (queueDump s j) := .of_tds (by rw [queueDump_frame])

theorem putResult_thin (s : State) (c : CtxId) (frame : Nat) (bs : Bytes) : TilesThin s (putResult s c frame bs) := by
  have hput : TilesThin s (storePut s 10 c (frame % cNat s c 0x8A * 4096) bs) := .of_tds (by rw [storePut_frame])
  exact hput.trans (modCtx_thin _ c _)

theorem record_thin (s : State) (tick ty src : Nat) (p : Bytes) : TilesThin s (record s tick ty src p) := by
  have h := record_frame s tick ty src p
  unfold RecordFrame at h
  exact .of_tds (by rw [h])

theorem replayCompare_thin (s : State) (c : CtxId) (frame : Nat) (digest : Bytes) :
    TilesThin s (replayCompare s c frame digest) := by
  unfold replayCompare
  dsimp only
  repeat' split
  all_goals exact .of_tds rfl

theorem pulseSync_thin (s : State) (c : CtxId) : TilesThin s (pulseSync s c) := by
  unfold pulseSync
  split <;> exact .of_tds rfl

theorem pauseCheck_thin (s : State) : TilesThin s (pauseCheck s) := by
  unfold pauseCheck
  dsimp only
  split <;> exact .of_tds rfl

theorem armed_thin (s : State) (c : CtxId) : TilesThin s (armed s c) := (modCtx_thin s c _).trans (drivePins_thin _)

theorem release_thin (s : State) (c : CtxId) (r : FrameRun) (o : RelOut) : TilesThin s (release s c r o) := by
  unfold release
  dsimp only
  refine .trans ?_ (armed_thin _ c).ite
  refine .trans ?_ (pauseCheck_thin _)
  refine .trans ?_ (endTiles_thin _ c _)
  refine .trans ?_ (resultEvent_thin _ c _)
  refine .trans ?_ (pulseSync_thin _ c)
  refine .trans ?_ (replayCompare_thin _ c _ _)
  refine .trans ?_ (record_thin _ _ _ _ _)
  exact (putResult_thin s c _ _).trans (modCtx_thin _ c _)

theorem logPut_thin (s : State) (c : CtxId) (frame seq : Nat) (f : LogEntry → LogEntry) :
    TilesThin s (logPut s c frame seq f) := .of_tiles rfl

theorem discardLogs_thin (s : State) (c : CtxId) (frame : Nat) : TilesThin s (discardLogs s c frame) :=
  TilesThin.foldl (β := Tile) (fun s x => logPut_thin s c frame x.seq _) _ s

theorem releaseInvalid_thin (s : State) (c : CtxId) (status : Nat) : TilesThin s (releaseInvalid s c status) := by
  unfold releaseInvalid
  split
  · exact (discardLogs_thin s c _).trans (release_thin _ c _ _)
  · exact .refl s

theorem demandEmcy_thin (s : State) (c : CtxId) (bit frame : Nat) :
    TilesThin s (if bit = causeDeadline then emcy s 0xFF01 c.val frame
      else if bit = causeHost then emcy s 0xFF02 c.val frame else s) := by
  split
  · exact emcy_thin s _ _ _
  · exact (emcy_thin s _ _ _).ite

theorem demand_thin (s : State) (c : CtxId) (bit : Nat) : TilesThin s (demand s c bit) := by
  unfold demand
  dsimp only
  split
  · exact .refl s
  · split
    · exact modCtx_thin s c _
    · refine .trans ?_ (drivePins_thin _)
      refine .trans ?_ (demandEmcy_thin _ c bit _)
      split
      · exact modCtx_thin s c _
      · exact (modCtx_thin s c _).trans (releaseInvalid_thin _ c _)

theorem partCause_thin (s : State) (bit : Nat) : TilesThin s (partCause s bit) := by
  unfold partCause
  dsimp only
  split
  · exact (setSaf_thin s _).trans (queueDump_thin _ _).ite
  · refine .trans ?_ (drivePins_thin _)
    refine .trans ?_ (emcy_thin _ _ _ _)
    refine .trans ?_ (TilesThin.foldl (fun s c => demand_thin s c causePart) _ _)
    refine .trans ?_ (setSaf_thin _ _)
    exact (setSaf_thin s _).trans (queueDump_thin _ _).ite

end Sys2Proof.Machine
end

section
/-! PROOF. The stop of an engine and the rotation step before it (R27, R329, R514, R519, R522). -/

namespace Sys2Proof.Machine

/-! ### What lets an engine be found stopped, and what leaves that be -/

/-- Engine n can be found faulty for a stop: in service, with no golden frame or start test, and not named in the last 1,000
rotation steps (R329, R464, R519, R522). -/
structure Stoppable (n : EngId) (s : State) : Prop where
  inService : s.retired n = false
  sound : (s.eng n).faulty = false
  noGolden : ∀ x, s.heldTile n = some x → x.station ≠ stGolden
  noStartTest : s.roles.bringIn ≠ some (n, 1)
  unnamed : namedLately s (s.eng n).named = false
  handles : HandlesApart s

/-- Nothing has moved that would keep a stop of engine n from being found as before. -/
structure Spares (n : EngId) (s t : State) : Prop where
  retired : t.roles.retired = s.roles.retired
  bringIn : t.roles.bringIn = s.roles.bringIn ∨ t.roles.bringIn = none
  steps : s.roles.steps ≤ t.roles.steps
  holding : (t.eng n).holding = (s.eng n).holding
  named : (t.eng n).named = (s.eng n).named
  faulty : (t.eng n).faulty = true → (s.eng n).faulty = true
  tiles : TilesThin s t

section
variable {n : EngId}

theorem Spares.refl (s : State) : Spares n s s := ⟨rfl, .inl rfl, Nat.le_refl _, rfl, rfl, id, .refl s⟩

theorem Spares.trans {a b c : State} (h : Spares n a b) (k : Spares n b c) : Spares n a c where
  retired := k.retired.trans h.retired
  bringIn := k.bringIn.elim (fun hk => h.bringIn.imp hk.trans hk.trans) .inr
  steps := Nat.le_trans h.steps k.steps
  holding := k.holding.trans h.holding
  named := k.named.trans h.named
  faulty := h.faulty ∘ k.faulty
  tiles := h.tiles.trans k.tiles

theorem namedLately_false_iff {s : State} {l : List Nat} : namedLately s l = false ↔ ∀ k ∈ l, 1000 + k < s.roles.steps := by
  simp [namedLately]

theorem Spares.stoppable {s t : State} (h : Spares n s t) (hs : Stoppable n s) : Stoppable n t where
  inService := by
    rw [State.retired, h.retired]
    exact hs.inService
  sound := Bool.eq_false_iff.2 fun ht => Bool.false_ne_true (hs.sound.symm.trans (h.faulty ht))
  noGolden := fun y hy => by
    unfold State.heldTile at hy
    rw [h.holding] at hy
    obtain ⟨k, hk, hy⟩ := Option.bind_eq_some_iff.1 hy
    obtain ⟨x, hx, hstation⟩ := h.tiles.tile hs.handles hy
    rw [← hstation]
    exact hs.noGolden x (Option.bind_eq_some_iff.2 ⟨k, hk, hx⟩)
  noStartTest := fun ht => h.bringIn.elim (fun he => hs.noStartTest (he.symm.trans ht)) fun he => by
    rw [he] at ht
    cases ht
  unnamed := by
    rw [namedLately_false_iff, h.named]
    exact fun k hk => Nat.lt_of_lt_of_le (namedLately_false_iff.1 hs.unnamed k hk) h.steps
  handles := h.tiles.handles hs.handles

/-- A change of an engine that leaves its tile, its namings and its soundness. -/
theorem modEng_spares (s : State) (e : EngId) {f : Engine → Engine} (hh : ∀ x, (f x).holding = x.holding)
    (hn : ∀ x, (f x).named = x.named) (hf : ∀ x, (f x).faulty = true → x.faulty = true) : Spares n s (s.modEng e f) := by
  by_cases h : e = n
  · subst h
    refine ⟨rfl, .inl rfl, Nat.le_refl _, ?_, ?_, ?_, .of_tds rfl⟩
    all_goals rw [State.modEng_eng_same]
    · exact hh _
    · exact hn _
    · exact hf _
  · refine ⟨rfl, .inl rfl, Nat.le_refl _, ?_, ?_, ?_, .of_tds rfl⟩
    all_goals rw [State.modEng_eng_other s f h]
    exact id

/-- A change of roles that retires no engine and brings none on. -/
theorem setRoles_spares (s : State) {r : Roles} (hr : r.retired = s.roles.retired)
    (hb : r.bringIn = s.roles.bringIn ∨ r.bringIn = none) (hs : s.roles.steps ≤ r.steps) : Spares n s { s with roles := r } :=
  ⟨hr, hb, hs, rfl, rfl, id, .of_tds rfl⟩

/-! ### The rotation step (R26, R27, R33) -/

theorem bringInto_spares (s : State) (e : EngId) : Spares n s (bringInto s e) :=
  (modEng_spares s e (f := fun x => { x with st := .idle, idleFrom := s.now, banks := x.banks.map fun _ => default })
    (fun _ => rfl) (fun _ => rfl) fun _ => id).trans (setRoles_spares _ rfl (.inr rfl) (Nat.le_refl _))

theorem move_spares (s : State) : Spares n s (stepRoles.move s) := by
  unfold stepRoles.move stepRoles.pick
  dsimp only
  split
  · exact .refl s
  · split
    · exact .refl s
    · refine Spares.trans (modEng_spares s _ ?_ ?_ ?_) (setRoles_spares _ rfl (.inl rfl) (Nat.le_refl _))
      · exact fun _ => rfl
      · exact fun _ => rfl
      · exact fun _ h => absurd h Bool.false_ne_true

theorem stepRoles_spares (s : State) : Spares n s (stepRoles s) := by
  have hends : Spares n s { s with roles := { s.roles with standFor := none, noStand := false, heir := none } } :=
    setRoles_spares s rfl (.inl rfl) (Nat.le_refl _)
  refine hends.trans ?_
  unfold stepRoles
  dsimp only
  split
  · split
    · exact (bringInto_spares _ _).trans (setRoles_spares _ rfl (.inl rfl) (Nat.le_refl _))
    · exact (bringInto_spares _ _).trans (move_spares _)
  · split
    · exact .refl _
    · exact move_spares _
  · exact move_spares _

theorem DemandMoves.spares {s t : State} (h : DemandMoves s t) (ht : TilesThin s t) : Spares n s t := by
  obtain ⟨h, -⟩ := h
  have hroles : t.roles = s.roles := by rw [h]
  have heng : t.eng n = s.eng n := by
    rw [h]
    rfl
  exact ⟨by rw [hroles], .inl (by rw [hroles]), Nat.le_of_eq (by rw [hroles]), by rw [heng],
    by rw [heng], by rw [heng]; exact id, ht⟩

theorem stepped_spares (s : State) : Spares n s (stepped s) := by
  have hcount : Spares n (stepRoles s) (stepped s) :=
    ⟨rfl, .inl rfl, Nat.le_succ _, rfl, rfl, id, .of_tds rfl⟩
  exact (stepRoles_spares s).trans hcount

theorem rotationStep_spares (s : State) : Spares n s (rotationStep s) := by
  refine (stepped_spares s).trans ((rotationStep_demandKeeps 0 s).frame.spares ?_)
  unfold rotationStep
  exact (partCause_thin (stepped s) 11).ite

end

/-- A rotation step counts itself, and moves no record and no tag. -/
theorem rotationStep_counts (s : State) :
    (rotationStep s).roles.steps = s.roles.steps + 1 ∧ (rotationStep s).roles.lastStepAt = some s.now ∧
      (rotationStep s).faults = s.faults := by
  obtain ⟨⟨h, -⟩, -⟩ := rotationStep_demandKeeps 0 s
  obtain ⟨hsteps, hlast⟩ := stepped_roles s
  refine ⟨?_, ?_, ?_⟩
  all_goals rw [h]
  · exact hsteps
  · exact hlast
  · rw [stepped_frame]

end Sys2Proof.Machine
end

section
/-! PROOF. An engine found faulty: its record, its tiles, its stand-in, its place in the queue (R30-R32, R374, R508, R515, R519). -/

namespace Sys2Proof.Machine

/-! ### The finding and its record (R508, R515) -/

theorem markFaulted_faults (l : List CtxId) (s : State) :
    (l.foldl (fun t c => t.modRun c fun x => { x with faulted := true }) s).faults = s.faults := by
  induction l generalizing s with
  | nil => rfl
  | cons c l ih => exact ih _

theorem putRecord_faults (s : State) (r : FaultRec) :
    (putRecord s r).faults = { s.faults with
      ring := s.faults.ring.set (s.faults.head % 256) (some r) (Nat.mod_lt _ (by decide))
      nextSeq := (s.faults.nextSeq + 1) % 2 ^ 32, head := (s.faults.head + 1) % 256, newRec := true } := by
  unfold putRecord
  dsimp only
  split
  · exact markFaulted_faults _ _
  · split <;> rfl

theorem sendTo_faults (s : State) (dest ty ctx : Nat) (bs : Bytes) : (sendTo s dest ty ctx bs).faults = s.faults := by
  have h := sendTo_frame s dest ty ctx bs
  unfold LinkFrame at h
  rw [h]

/-- A record of this edge put into the ring, and sent to the top root by a member (R600). -/
theorem putRecord_records (s : State) (r : FaultRec) (hr : r.stamp = s.now) :
    let t := if isMember (putRecord s r) then sendTo (putRecord s r) 0 tyFault 0xFF r.bytes else putRecord s r
    Recorded s t r.fcode r.domain r.engA r.detail ∧ t.faults.gen = s.faults.gen := by
  intro t
  have hfaults : t.faults = (putRecord s r).faults := by
    unfold t
    split
    · exact sendTo_faults _ _ _ _ _
    · rfl
  rw [putRecord_faults] at hfaults
  refine ⟨⟨r, ?_, rfl, rfl, rfl, rfl, hr⟩, ?_⟩
  all_goals rw [hfaults]
  exact Vector.getElem_set_self _

/-- A finding of this chip puts its record into the slot that the head names, and moves no tag. -/
theorem fault_records (s : State) (ctx dom fcode engA engB action detail : Nat) :
    Recorded s (fault s ctx dom fcode engA engB action detail) fcode dom engA detail ∧
      (fault s ctx dom fcode engA engB action detail).faults.gen = s.faults.gen := by
  have hown : bit (s.chip != s.chip && decide (dom < 18)) = 0 := by simp [bit]
  unfold fault faultAt
  simp only [hown]
  exact putRecord_records s _ rfl

/-- What finding an engine faulty and recording it moves. -/
structure FoundFaulty (n : EngId) (fcode detail : Nat) (s t : State) : Prop where
  frame : t = { s with faults := t.faults, dump := t.dump, ctxs := t.ctxs, links := t.links, hedge := t.hedge }
  tag : t.faults.gen[engDomain n] = (s.faults.gen[engDomain n] + 1) % 16
  recorded : Recorded s t fcode n.val n.val detail

theorem engDomain_ne_store (n : EngId) : engDomain n ≠ domStore :=
  Fin.ne_of_val_ne (Nat.ne_of_lt (Nat.lt_trans n.isLt (by decide)))

theorem findFaulty_engine (s : State) (n : EngId) (fcode : Nat) :
    ∃ fences resetDue dump, findFaulty s (engDomain n) fcode = { s with
      faults := { s.faults with gen := vupd s.faults.gen (engDomain n) fun g => (g + 1) % 16, fences := fences, resetDue := resetDue }
      dump := dump } := by
  unfold findFaulty
  dsimp only
  rw [if_neg (engDomain_ne_store n), queueDump_frame]
  exact ⟨_, _, _, rfl⟩

theorem fault_foundFaulty (s : State) (n : EngId) (ctx fcode action detail : Nat) :
    FoundFaulty n fcode detail s (fault (findFaulty s (engDomain n) fcode) ctx n.val fcode n.val 0x1F action detail) := by
  obtain ⟨fences, resetDue, dump, h⟩ := findFaulty_engine s n fcode
  have hframe := fault_frame (findFaulty s (engDomain n) fcode) ctx n.val fcode n.val 0x1F action detail
  obtain ⟨hrec, hgen⟩ := fault_records (findFaulty s (engDomain n) fcode) ctx n.val fcode n.val 0x1F action detail
  unfold FaultFrame at hframe
  refine ⟨?_, ?_, ?_⟩
  · rw [hframe, h]
  · rw [hgen, h]
    exact vupd_same _ _ _
  · rw [h] at hrec ⊢
    exact hrec

/-! ### The tiles at the fence (R30, R374) -/

/-- What becomes of a tile at the fence of engine n. -/
def fenced (s : State) (n : EngId) (x : Tile) : Option Tile :=
  if !s.lostWith n x then some x
  else if x.discard || x.station == stLoad || x.station == stGolden then none
  else some { x with status := .fenced n, redisp := true, notOn := some n, defect := default }

/-- A note in a commit log moves the dispatcher's logs alone. -/
def LogsMove (s t : State) : Prop := t = { s with tds := { s.tds with logs := t.tds.logs } }

theorem LogsMove.trans {a b c : State} (h : LogsMove a b) (k : LogsMove b c) : LogsMove a c := by
  unfold LogsMove at *
  rw [k, h]

theorem uncommitLog_logsMove (s : State) (x : Tile) : LogsMove s (uncommitLog s x) := by
  unfold uncommitLog
  split <;> rfl

theorem fenceTiles_logsMove (s : State) (n : EngId) :
    LogsMove { s with tds := { s.tds with tiles := s.tds.tiles.filterMap (fenced s n) } } (fenceTiles s n) :=
  foldl_rel (R := LogsMove) (fun _ => rfl) (fun _ _ _ => LogsMove.trans) uncommitLog_logsMove _ _

theorem fenced_lost {s : State} {n : EngId} {x : Tile} (hl : s.lostWith n x = true) (hd : x.discard = false)
    (h14 : x.station ≠ stLoad) (h15 : x.station ≠ stGolden) :
    fenced s n x = some { x with status := .fenced n, redisp := true, notOn := some n, defect := default } := by
  simp [fenced, hl, hd, h14, h15]

theorem fenced_place {s : State} {n : EngId} (x y : Tile) (h : fenced s n x = some y) : y.place = x.place := by
  unfold fenced at h
  split at h
  · cases h
    rfl
  · split at h
    · cases h
    · cases h
      rfl

/-! ### The stand-in (R30-R32, R373) -/

/-- What the substitution for engine n moves: the coppice role's duty, and the coppice engine with its golden frame. -/
structure Substitutes (n : EngId) (s t : State) : Prop where
  frame : t = { s with engines := t.engines, tds := t.tds, roles := t.roles }
  roles : t.roles = { s.roles with standFor := t.roles.standFor, noStand := t.roles.noStand, gold := t.roles.gold }
  others : ∀ k, k = n ∨ s.roles.coppice ≠ some k → t.eng k = s.eng k
  tiles : HandlesApart s → ∀ x ∈ s.tds.tiles, x.station ≠ stGolden → x ∈ t.tds.tiles

theorem setRoles_substitutes (n : EngId) (s : State) (standFor : Option EngId) (noStand : Bool) :
    Substitutes n s { s with roles := { s.roles with standFor := standFor, noStand := noStand } } :=
  ⟨rfl, rfl, fun _ _ => rfl, fun _ _ hx _ => hx⟩

theorem Substitutes.refl (n : EngId) (s : State) : Substitutes n s s := ⟨rfl, rfl, fun _ _ => rfl, fun _ _ hx _ => hx⟩

theorem abortGolden_substitutes {n k : EngId} {s : State} (hk : s.roles.coppice = some k) (hn : s.roles.coppice ≠ some n) :
    Substitutes n s (abortGolden s k) := by
  unfold abortGolden
  split
  next g hg =>
    split
    next hgold =>
      refine ⟨rfl, rfl, fun j hj => State.modEng_eng_other _ _ ?_, fun hs x hx hx15 => List.mem_filter.2 ⟨hx, ?_⟩⟩
      · rintro rfl
        exact hj.elim (fun h => hn (h ▸ hk)) fun h => h hk
      · obtain ⟨h, -, hh⟩ := Option.bind_eq_some_iff.1 hg
        exact bne_iff_ne.2 fun he => hx15 (hs.eq hx (tile_some hh).1 he ▸ hgold)
    next => exact .refl n s
  next => exact .refl n s

theorem substitute_substitutes (n : EngId) (s : State) : Substitutes n s (substitute s n) := by
  unfold substitute
  dsimp only
  split
  · exact setRoles_substitutes n s none _
  next hn =>
    split
    · split
      next k hk =>
        split
        · obtain ⟨hframe, hroles, hothers, htiles⟩ :=
            abortGolden_substitutes (s := { s with roles := { s.roles with standFor := some n } }) (n := n) hk hn
          exact ⟨hframe, hroles, hothers, htiles⟩
        · split
          · split
            · exact setRoles_substitutes n s (some n) _
            · exact .refl n s
          · exact .refl n s
      next => exact .refl n s
    · exact .refl n s

/-! ### The queue of the coppice role (R519) -/

theorem steerTo_frame (s : State) (n : EngId) (first : Bool) :
    steerTo s n first = { s with roles := { s.roles with steer := (steerTo s n first).roles.steer } } := rfl

theorem mem_steerTo (s : State) (n : EngId) (first : Bool) : n ∈ (steerTo s n first).roles.steer := by
  unfold steerTo
  dsimp only
  split
  next h => simpa using h
  next => split <;> simp

/-! ### The engine after its record (R30, R354, R374, R519, R522) -/

/-- An engine found stopped at an ACLK count and a count of rotation steps. -/
def Engine.stopped (now steps : Nat) (e : Engine) : Engine :=
  { e with
    st := .stopped, holding := none, waiting := false, faulty := true, foundAt := some now, named := (steps :: e.named).take 2
    idleFrom := now, tileStation := 0, queued := 0, dma := [], goldLane := none }

/-- An engine stopped and marked faulty. -/
def State.stop (s : State) (n : EngId) : State :=
  letGo (s.modEng n fun e => { e with faulty := true, foundAt := some s.now }) n .stopped

/-- Engine n noted, its tiles at the fence, the engine stopped, another in its place where one may stand in, and the engine in the
queue for its lane test. -/
def State.settled (s : State) (n : EngId) : State :=
  let s := (fenceTiles (noteNamed s n false) n).stop n
  let s := steerTo (substitute s n) n true
  { s with roles := { s.roles with laneTest := if s.roles.laneTest.contains n then s.roles.laneTest
      else s.roles.laneTest ++ [n] } }

theorem noteNamed_eng_same (s : State) (n : EngId) :
    (noteNamed s n false).eng n = { s.eng n with named := (s.roles.steps :: (s.eng n).named).take 2 } := s.modEng_eng_same n _

/-- The engine stopped with its tiles at the fence, before another takes its place. -/
structure Halts (n : EngId) (s t : State) : Prop where
  frame : t = { s with engines := t.engines, wear := t.wear, tds := t.tds }
  self : t.eng n = (s.eng n).stopped s.now s.roles.steps
  others : OtherEngines n s t
  tiles : t.tds.tiles = s.tds.tiles.filterMap (fenced s n)

theorem stop_halts (s : State) (n : EngId) : Halts n s ((fenceTiles (noteNamed s n false) n).stop n) := by
  have h := fenceTiles_logsMove (noteNamed s n false) n
  unfold LogsMove at h
  generalize fenceTiles (noteNamed s n false) n = u at h ⊢
  have heng : ∀ k, u.eng k = (noteNamed s n false).eng k := fun k => by
    rw [h]
    rfl
  have hnow : ∀ f, (u.modEng n f).now = s.now := fun _ => by
    rw [h]
    rfl
  refine ⟨?_, ?_, fun k hk => ?_, ?_⟩
  · rw [h]
    rfl
  · unfold State.stop letGo
    rw [State.modEng_eng_same, State.modEng_eng_same, heng, noteNamed_eng_same, hnow, show u.now = s.now from hnow id]
    rfl
  · unfold State.stop letGo
    rw [State.modEng_eng_other _ _ hk.symm, State.modEng_eng_other _ _ hk.symm, heng]
    exact State.modEng_eng_other _ _ hk.symm
  · show u.tds.tiles = _
    rw [h]
    rfl

/-- What settling engine n moves. -/
structure Settles (n : EngId) (s t : State) : Prop where
  frame : t = { s with engines := t.engines, wear := t.wear, tds := t.tds, roles := t.roles }
  steps : t.roles.steps = s.roles.steps
  lastStep : t.roles.lastStepAt = s.roles.lastStepAt
  steer : n ∈ t.roles.steer
  self : t.eng n = (s.eng n).stopped s.now s.roles.steps
  others : ∀ k, k ≠ n → s.roles.coppice ≠ some k → t.eng k = s.eng k
  fenced : HandlesApart s → ∀ x ∈ s.tds.tiles, s.lostWith n x = true → x.discard = false → x.station ≠ stLoad →
    x.station ≠ stGolden → ∃ y ∈ t.tds.tiles, y.handle = x.handle ∧ y.status = .fenced n ∧ y.redisp = true ∧ y.notOn = some n

theorem settled_settles (s : State) (n : EngId) : Settles n s (s.settled n) := by
  have hhalts := stop_halts s n
  unfold State.settled
  dsimp only
  generalize State.stop _ n = u at hhalts ⊢
  obtain ⟨uframe, uself, uothers, utiles⟩ := hhalts
  obtain ⟨sframe, sroles, sothers, stiles⟩ := substitute_substitutes n u
  have uroles : u.roles = s.roles := by rw [uframe]
  refine ⟨?_, ?_, ?_, mem_steerTo _ n true, ?_, fun k hk hc => ?_, fun hs x hx hl hd h14 h15 => ?_⟩
  · rw [steerTo_frame, sframe, uframe]
  · show (substitute u n).roles.steps = _
    rw [sroles, uroles]
  · show (substitute u n).roles.lastStepAt = _
    rw [sroles, uroles]
  · exact (sothers n (.inl rfl)).trans uself
  · exact (sothers k (.inr (uroles ▸ hc))).trans (uothers k hk)
  · have hy : { x with status := .fenced n, redisp := true, notOn := some n, defect := default } ∈ u.tds.tiles := by
      rw [utiles]
      exact List.mem_filterMap.2 ⟨x, hx, fenced_lost hl hd h14 h15⟩
    have hthin : TilesThin s u := by
      unfold TilesThin
      rw [utiles]
      exact filterMap_places fenced_place _
    exact ⟨_, stiles (hthin.handles hs) _ hy h15, rfl, rfl, rfl, rfl⟩

end Sys2Proof.Machine
end

section
/-! PROOF. A stop outside golden frames and start tests is found and recorded (O16). -/

namespace Sys2Proof.Machine

/-! ### The finding as a whole (R329, R519) -/

/-- Engine n has been found stopped: recorded, settled, its tiles at the fence. -/
structure FoundStopped (n : EngId) (event : Nat) (s t : State) : Prop where
  memory : SameMemory s t
  tag : t.faults.gen[engDomain n] = (s.faults.gen[engDomain n] + 1) % 16
  recorded : Recorded s t 0x0101 n.val n.val event
  steps : t.roles.steps = s.roles.steps
  lastStep : t.roles.lastStepAt = s.roles.lastStepAt
  steer : n ∈ t.roles.steer
  self : t.eng n = (s.eng n).stopped s.now s.roles.steps
  others : ∀ k, k ≠ n → s.roles.coppice ≠ some k → t.eng k = s.eng k
  fenced : HandlesApart s → ∀ x ∈ s.tds.tiles, s.lostWith n x = true → x.discard = false → x.station ≠ stLoad →
    x.station ≠ stGolden → ∃ y ∈ t.tds.tiles, y.handle = x.handle ∧ y.status = .fenced n ∧ y.redisp = true ∧ y.notOn = some n

section
variable {n : EngId} {s : State}

theorem retireReason_none_iff : retireReason s n false = none ↔ namedLately s (s.eng n).named = false := by
  simp [retireReason]

theorem FoundFaulty.settled {u : State} {event : Nat} (h : FoundFaulty n 0x0101 event s u) :
    FoundStopped n event s (u.settled n) := by
  obtain ⟨uframe, utag, urecorded⟩ := h
  obtain ⟨tframe, tsteps, tlast, tsteer, tself, tothers, tfenced⟩ := settled_settles u n
  have tfaults : (u.settled n).faults = u.faults := by rw [tframe]
  have uroles : u.roles = s.roles := by rw [uframe]
  have utiles : u.tds.tiles = s.tds.tiles := by rw [uframe]
  have ueng : ∀ k, u.eng k = s.eng k := fun k => by
    rw [uframe]
    rfl
  have unow : u.now = s.now := by
    rw [uframe]
    rfl
  have ulost : ∀ x, u.lostWith n x = s.lostWith n x := fun x => by
    rw [uframe]
    rfl
  refine ⟨?_, ?_, ?_, ?_, ?_, tsteer, ?_, fun k hk hc => ?_, fun hs x hx hl => ?_⟩
  · unfold SameMemory
    rw [tframe, uframe]
    exact ⟨rfl, rfl, rfl⟩
  · rw [tfaults, utag]
  · obtain ⟨r, hr⟩ := urecorded
    exact ⟨r, by rw [tfaults]; exact hr⟩
  · rw [tsteps, uroles]
  · rw [tlast, uroles]
  · rw [tself, ueng, unow, uroles]
  · rw [tothers k hk (uroles ▸ hc), ueng]
  · exact tfenced (by unfold HandlesApart; rw [utiles]; exact hs) x (utiles ▸ hx) ((ulost x).trans hl)

theorem engineFault_finds (h : Stoppable n s) (ctx event : Nat) : FoundStopped n event s (engineFault s n ctx 0x0101 event) := by
  have hout : ¬(s.retired n = true ∨ (s.eng n).faulty = true) := by simp [h.inService, h.sound]
  have hwhy : retireReason s n false = none := retireReason_none_iff.2 h.unnamed
  have heq : ∃ action, engineFault s n ctx 0x0101 event =
      (fault (findFaulty s (engDomain n) 0x0101) ctx n.val 0x0101 n.val 0x1F action event).settled n := by
    unfold engineFault
    rw [if_neg hout]
    simp only [hwhy]
    exact ⟨_, rfl⟩
  obtain ⟨action, heq⟩ := heq
  rw [heq]
  exact (fault_foundFaulty s n ctx 0x0101 action event).settled

theorem stopEngine_finds (h : Stoppable n (stepFirst s)) (event : Nat) :
    FoundStopped n event (stepFirst s) (stopEngine s n event) := by
  unfold stopEngine
  dsimp only
  rw [if_neg h.noStartTest]
  split
  next x hx =>
    rw [if_neg (h.noGolden x hx)]
    exact engineFault_finds h _ event
  next => exact engineFault_finds h _ event

/-! ### What a stop notes at the engine before it is found (R350, R366) -/

/-- An engine after the event of its stop: an uncorrectable error counted, a mismatch of the clipping pass noted. -/
def Engine.noted (event : Fin 6) (src : Fin 4) (word : Nat) (e : Engine) : Engine :=
  if event = 0 then
    { e with eccUe := satAdd 255 e.eccUe 1, eccSrc := src.val, eccAddr := word % 2 ^ 19, eccFlag := true }
  else if event = 5 then { e with clipFail := true, clipFailRegion := e.clipRegion } else e

/-- An engine after a mismatch that its clipping pass has met. -/
def Engine.mismatched (n : EngId) (e : Engine) : Engine :=
  { e with
    core := { e.core with saveBuf := e.bytesAt n (256 * e.clipRegion) 256 }, clipFail := true, clipFailRegion := e.clipRegion }

/-- The notes of a stop leave the engine's tile, its namings and its soundness. -/
def Notes (f : Engine → Engine) : Prop := ∀ e, (f e).holding = e.holding ∧ (f e).named = e.named ∧ (f e).faulty = e.faulty

theorem noted_notes (event : Fin 6) (src : Fin 4) (word : Nat) : Notes (Engine.noted event src word) := by
  intro e
  unfold Engine.noted
  repeat' split
  all_goals exact ⟨rfl, rfl, rfl⟩

theorem mismatched_notes (n : EngId) : Notes (Engine.mismatched n) := fun _ => ⟨rfl, rfl, rfl⟩

theorem State.modEng_unchanged {f : Engine → Engine} (h : f (s.eng n) = s.eng n) : s.modEng n f = s := by
  have hv : vupd s.engines n f = s.engines := by
    unfold vupd
    rw [show f s.engines[n] = s.engines[n] from h]
    exact Vector.set_getElem_self _
  unfold State.modEng
  rw [hv]

theorem engineStopEffect_live (h : engineLive s n = true) (event : Fin 6) (src : Fin 4) (word : Nat) :
    engineStopEffect n event src word s = stopEngine (s.modEng n (Engine.noted event src word)) n (event.val + 1) := by
  have hlive : (!engineLive s n && s.roles.bringIn != some (n, 1)) = false := by simp [h]
  unfold engineStopEffect
  rw [hlive]
  by_cases h0 : event = 0
  · subst h0
    rfl
  · by_cases h5 : event = 5
    · subst h5
      rfl
    · have hsame : s.modEng n (Engine.noted event src word) = s := State.modEng_unchanged (by simp [Engine.noted, h0, h5])
      rw [hsame]
      simp [h0, h5]

theorem clipRegionEffect_mismatch {bad : List (Bool × Fin 32 × BitVec 72)} (hr : clipRuns s n = true)
    (hb : clipMismatch bad = true) : clipRegionEffect n bad s = stopEngine (s.modEng n (Engine.mismatched n)) n 6 := by
  simp only [clipRegionEffect, hr, hb]
  rfl

/-! ### The stop at once, and after a rotation step that waits (R514) -/

theorem stepFirst_modEng (f : Engine → Engine) :
    stepFirst (s.modEng n f) = if stepWaits s then rotationStep (s.modEng n f) else s.modEng n f := rfl

variable {f : Engine → Engine}

theorem noted_stoppable (hf : Notes f) (h : Stoppable n s) : Stoppable n (s.modEng n f) :=
  (modEng_spares s n (fun e => (hf e).1) (fun e => (hf e).2.1) fun e he => (hf e).2.2.symm.trans he).stoppable h

/-- What the statement asks of engine n after a stop with no step before it. -/
def StopFound (n : EngId) (event : Nat) (s t : State) : Prop :=
  (t.eng n).st = .stopped ∧ (t.eng n).holding = none ∧ (t.eng n).faulty = true ∧
    t.faults.gen[engDomain n] = (s.faults.gen[engDomain n] + 1) % 16 ∧
    Recorded s t 0x0101 n.val n.val event ∧ SameMemory s t ∧
    (∀ k, k ≠ n → s.roles.coppice ≠ some k → t.eng k = s.eng k) ∧
    (s.retired n = false → n ∈ t.roles.steer) ∧
    ∀ x ∈ s.tds.tiles, s.lostWith n x = true → x.discard = false → x.station ≠ 14 → x.station ≠ 15 →
      ∃ y ∈ t.tds.tiles, y.handle = x.handle ∧ y.status = .fenced n ∧ y.redisp = true ∧ y.notOn = some n

/-- Where no step waits the engine is found at once, with what its stop has noted. -/
theorem stopEngine_found (hf : Notes f) (h : Stoppable n s) (hw : stepWaits s = false) (event : Nat) :
    let t := stopEngine (s.modEng n f) n event
    StopFound n event s t ∧ t.eng n = (f (s.eng n)).stopped s.now s.roles.steps := by
  intro t
  have hfirst : stepFirst (s.modEng n f) = s.modEng n f := by
    rw [stepFirst_modEng, hw]
    rfl
  have hfound : FoundStopped n event (s.modEng n f) t := hfirst ▸ stopEngine_finds (hfirst.symm ▸ noted_stoppable hf h) event
  have hself := hfound.self
  rw [State.modEng_eng_same] at hself
  refine ⟨⟨?_, ?_, ?_, hfound.tag, hfound.recorded, hfound.memory, fun k hk hc => ?_, fun _ => hfound.steer,
    hfound.fenced h.handles⟩, hself⟩
  case refine_4 => exact (hfound.others k hk hc).trans (s.modEng_eng_other f hk.symm)
  all_goals
    rw [hself]
    rfl

/-- The step that waits comes first, and the stop is found after it. -/
theorem stopEngine_afterStep (hf : Notes f) (h : Stoppable n s) (hw : stepWaits s = true) (event : Nat) :
    let t := stopEngine (s.modEng n f) n event
    t.roles.steps = s.roles.steps + 1 ∧ t.roles.lastStepAt = some s.now ∧ (t.eng n).st = .stopped ∧
      (t.eng n).holding = none ∧ (t.eng n).faulty = true ∧ t.faults.gen[engDomain n] = (s.faults.gen[engDomain n] + 1) % 16 := by
  intro t
  have hfirst : stepFirst (s.modEng n f) = rotationStep (s.modEng n f) := by
    rw [stepFirst_modEng, hw]
    rfl
  have hstop := (rotationStep_spares (s.modEng n f)).stoppable (noted_stoppable hf h)
  have hfound : FoundStopped n event (rotationStep (s.modEng n f)) t := hfirst ▸ stopEngine_finds (hfirst.symm ▸ hstop) event
  obtain ⟨hsteps, hlast, hfaults⟩ := rotationStep_counts (s.modEng n f)
  have htag := hfound.tag
  rw [hfaults] at htag
  refine ⟨hfound.steps.trans hsteps, hfound.lastStep.trans hlast, ?_, ?_, ?_, htag⟩
  all_goals
    rw [hfound.self]
    rfl

theorem stoppable_of_live (hl : engineLive s n = true) (hg : ∀ x, s.heldTile n = some x → x.station ≠ 15)
    (hb : s.roles.bringIn ≠ some (n, 1)) (hr : retireReason s n false = none) (hh : (s.tds.tiles.map (·.handle)).Nodup) :
    Stoppable n s := by
  simp only [engineLive, Bool.and_eq_true, Bool.not_eq_true'] at hl
  obtain ⟨⟨⟨⟨-, hret⟩, hsound⟩, -⟩, -⟩ := hl
  exact ⟨hret, hsound, hg, hb, retireReason_none_iff.1 hr, hh⟩

end

/-- Settles O16: the stop notes its event at the engine and is then found, at once or after the step that waits. -/
theorem engineStopIsFound : Obligations.EngineStopIsFound := by
  unfold Obligations.EngineStopIsFound
  intro n s hl hg hb hr hh Found
  have hs := stoppable_of_live hl hg hb hr hh
  refine ⟨fun hw event src w => ?_, fun hw event src w => ?_, fun hw hclip bad hbad => ?_⟩
  · exact ⟨_, congrArg Host.Outcome.next (engineStopEffect_live hl event src w),
      stopEngine_afterStep (noted_notes event src w) hs hw _⟩
  · obtain ⟨hfound, hself⟩ := stopEngine_found (noted_notes event src w) hs hw (event.val + 1)
    refine ⟨_, congrArg Host.Outcome.next (engineStopEffect_live hl event src w), hfound, ?_, ?_⟩
    all_goals
      rintro rfl
      rw [hself]
      exact ⟨rfl, rfl⟩
  · obtain ⟨hfound, hself⟩ := stopEngine_found (mismatched_notes n) hs hw 6
    refine ⟨_, congrArg Host.Outcome.next (clipRegionEffect_mismatch hclip hbad), hfound, ?_⟩
    rw [hself]
    exact ⟨rfl, rfl⟩

end Sys2Proof.Machine
end
